-- ==== Sys2Proof/Word.lean ====
section
/-!
DEFINITION. The word types of the AXQ40 node: the 40-bit parameter and reply word (R2) and the byte.
-/
namespace Sys2Proof

/-- A parameter, reply or record word, 40 bits (R2). -/
abbrev Word := BitVec 40

/-- One byte of a packet, frame or store region. -/
abbrev Byte := BitVec 8

/-- One of the four channels, outputs or RTD inputs of this node. -/
abbrev Ch := Fin 4

/-- One of the two fans. -/
abbrev Fan := Fin 2

end Sys2Proof
end

