-- ==== Sys2Proof/Syntax.lean ====
section
/-!
DEFINITION. The commands the block takes: one constructor of `Instr` per row of spec/opcode_table.json, with the
row's operands. The table gives its rows no bits and no operands; the operands are what the row's rules say the step
takes from outside (log entry 2). `t` is everywhere the instant of the command in ns after P0 of the tick in progress.
-/
namespace Sys2Proof

/-- Four things of a kind, one per channel, output or input. -/
structure Quad (α : Type) where
  c0 : α
  c1 : α
  c2 : α
  c3 : α
  deriving DecidableEq, Repr

/-- The thing of channel `c`. -/
def Quad.get {α : Type} (q : Quad α) (c : Ch) : α :=
  match c with
  | 0 => q.c0
  | 1 => q.c1
  | 2 => q.c2
  | 3 => q.c3

/-- Replaces the thing of channel `c`. -/
def Quad.set {α : Type} (q : Quad α) (c : Ch) (x : α) : Quad α :=
  match c with
  | 0 => { q with c0 := x }
  | 1 => { q with c1 := x }
  | 2 => { q with c2 := x }
  | 3 => { q with c3 := x }

/-- The same thing on all four. -/
def Quad.all {α : Type} (x : α) : Quad α := ⟨x, x, x, x⟩

/-- The four things in ascending channel order. -/
def Quad.toList {α : Type} (q : Quad α) : List α := [q.c0, q.c1, q.c2, q.c3]

/-- Applies a function to each. -/
def Quad.map {α β : Type} (f : α → β) (q : Quad α) : Quad β := ⟨f q.c0, f q.c1, f q.c2, f q.c3⟩

/-- Two things of a kind, one per fan, path, port, slot or group. -/
structure Duo (α : Type) where
  a : α
  b : α
  deriving DecidableEq, Repr

/-- The first thing for `false`, the second for `true`. -/
def Duo.get {α : Type} (d : Duo α) (s : Bool) : α := if s then d.b else d.a

/-- Replaces one of the two. -/
def Duo.set {α : Type} (d : Duo α) (s : Bool) (x : α) : Duo α :=
  if s then { d with b := x } else { d with a := x }

/-- The port a command packet came in by: from the line, or as context L over the host port (R52). -/
inductive PacketPort where
  | line
  | host
  deriving DecidableEq, Repr

/-- A command packet, laid out by R49: the fields of H0 and H1, the parameter words and the MAC. -/
structure Packet where
  /-- where it arrived -/
  port : PacketPort
  /-- H0 [39:32] -/
  opcode : BitVec 8
  /-- H0 [31:24] -/
  client : BitVec 8
  /-- H0 [23:12] -/
  tag : BitVec 12
  /-- H0 [11] -/
  greenOk : Bool
  /-- H0 [10] -/
  finalOnly : Bool
  /-- H0 [8] -/
  scheduled : Bool
  /-- H0 [7:0] -/
  mask : BitVec 8
  /-- H1 [39:24] -/
  tick : BitVec 16
  /-- the parameter words, as many as H1 [23:16] says -/
  words : List Word
  /-- the MAC, present when AUTH (H0 [9]) is set -/
  mac : Option (BitVec 32)
  deriving DecidableEq, Repr

/-- The items of block EXC or IN that the Write column marks CASK (R192, R194), by item number. -/
structure CaskItem where
  /-- IN block (true) or EXC block (false) -/
  inBlock : Bool
  /-- the item number in [6:0] of its ID -/
  item : BitVec 7
  deriving DecidableEq, Repr

/-- The items of R420. -/
inductive RecordItem where
  | reclen
  | recch
  | recvel
  | replyq
  deriving DecidableEq, Repr

/-- The data of a write transaction of the host port (R587): its length field, the whole bytes received after it, and
whether CSN rose within a byte. -/
structure HostWrite where
  len : BitVec 16
  bytes : List Byte
  cutInByte : Bool
  deriving DecidableEq, Repr

/-- The two line ports, and their side-lanes (R403, R469). -/
inductive LinePort where
  | up
  | dn
  deriving DecidableEq, Repr

/-- How a received frame ended (R247 to R249): checked good, CRC-32C wrong at this hop, or ended otherwise than /T/ /R/. -/
inductive FrameEnd where
  | good
  | badCrc
  | other
  deriving DecidableEq, Repr

/-- The header of a received line frame (R406), with the port it arrived on and how it ended. -/
structure FrameHdr where
  port : LinePort
  ending : FrameEnd
  /-- byte 1 [0] -/
  ret : Bool
  /-- byte 1 [1] -/
  fromTail : Bool
  /-- byte 1 [2] -/
  folded : Bool
  /-- byte 1 [3] -/
  tailPresent : Bool
  /-- bytes 2 to 3 [9:0] -/
  hop : BitVec 10
  /-- bytes 7 to 10 -/
  cycle : BitVec 32
  /-- bytes 11 to 13, in µs -/
  cycleUs : BitVec 24
  deriving DecidableEq, Repr

/-- The payload of a SYNC frame (R424) and the forwarding delays the node measures for it (R425), in ps. -/
structure SyncPayload where
  lt : BitVec 64
  /-- RT_0 in ps -/
  rt0 : BitVec 32
  /-- the accumulator A in ps, as received -/
  acc : Int
  /-- this node's own outbound forwarding delay f_o -/
  fOut : Int
  /-- this node's own return forwarding delay f_r -/
  fRet : Int
  deriving DecidableEq, Repr

/-- A received side-lane bulk frame's header, with the port and whether its CRC-32C passed (R471). -/
structure LaneHdr where
  port : LinePort
  seq : BitVec 8
  crcOk : Bool
  deriving DecidableEq, Repr

/-- What a beacon carries (R462). -/
structure BeaconBody where
  /-- lock state code of R430 -/
  lockState : BitVec 2
  lockPos : BitVec 10
  signature : Word
  generation : BitVec 32
  crc : BitVec 32
  autoAdopt : Bool
  /-- the shadow the neighbour holds of this node: owner position, owner signature, generation, CRC, valid -/
  shadowPos : BitVec 10
  shadowSig : Word
  shadowGen : BitVec 32
  shadowCrc : BitVec 32
  shadowValid : Bool
  deriving DecidableEq, Repr

/-- A part of a configuration in transfer (R463, R465): its place and bytes, and with the last part what the shadow's
header names. -/
structure ShadowPart where
  offset : Nat
  bytes : List Byte
  last : Bool
  ownerPos : BitVec 10
  ownerSig : Word
  generation : BitVec 32
  crc : BitVec 32
  deriving DecidableEq, Repr

/-- FORM_REQ (R473, R475). -/
structure FormRequest where
  fusionTick : BitVec 48
  client : BitVec 8
  fromHost : Bool
  version : BitVec 32
  sig : BitVec 16
  rateKhz : Nat
  position : BitVec 10
  deriving DecidableEq, Repr

/-- RESULT (R473, R479). -/
structure RelayResult where
  tag : BitVec 12
  client : BitVec 8
  fromHost : Bool
  status : BitVec 8
  tick : BitVec 16
  green : Bool
  words : List Word
  deriving DecidableEq, Repr

/-- EVENT (R473, R482): an event of channels 4 to 7, as R56 without the sequence number. -/
structure LaneEvent where
  code : BitVec 16
  channel : Ch
  ltHi : Word
  ltLo : Word
  words : List Word
  deriving DecidableEq, Repr

/-- RECORD (R484): the upper member's part of a cyclic record, with its snapshot tick: its LINE.RECLEN, RECCH and RECVEL
in force, the marks and positions, and the velocities (log entry 34). -/
structure LaneRecord where
  tick : BitVec 48
  len : BitVec 8
  ch : BitVec 4
  vel : BitVec 4
  positions : List Byte
  velocities : List Byte
  deriving DecidableEq, Repr

/-- What one channel's front end takes in during the tick that ends at this P0. -/
structure ChanInput where
  /-- the SIN modulator's bits since the previous P0, oldest first, one every 1 / 20.48 MHz (R165) -/
  sin : List Bool
  /-- the COS modulator's bits at the same instants -/
  cos : List Bool
  /-- peak excitation driver current of the tick, in µA (R191) -/
  peakUa : Nat
  /-- for each excitation half-period that ended in the tick: the driver met its 50 mA limit in it (R191) -/
  ocHalves : List Bool
  /-- level of SDATn at this P0 (R184) -/
  sdat : Bool
  deriving DecidableEq, Repr

/-- An error found by a scrub (R521, R536): its address, and whether ECC could not correct it. -/
structure EccError where
  addr : BitVec 32
  uncorrectable : Bool
  deriving DecidableEq, Repr

/-- One received half-wave of a shot: its peak in µV and the zero crossing that follows it, in ps from the burst
start (R371). -/
structure HalfWave where
  peakUv : Nat
  zcPs : Nat
  deriving DecidableEq, Repr

/-- The shots of one path in a round: the half-waves of each shot inside its receive window (R370). -/
structure PathShots where
  dn : List (List HalfWave)
  up : List (List HalfWave)
  deriving DecidableEq, Repr

/-- One RTD input's discharge times of a round in ps; `none` where 40 % was not reached within 4 ms (R382, R397). -/
structure RtdShot where
  tRef : Option Nat
  tX : Option Nat
  deriving DecidableEq, Repr

/-- The raw measurements of a measuring round (R368). -/
structure RoundData where
  paths : Duo PathShots
  rtds : Quad RtdShot
  deriving DecidableEq, Repr

/-- The checks of Steep, as the table of R93 lists them by step. -/
inductive SteepCheck where
  /-- step 1: the crystal against the RC arbiter -/
  | crystal
  /-- step 2: the March test, the ECC of the store, the CRCs -/
  | march
  | ecc
  | crc
  /-- step 3: the signature -/
  | signature
  /-- step 4: the loopbacks and the RTD reference -/
  | adc (c : Ch)
  | exc (c : Ch)
  | dac (c : Ch)
  | tdc
  | rtd
  /-- step 5: the reference cross-check -/
  | refs
  /-- step 7: the detector proof -/
  | proof
  deriving DecidableEq, Repr

/-- The step of a check (R93), numbered from 0. -/
def SteepCheck.step : SteepCheck → Nat
  | .crystal => 0
  | .march | .ecc | .crc => 1
  | .signature => 2
  | .adc _ | .exc _ | .dac _ | .tdc | .rtd => 3
  | .refs => 4
  | .proof => 6

/-- What reaches a step's limit (R93, R95). -/
inductive StepCut where
  /-- step 1: the PLL has not locked -/
  | pll
  /-- a step, numbered from 0, with a check that has not finished -/
  | checks (i : Fin 7)
  deriving DecidableEq, Repr

/-- What the checks of Steep measured (R93 to R103). Store regions have the codes of R535; deviations are measured less expected value. -/
structure SteepResults where
  /-- the checks that had not finished when their step was abandoned -/
  unfinished : List SteepCheck
  /-- the crystal's deviation from the RC arbiter, ppm -/
  crystalPpm : Int
  marchPassed : Bool
  /-- regions with an uncorrectable ECC error -/
  uncorrectable : List (Fin 10)
  /-- errors ECC corrected in place in step 2 -/
  corrected : List EccError
  /-- regions, of those that carry a CRC, whose CRC fails -/
  crcBad : List (Fin 10)
  /-- image slots whose stored bytes no longer agree with the signature found valid at their commit (R104, R551) -/
  signatureBad : List Bool
  /-- deviations of the ADC and excitation loopbacks, ppm of full scale -/
  adcDev : Quad Int
  excDev : Quad Int
  /-- deviations of the DAC loopback at each range code of DAC.RANGE, ppm of full scale -/
  dacDev : Quad (List Int)
  /-- deviation of the TDC on its reference delay and of the RTD reference resistor, ppm of full scale -/
  tdcDev : Int
  rtdDev : Int
  /-- δ_AM, δ_BM and δ_AB of the 10 ms averages of step 5, in ppm (R100, R523) -/
  refDevs : Int × Int × Int
  refBFitted : Bool
  /-- detectors whose verdict did not follow their pitch at once, in the order of the proof: code, scope, and the delay of the verdict in
  ns, none where it did not come -/
  late : List (BitVec 16 × BitVec 8 × Option Nat)
  /-- the comparator delay t_0 measured at Steep, in ps (R382) -/
  t0Ps : Nat
  deriving DecidableEq, Repr

/-- The 10 ms windows of R244. -/
inductive WindowKind where
  | refuted
  | latchLost
  | hopMismatch
  deriving DecidableEq, Repr

/-- The commands: one constructor per row of spec/opcode_table.json; those without operands stand last. -/
inductive Instr where
  /-- R562: Returns the parameter words unchanged as reply words with status DONE. -/
  | ping (p : Packet)
  /-- R61: Opens a session of the named permission class for a line client and returns a fresh 64-bit nonce. -/
  | openSession (p : Packet)
  /-- R564: Closes the client's session, aborts its uncommitted commands, releases its channels and drops its subscriptions and undelivered events. -/
  | closeSession (p : Packet)
  /-- R565: Replaces the client's event subscriptions with the listed codes. -/
  | subscribeSet (p : Packet)
  /-- R565: Adds the listed event codes to the client's subscriptions. -/
  | subscribeAdd (p : Packet)
  /-- R565: Removes the listed event codes from the client's subscriptions. -/
  | subscribeRemove (p : Packet)
  /-- R565: Subscribes the client to every event code. -/
  | subscribeAll (p : Packet)
  /-- R566: Resends the cached reply for a tag, then reports whether the tag was cached or in use. -/
  | replay (p : Packet)
  /-- R566: Returns the 16 replay-cache places of the client, newest first. -/
  | replayList (p : Packet)
  /-- R47: Returns the part code, the revision and version, the lock state and hop count, and the line signature. -/
  | describe (p : Packet)
  /-- R567: Installs a new 128-bit MAC key from context L and writes it to the node page. -/
  | keySet (p : Packet)
  /-- R567: Erases the MAC key from the node page. -/
  | keySetErase (p : Packet)
  /-- R40: Enters CASK, forcing outputs to their safe states and aborting pending STOPs. -/
  | setModeCask (p : Packet)
  /-- R32: Moves from CASK to TRACK by starting excitation and tracking, or from DRIVE to TRACK by a controlled STOP. -/
  | setModeTrack (p : Packet)
  /-- R38: Moves from TRACK to DRIVE, starting every loop-enabled slot bumplessly from its present state. -/
  | setModeDrive (p : Packet)
  /-- R115: Ends all pool operations as at a core reset and reruns all seven Steep steps. -/
  | steepRun (p : Packet)
  /-- R569: Returns S40 and the latest Steep word, and clears the client's refutation bit. -/
  | status (p : Packet)
  /-- R508: Clears every included active fault instance whose condition has ceased. -/
  | clearFaults (p : Packet)
  /-- R142: Performs a tick realignment at P0 of the commit tick. -/
  | tickRealign (p : Packet)
  /-- R570: Returns the values of the listed parameter IDs as of the command's execution. -/
  | paramRead (p : Packet)
  /-- R571: Writes the listed parameters together, judged as one packet, for every item that has no behaviour of its own. -/
  | paramWrite (p : Packet)
  /-- R128: Accepts a new tick rate, which takes effect at the next boundary common to both rates. -/
  | tickRateWrite (p : Packet) (v : Word)
  /-- R129: Moves the output instant from P0 of the commit tick, in CASK or TRACK. -/
  | tickOutatWrite (p : Packet) (v : Word)
  /-- R121: In CASK, starts or stops excitation and SSI clocking on resolver and SSI channels at the commit tick. -/
  | nodeCaskexcWrite (p : Packet) (v : Word)
  /-- R194: Writing a CASK item on a channel excited in CASK stops its excitation and restarts it with the new values after the zero crossing. -/
  | caskItemWriteExcited (p : Packet) (item : CaskItem) (ch : Ch) (v : Word)
  /-- R266: Changes the position offset and translates every stored position of the channel, raising EV.POS_SHIFT. -/
  | posOffsetWrite (p : Packet) (ch : Ch) (v : Word)
  /-- R340: Changes an output's source, leaving the pin held until the new source writes and a strobe loads. -/
  | dacSrcWrite (p : Packet) (ch : Ch) (v : Word)
  /-- R359: Ends or starts a CLRN clear on an output while CLRN is low. -/
  | dacClrenWrite (p : Packet) (ch : Ch) (v : Word)
  /-- R362: Moves an output that is showing its clear code to the new clear code within 2 µs. -/
  | dacClrcodeWrite (p : Packet) (ch : Ch) (v : Word)
  /-- R337: Changes an output's range or reference in CASK after the rail check, showing the clear code in the new range. -/
  | dacRangeWrite (p : Packet) (ch : Ch) (v : Word)
  /-- R148: Selects LINE or LOCAL as the time source, changing the time mark and correcting or continuing time. -/
  | refTselWrite (p : Packet) (v : Word)
  /-- R411: A new cycle length written at the head takes effect at the first new-length cycle start after the current cycle. -/
  | lineCycleWrite (p : Packet) (v : Word)
  /-- R420: Writes of the record and reply-queue layout take effect at the node's next roll call. -/
  | lineRecordWrite (p : Packet) (item : RecordItem) (v : Word)
  /-- R541: Writes the working set into the non-current configuration slot and makes it current. -/
  | paramSave (p : Packet)
  /-- R542: Loads the previous configuration into the working set and makes it the current one. -/
  | paramRestore (p : Packet)
  /-- R543: Sets every writable item to its After Steep value and clears the maps, without writing the store. -/
  | paramDefaults (p : Packet)
  /-- R573: Returns kilned position groups, and green groups with GREEN_OK, for the named channels. -/
  | readPosition (p : Packet)
  /-- R210: Sets the position offset so that the kilned P40 of the commit tick equals the value given. -/
  | setPosition (p : Packet)
  /-- R215: Starts learning an angle-correction map over a number of turns. -/
  | calibrateAngleLearn (p : Packet)
  /-- R214: Loads 256 map entries, taking effect at the following tick. -/
  | calibrateAngleWrite (p : Packet)
  /-- R214: Returns the channel's angle-correction map. -/
  | calibrateAngleRead (p : Packet)
  /-- R214: Sets every map entry to zero from the following tick. -/
  | calibrateAngleClear (p : Packet)
  /-- R268: Returns the kilned interpolated position at a given line-time instant. -/
  | extrapolatePosAt (p : Packet)
  /-- R270: Returns a green predicted position and error bound for a future instant. -/
  | extrapolatePredict (p : Packet)
  /-- R271: Returns, now or once confirmed, the instant of the first kilned crossing of a target. -/
  | extrapolateTimeAt (p : Packet)
  /-- R265: Returns history entries from a given instant onward. -/
  | historyRead (p : Packet)
  /-- R316: Judges a new absolute target against the setpoint and plans a move to it. -/
  | moveTo (p : Packet)
  /-- R314: Sets a target relative to the present target or setpoint and plans the move. -/
  | moveBy (p : Packet)
  /-- R312: Drives the slot's profile to a commanded velocity. -/
  | jog (p : Packet)
  /-- R322: Brakes the named slots to rest within their limits. -/
  | stop (p : Packet)
  /-- R323: Drives the outputs to their clear codes within 2 µs and stops the slots running. -/
  | park (p : Packet)
  /-- R308: Sets the profile velocity, acceleration, deceleration and jerk limits and rejudges any active move. -/
  | setLimits (p : Packet)
  /-- R303: Sets the four loop gains from the step of the commit tick. -/
  | gainSet (p : Packet)
  /-- R302: Enables the loop of the named channels after admission, making the sender owner. -/
  | loopEnable (p : Packet)
  /-- R302: Disables the loop, running a STOP in DRIVE and removing the channel from its cascade group. -/
  | loopDisable (p : Packet)
  /-- R313: Forms or dissolves a cascade group, with follower ratios. -/
  | cascadeSet (p : Packet)
  /-- R256: Arms a latch input in ONCE, COUNT or CONTINUOUS mode from P0 of the commit tick. -/
  | latchArm (p : Packet)
  /-- R257: Ends any arming on the named latch input. -/
  | latchArmOff (p : Packet)
  /-- R262: Returns readable latch entries and, without PEEK, removes them from the FIFO. -/
  | latchRead (p : Packet)
  /-- R273: Resolves and arms one or more hop entries, all or nothing, returning their handles. -/
  | hopAdd (p : Packet)
  /-- R282: Removes the hop entries named by handle. -/
  | hopRemoveByHandle (p : Packet)
  /-- R282: Removes every hop entry of the named channels. -/
  | hopRemoveByChannel (p : Packet)
  /-- R282: Removes every hop entry on one compare output across the named channels. -/
  | hopRemoveByOutput (p : Packet)
  /-- R283: Lists a channel's live hop entries in target order. -/
  | hopList (p : Packet)
  /-- R289: Writes the encoder-emulation items of one channel together, with a shift that emits no edge. -/
  | emuSet (p : Packet)
  /-- R366: Writes the selected DAC items of the named outputs together. -/
  | dacConfig (p : Packet)
  /-- R341: Writes codes into the input registers of DIRECT outputs. -/
  | dacWrite (p : Packet)
  /-- R343: Strobes the named COMMAND strobe groups at P3 of the commit tick. -/
  | dacStrobe (p : Packet)
  /-- R347: Claims a zero-filled wave-memory region for a table and sets it FILLING. -/
  | waveLoadDefine (p : Packet)
  /-- R347: Writes samples into a FILLING table. -/
  | waveLoadData (p : Packet)
  /-- R349: Sets a table LOADED, returns its CRC, and persists it to the store when asked. -/
  | waveLoadSeal (p : Packet)
  /-- R347: Frees a table and deletes any persisted copy. -/
  | waveLoadDelete (p : Packet)
  /-- R350: Starts or arms a playback of a loaded table on the named WAVE outputs. -/
  | wavePlay (p : Packet)
  /-- R357: Ends every playback on the named outputs, which hold their last codes. -/
  | waveStop (p : Packet)
  /-- R578: Writes SND and RTD items together under the round-budget check. -/
  | soundConfig (p : Packet)
  /-- R398: Returns the latest round's air velocity, sound speed, temperature and status per path. -/
  | soundRead (p : Packet)
  /-- R378: Stops the fans and starts a zero-flow calibration of the named paths. -/
  | zeroFlowCal (p : Packet)
  /-- R398: Returns the latest RTD temperatures, resistances and status. -/
  | rtdRead (p : Packet)
  /-- R398: Sets the duty source, and the fixed duty, of the named fans. -/
  | fanSet (p : Packet)
  /-- R398: Returns each fan's duty, source, supervision state and speed. -/
  | fanRead (p : Packet)
  /-- R431: Runs a roll call at the head comparing stored locks with hop counts. -/
  | rollcallSurvey (p : Packet)
  /-- R432: Runs a roll call that stores each CASK node's hop count and a new signature as its lock. -/
  | rollcallAssign (p : Packet)
  /-- R437: Stores the present hop count and latest signature as the node's lock. -/
  | relock (p : Packet)
  /-- R465: Starts adopting a neighbour's shadow configuration and lock. -/
  | adopt (p : Packet)
  /-- R451: Asks the head or tail head to fold the line at the next cycle start. -/
  | fold (p : Packet)
  /-- R458: Schedules the unfolding of a folded line at a named cycle. -/
  | unfold (p : Packet)
  /-- R439: Returns the line counters, delay and round trip. -/
  | lineStats (p : Packet)
  /-- R154: Returns line time, K48, time mark, drift and offset for the completion tick. -/
  | timeRead (p : Packet)
  /-- R518: Returns every active fault instance. -/
  | faultRead (p : Packet)
  /-- R519: Returns fault-log entries, oldest first. -/
  | faultLog (p : Packet)
  /-- R530: Arms a pitch point to inject a fault once, n times or continuously. -/
  | pitchArm (p : Packet)
  /-- R532: Disarms one or every armed pitch point. -/
  | pitchDisarm (p : Packet)
  /-- R528: Returns the reference deviations, creep rates, blame and time deviation. -/
  | refStatus (p : Packet)
  /-- R155: Returns the tick realignment, step, skip, SYNCIN and deadline counts. -/
  | tickStats (p : Packet)
  /-- R548: Opens a firmware transfer into the inactive image slot. -/
  | fwBegin (p : Packet)
  /-- R549: Writes an image block into the client's open transfer. -/
  | fwBlock (p : Packet)
  /-- R551: Starts checking the transferred image for completeness, header, revision and signature. -/
  | fwCommit (p : Packet)
  /-- R553: Drains the node and restarts it on the PENDING image on trial. -/
  | fwActivate (p : Packet)
  /-- R545: Returns bytes from a store region. -/
  | storeRead (p : Packet)
  /-- R475: Starts the forming exchange that fuses this node with its upper neighbour. -/
  | tandemForm (p : Packet)
  /-- R495: Stops every slot of the pair and starts ending the fusion. -/
  | tandemSplit (p : Packet)
  /-- R498: Returns the tandem state, partner, lane link and lane counters. -/
  | tandemStatus (p : Packet)
  /-- R588: Host-port transaction placing a context-L command packet in the receive buffer. -/
  | packetWrite (w : HostWrite) (t : Nat)
  /-- R591: Host-port transaction queuing a line packet for the CMD frames of a heading node. -/
  | lineWrite (w : HostWrite) (t : Nat)
  /-- R592: Host-port transaction queuing an image-block MNT payload for broadcast. -/
  | mntWrite (w : HostWrite) (t : Nat)
  /-- R593: Host-port transaction setting the outbound slots of later CYC frames. -/
  | slotsWrite (w : HostWrite) (t : Nat)
  /-- R590: Host-port transaction returning, and on a full read consuming, the oldest reply packet. -/
  | replyRead (clocked t : Nat)
  /-- R594: Host-port transaction returning and consuming a cycle block or the node's outbound slot. -/
  | cyclicRead (clocked t : Nat)
  /-- R597: Host-port transaction returning the port status and resetting the overrun flag. -/
  | statusRead (clocked t : Nat)
  /-- R599: Host-port transaction clearing IRQ causes and writing the IRQ mask. -/
  | controlWrite (w : HostWrite) (t : Nat)
  /-- R604: TAP instruction driving the boundary balls while holding the core in reset. -/
  | extest (cells : BitVec 86) (t : Nat)
  /-- R602: TAP instruction sampling or preloading the boundary register without affecting the core. -/
  | samplePreload (cells : BitVec 86) (t : Nat)
  /-- R604: TAP instruction setting the boundary balls to high impedance while holding the core in reset. -/
  | highz (t : Nat)
  /-- R604: TAP instruction clamping the boundary balls while holding the core in reset. -/
  | clamp (t : Nat)
  /-- R602: TAP instruction selecting the bypass register; an instruction that replaces a reset-holding one restarts the core through Steep. -/
  | bypass (t : Nat)
  /-- R604: A TAP reset or TRSTN selects BYPASS and restarts a core held by an instruction. -/
  | tapReset (t : Nat)
  /-- R88: Every rail has held in range for 1 ms, so PWRGOOD asserts and Steep starts. -/
  | pwrgood (avddh avss : Int) (t : Nat)
  /-- R92: A core rail leaves its range for 2 µs, so the core is reset and any Steep is abandoned. -/
  | pwrgoodDrop (t : Nat)
  /-- R581: RESETN held low resets the core and releases its outputs to high impedance. -/
  | resetnFall (t : Nat)
  /-- R89: The release of RESETN starts a core-reset Steep at PWRGOOD. -/
  | resetnRise (t : Nat)
  /-- R90: CRESETN held low resets the cellar and holds the core in reset. -/
  | cresetnFall (t : Nat)
  /-- R90: The release of CRESETN restarts the cellar as at power-up. -/
  | cresetnRise (t : Nat)
  /-- R359: CLRN low drives every clear-enabled output to its clear code within 2 µs. -/
  | clrnFall (t : Nat)
  /-- R361: The release of CLRN ends the clear; outputs keep their clear codes until a fresh code is loaded. -/
  | clrnRise (t : Nat)
  /-- R138: An accepted SYNCIN rising edge is stamped and handled according to the sync mode. -/
  | syncinEdge (high t : Nat)
  /-- R342: An accepted LDAC falling edge strobes its PIN group. -/
  | ldacEdge (b : Bool) (low t : Nat)
  /-- R254: An accepted LATA or LATB edge is stamped and captured by any arming that applies. -/
  | latchEdge (ch : Ch) (b falling : Bool) (held t : Nat)
  /-- R223: An index edge latches the count and position and may be judged for drift. -/
  | indexEdge (ch : Ch) (falling bothPos : Bool) (held t : Nat)
  /-- R179: An accepted Hall edge is stamped and yields a kilned sector position. -/
  | hallEdge (ch : Ch) (code : BitVec 3) (held t : Nat)
  /-- R386: A filtered tach falling edge is counted toward the fan speed. -/
  | tachEdge (fan : Fan) (t : Nat)
  /-- R401: A line port gains link after 2 ms of link OK. -/
  | linkGain (q : LinePort) (t : Nat)
  /-- R401: A line port loses link at the first link-fail report. -/
  | linkLoss (q : LinePort) (t : Nat)
  /-- R469: A side-lane gains or loses link. -/
  | laneLinkChange (q : LinePort) (up : Bool) (t : Nat)
  /-- R427: An outbound SYNC frame is stamped and, once checked, gives line time and the delay update. -/
  | syncFrame (h : FrameHdr) (x : SyncPayload) (t : Nat)
  /-- R425: A returning SYNC frame is stamped for the round trip. -/
  | syncReturn (h : FrameHdr) (rtPs : Nat) (t : Nat)
  /-- R413: A checked CMD frame is decoded and its entries addressed to this node are taken as arriving packets. -/
  | cmdFrame (h : FrameHdr) (payload : List Byte) (t : Nat)
  /-- R415: A checked CYC frame hands the node its outbound slot. -/
  | cycFrame (h : FrameHdr) (payload : List Byte) (t : Nat)
  /-- R416: A returning RET frame is forwarded with this node's car appended, or handed to the host at the head. -/
  | retFrame (h : FrameHdr) (payload : List Byte) (t : Nat)
  /-- R432: An outbound RC frame gives the node its hop count and, under ASSIGN, its new lock. -/
  | rcFrame (h : FrameHdr) (payload : List Byte) (t : Nat)
  /-- R433: A returning RC frame is forwarded with this node's RC car appended. -/
  | rcReturn (h : FrameHdr) (payload : List Byte) (t : Nat)
  /-- R434: The RC frame returns to the head, which ends the roll call, fold or unfold survey with its reply. -/
  | rollcallComplete (h : FrameHdr) (payload : List Byte) (t : Nat)
  /-- R459: An unfold notice names the cycle at which this node lifts the fold. -/
  | mntUnfoldNotice (h : FrameHdr) (payload : List Byte) (t : Nat)
  /-- R550: A broadcast image block is written into a matching open transfer. -/
  | mntImageBlock (h : FrameHdr) (payload : List Byte) (t : Nat)
  /-- R409: A frame of unlisted type is forwarded unchanged and counted. -/
  | unknownFrame (typ : Byte) (h : FrameHdr) (payload : List Byte) (t : Nat)
  /-- R473: A lane tick packet from the partner is received or counted missing. -/
  | tickPacket (bytes : List Byte)
  /-- R462: A neighbour's beacon is received and may start a shadow refresh or adoption. -/
  | beacon (g : LaneHdr) (x : BeaconBody) (t : Nat)
  /-- R463: A neighbour requests this node's configuration for its shadow. -/
  | shadowReq (g : LaneHdr) (adopt : Bool) (t : Nat)
  /-- R463: A part of a neighbour's configuration arrives for a shadow or an adoption. -/
  | shadowData (g : LaneHdr) (x : ShadowPart) (t : Nat)
  /-- R475: The upper member judges a forming request and answers. -/
  | formReq (g : LaneHdr) (x : FormRequest) (t : Nat)
  /-- R475: The lower member receives the upper member's forming answer. -/
  | formAns (g : LaneHdr) (reason : BitVec 4) (t : Nat)
  /-- R495: The upper member starts a split and stops its slots. -/
  | split (g : LaneHdr) (t : Nat)
  /-- R479: The upper member receives a relayed command for its channels. -/
  | relay (g : LaneHdr) (p : Packet) (k : Nat) (t : Nat)
  /-- R479: The lower member receives a relayed command's outcome and sends the final reply. -/
  | result (g : LaneHdr) (x : RelayResult) (t : Nat)
  /-- R482: The lower member queues an event of channels 4 to 7 received from the upper member. -/
  | event (g : LaneHdr) (x : LaneEvent) (t : Nat)
  /-- R484: The lower member receives the upper member's part of the cyclic record. -/
  | record (g : LaneHdr) (x : LaneRecord) (t : Nat)
  /-- R130: P0 of a tick: samples close, tracking steps run and due commands commit. -/
  | frameTick (x : Quad ChanInput)
  /-- R295: At the end of P1 the control engine runs the loops, limiter, following-error check and output path of the running slots. -/
  | phaseB (stall : Nat)
  /-- R126: P4: sound-and-heat results, store writes, history, log and event queues. -/
  | housekeeping (meas : Quad Int)
  /-- R410: At a line-cycle start the head sends SYNC, CMD or MNT, and CYC or RC frames, and judges the last return train. -/
  | cycleStart (t : Nat)
  /-- R140: An ALIGN edge realigns the ticks at the edge plus the sync delay. -/
  | syncinRealign (t : Nat)
  /-- R146: The hold time passes without SYNC, so the time in force becomes LOCAL. -/
  | holdoverEnd (t : Nat)
  /-- R150: A drift window closes and the deviation of line time from the crystal is judged. -/
  | driftWindowClose (xOpen xClose arbPpm : Int) (t : Nat)
  /-- R149: Without a drift window, a 1 s interval checks the crystal against the RC arbiter. -/
  | crystalArbiterCheck (arbPpm : Int) (t : Nat)
  /-- R523: A 1 s reference window closes and the deviations and creep are judged. -/
  | refWindowClose (dAM dBM dAB : Int) (t : Nat)
  /-- R526: At the group strobe, outputs on a blamed reference switch to the other reference. -/
  | refSwitch (grpB : Bool) (t : Nat)
  /-- R521: The junction temperature is read every millisecond and judged for overtemperature. -/
  | tjReading (tj : Word) (t : Nat)
  /-- R521: Once per second the scrubber reads all core SRAM for ECC errors. -/
  | sramScrub (errs : List EccError) (t : Nat)
  /-- R536: Every 10 minutes the whole store is read and single-bit errors are corrected. -/
  | storeScrub (errs : List EccError) (t : Nat)
  /-- R521: The watchdog has not been serviced for 50 ms, so the core resets. -/
  | watchdogExpiry (t : Nat)
  /-- R93: A Steep step reaches its limit and is abandoned, its unfinished checks failing. -/
  | steepStepLimit (n : StepCut) (t : Nat)
  /-- R95: Step 1 is repeated every 100 ms until the PLL locks. -/
  | pllRetry (locked : Bool) (t : Nat)
  /-- R111: Steep ends with CASK entry, setting Cask-locked and raising F.STEEP as its word decides. -/
  | steepEnd (r : SteepResults) (t : Nat)
  /-- R37: 50 ms after a CASK-to-TRACK commit, a channel with no kilned sample raises its detector fault. -/
  | trackEntryTimeout (t : Nat)
  /-- R163: The 1 ms excitation ramp completes at full amplitude. -/
  | excitationRampEnd (ch : Ch) (t : Nat)
  /-- R163: A stopping excitation ends at its next upward zero crossing. -/
  | excitationStop (ch : Ch) (t : Nat)
  /-- R172: The entry carrier-phase measurement finishes and sets the compensation. -/
  | carrierPhaseMeasured (ch : Ch)
  /-- R202: After 16 good measurements the channel yields kilned values. -/
  | acquisitionDone (ch : Ch)
  /-- R221: The first settled sample after a realignment is judged and kilned. -/
  | settleWindowEnd (ch : Ch)
  /-- R188: An SSI read completes and its word is checked and taken into tracking. -/
  | ssiWord (ch : Ch) (bits : List Bool) (t : Nat)
  /-- R181: An invalid Hall code has lasted beyond its time, raising F.HALL_INVALID. -/
  | hallInvalidTimeout (ch : Ch) (t : Nat)
  /-- R207: No Hall edge within the stop time sets the Hall velocity to zero. -/
  | hallStopTimeout (ch : Ch) (t : Nat)
  /-- R64: No packet of a client arrives within its timeout, so its session closes. -/
  | sessionTimeout (client : BitVec 8) (t : Nat)
  /-- R276: A hop entry fires one delay after its kilned crossing. -/
  | hopFireKilned (handle t : Nat)
  /-- R277: A hop entry fires on its green prediction when the error bound allows. -/
  | hopFireGreen (handle t : Nat)
  /-- R281: A hop entry's expiry passes before it fires, so it ends. -/
  | hopExpiry (handle t : Nat)
  /-- R279: A compare pulse ends and the output returns to inactive. -/
  | comparePulseEnd (out : Fin 8) (t : Nat)
  /-- R241: A green-fired entry is judged against kilned evidence at its predicted crossing. -/
  | firedEntryJudgement (handle t : Nat)
  /-- R245: A latch entry becomes readable once a kilned step follows its edge. -/
  | latchEntryReady (ch : Ch) (t : Nat)
  /-- R244: A 10 ms refutation, latch-loss or hop-mismatch window ends with a coalesced event. -/
  | eventWindowEnd (k : WindowKind) (ch : Ch) (t : Nat)
  /-- R502: A detector's verdict reaches the fault manager, which raises the fault and runs the class action. -/
  | faultVerdict (t : Nat)
  /-- R516: A 10 ms fault window ends with one EV.FAULT for its counted occurrences. -/
  | faultWindowEnd (code scope t : Nat)
  /-- R515: A log entry not written within 20 ms raises F.LOG_WRITE. -/
  | logWriteTimeout (t : Nat)
  /-- R364: An output at its current limit for the short time raises F.DAC_SHORT. -/
  | dacShortTimeout (ch : Ch) (t : Nat)
  /-- R364: A current output without compliance for the open time raises F.DAC_OPEN. -/
  | dacOpenTimeout (ch : Ch) (t : Nat)
  /-- R336: A rail outside an output's range limit for 1 ms raises F.SUPPLY. -/
  | supplyTimeout (ch : Ch) (t : Nat)
  /-- R286: Emulator lag beyond 64 counts for 1 ms raises F.EMU_RATE. -/
  | emuRateTimeout (ch : Ch) (t : Nat)
  /-- R307: A move arrives in position and its final reply is sent. -/
  | moveArrival (ch : Ch)
  /-- R322: A braking slot reaches zero velocity, completing a STOP, a disable or a DRIVE-to-TRACK change. -/
  | stopAtRest (ch : Ch)
  /-- R312: A jog's setpoint reaches the commanded velocity and its final reply is sent. -/
  | jogVelocityReached (ch : Ch)
  /-- R234: A kilned step at or after a requested future instant completes the waiting command. -/
  | extrapolateValueReady (slot : Nat)
  /-- R271: A kilned crossing of the target completes a waiting TIME_AT. -/
  | timeAtCrossing (slot : Nat)
  /-- R271: A TIME_AT's timeout passes without a crossing. -/
  | timeAtTimeout (slot t : Nat)
  /-- R215: The map learning collection ends and the map is installed or refused. -/
  | calibrateAngleLearnDone (ch : Ch)
  /-- R537: A waiting store write is read back equal, completing its command. -/
  | storeWriteDone (t : Nat)
  /-- R551: The image checks of a commit finish, setting the slot PENDING or refusing it. -/
  | fwCommitChecked (t : Nat)
  /-- R368: A finished round's results are published and judged at P4. -/
  | soundRoundPublish (x : RoundData)
  /-- R386: A fan's tach falls silent, so the attribution test starts. -/
  | tachSilent (fan : Fan) (t : Nat)
  /-- R391: The spin-up time passes and the start verdict is given. -/
  | fanStartJudgementEnd (fan : Fan) (t : Nat)
  /-- R390: A fan probe ends and the airflow drop decides whether the fan was turning. -/
  | fanProbeEnd (fan : Fan) (t : Nat)
  /-- R392: A 1 s full-duty kick of a blocked fan ends. -/
  | fanKickEnd (fan : Fan) (t : Nat)
  /-- R392: The 5 s pause after a failed kick ends. -/
  | fanPauseEnd (fan : Fan) (t : Nat)
  /-- R393: A silent fan is still silent after the stop time, raising F.FAN_STOPPED. -/
  | fanStoptimeExpiry (fan : Fan) (t : Nat)
  /-- R395: Low duct velocity with a running fan for the stop time raises F.DUCT_BLOCKED. -/
  | ductBlockedTimeout (fan : Fan) (t : Nat)
  /-- R378: Both tachs have been silent for 2 s, or the wait expires, and the collection begins or fails. -/
  | zeroFlowCalQuiet (t : Nat)
  /-- R379: The collection ends and the zero is set or the calibration ends CAL_UNSTABLE. -/
  | zeroFlowCalDone (t : Nat)
  /-- R353: A SCHEDULE playback loads its next sample at its instant. -/
  | waveSampleLoad (slot t : Nat)
  /-- R354: A TICK-timed playback writes its next sample into the input register at P2. -/
  | waveSampleEntry (slot : Nat)
  /-- R236: A HOP-triggered run starts at the first strobe after the kilned confirmation. -/
  | waveHopStart (slot t : Nat)
  /-- R355: A run of a playback ends and EV.WAVE_END is raised. -/
  | waveRunEnd (slot t : Nat)
  /-- R471: A lane bulk frame unacknowledged for 4 ticks is resent. -/
  | bulkResend (t : Nat)
  /-- R450: No CYC frame for the timeout count raises F.CYC_TIMEOUT with the line-loss action. -/
  | cycTimeout (t : Nat)
  /-- R449: At the next cycle start a link change is applied to the role and EV.TOPOLOGY is raised. -/
  | topologyChange (t : Nat)
  /-- R462: Once per second the node sends a beacon on each linked side-lane. -/
  | beaconSend (t : Nat)
  /-- R463: A complete shadow transfer passes its CRC and replaces the shadow. -/
  | shadowRefreshDone (q : LinePort) (t : Nat)
  /-- R465: The adopted shadow passes its CRC, is stored with the lock and the core restarts. -/
  | adoptionDone (t : Nat)
  /-- R466: A BLANK node in CASK adopts by itself from an eligible auto-adopting neighbour. -/
  | autoAdopt (q : LinePort) (t : Nat)
  /-- R453: At the next cycle start the fold begins with a survey from the head or tail head. -/
  | foldTakeEffect (t : Nat)
  /-- R459: At cycle c the freeze lifts, the tail head goes passive and the head surveys. -/
  | unfoldCycle (t : Nat)
  /-- R184: IN.SSIMONO passes after the last clock edge of an SSI read with SDATn still low, so the read just taken counts as a timeout. -/
  | ssiMonoflopTimeout (ch : Ch) (t : Nat)
  /-- R133: A slew brings the offset of the time in force below 5 ns and ends, and after a return under R147 the mark becomes LINE and EV.TIME_SOURCE is raised. -/
  | slewEnd (t : Nat)
  /-- R336: AVDDH or AVSS crosses the limit of an output's range, which starts or breaks the 1 ms F.SUPPLY timer and ends its condition on return. -/
  | railLimitCrossing (avddh avss : Int) (t : Nat)
  /-- R364: A voltage-range output driver enters or leaves its current limit, which updates DAC.STATUS bit 0, starts or breaks the F.DAC_SHORT timer and ends its condition. -/
  | currentLimitChange (ch : Ch) (on : Bool) (t : Nat)
  /-- R364: A current-range output loses or regains compliance, which updates DAC.STATUS bit 1, starts or breaks the F.DAC_OPEN timer and ends its condition. -/
  | complianceChange (ch : Ch) (lost : Bool) (t : Nat)
  /-- R17: VCEL becomes valid, so the cellar starts, reads its lock page and begins forwarding. -/
  | vcelValid
  /-- R580: VCEL is lost, so the cellar's transmitters fall silent and the core is held in reset. -/
  | vcelLost
  /-- R123: P3: tick strobes load outputs, deadlines are judged and phase A of the next tick begins. -/
  | outputInstant
  /-- R128: An accepted rate change takes effect, recomputing K48 and aborting scheduled commands. -/
  | tickRateChange
  /-- R134: The time in force steps to the corrected value at the next tick multiple and realigns the ticks. -/
  | timeStep
  /-- R152: At the next P0 after a line-time fault, crystal time is put in force without a step. -/
  | timeFallback
  /-- R120: After Steep and a lock outcome, the node moves to TRACK by itself. -/
  | autotrack
  /-- R448: The activation drain ends, dropping what is left and starting the activation Steep. -/
  | drainEnd
  /-- R368: A measuring round starts its ultrasonic shots and RTD discharges. -/
  | soundRoundStart
  /-- R475: No accepting forming answer by K_f − 4 ends TANDEM_FORM. -/
  | formAnswerDeadline
  /-- R476: At K_f − 2 each member rejudges its preconditions and sets its ready bit. -/
  | fusionReady
  /-- R476: At K_f both ready members enter TANDEM. -/
  | tandemFusion
  /-- R490: Two missing tick packets end the fusion and raise F.PARTNER_LOST. -/
  | partnerLoss
  /-- R495: Three ticks after the leaving bit both members enter TRACK. -/
  | splitComplete
  deriving DecidableEq, Repr

end Sys2Proof
end

