-- ==== Sys2Proof/Decode.lean ====
section
/-!
DEFINITION. The decoder over the rows of the opcode table that give bits. No row gives any, so no word spells a command:
commands reach the block as rows with operands. The bytes of command packets and frames are decoded in
Machine/Layout.lean, where the rows that carry bytes use them.
-/
namespace Sys2Proof

/-- The command that a word spells by the table's bits: none, since no row of the table has bits. -/
def decodeTableWord (_nbits _w : Nat) : Option Instr := none

end Sys2Proof
end

