-- ==== Sys2Proof/Machine/Operands.lean ====
section
/-!
DEFINITION. The operand forms: number formats, rounding, differences, byte order and checks
(00_scope.md R2 to R10, R617; 02_commands_and_clients.md R48, R50; 12_grenrus_line.md R407).
-/
namespace Sys2Proof.Machine

/-- Field `[hi:lo]` of a word, as a number. -/
def fld (w : Word) (hi lo : Nat) : Nat :=
  (w.toNat >>> lo) % 2 ^ (hi + 1 - lo)

/-- Bit `n` of a word. -/
def bitOf (w : Word) (n : Nat) : Bool := w.getLsbD n

/-- A word that holds the number `x` in its low bits (wrapping modulo 2^40, R7). -/
def wN (x : Nat) : Word := BitVec.ofNat 40 x

/-- A word that holds the signed number `x`, wrapping modulo 2^40 (P40 and CNT40, R7). -/
def wI (x : Int) : Word := BitVec.ofInt 40 x

/-- `1` for true, shifted to bit `n`. -/
def flag (b : Bool) (n : Nat) : Nat := if b then 2 ^ n else 0

/-- The nearest value of `[lo, hi]` (R9). -/
def clampI (lo hi x : Int) : Int := if x < lo then lo else if hi < x then hi else x

/-- A signed 40-bit result that does not wrap: the nearest end of the range (R9). -/
def satI (x : Int) : Word := wI (clampI (-(2 ^ 39)) (2 ^ 39 - 1) x)

/-- An unsigned 40-bit result that does not wrap (T40, R9). -/
def satU (x : Int) : Word := wI (clampI 0 (2 ^ 40 - 1) x)

/-- An 18-bit code, clamped (C18, R9, R300). -/
def satC18 (x : Int) : Nat := (clampI 0 262143 x).toNat

/-- `num / den` rounded to the nearest integer, ties away from zero (R10); `den` is positive. -/
def roundDiv (num den : Int) : Int :=
  if num < 0 then -((2 * (-num) + den) / (2 * den)) else (2 * num + den) / (2 * den)

/-- The signed difference of two P40 or CNT40 values, modulo 2^40 (R8). -/
def diff40 (a b : Word) : Int := (a - b).toInt

/-- The signed difference of two raw positions in au, or of two counts, modulo 2^40 (R8). -/
def diffAu (a b : Int) : Int := diff40 (wI a) (wI b)

/-- LT_HI of an LT64 value, with a time mark in [25:24] where the word carries one (R3, R56). -/
def ltHi (lt mark : Nat) : Word := wN ((lt / 2 ^ 40) % 2 ^ 24 + mark * 2 ^ 24)

/-- LT_LO of an LT64 value (R3). -/
def ltLo (lt : Nat) : Word := wN (lt % 2 ^ 40)

/-- An LT64 value from its two words (R3). -/
def ltOf (hi lo : Word) : Nat := fld hi 23 0 * 2 ^ 40 + lo.toNat

/-- The difference of two LT64 values, modulo 2^64 and unsigned (R617). -/
def ltSub (a b : Nat) : Nat := (a + (18446744073709551616 - b % 18446744073709551616)) % 18446744073709551616

/-- An instant of LT64 does not lie after another: their difference is below half the range of the counter (R617). -/
def ltLe (a b : Nat) : Bool := decide (ltSub b a < 9223372036854775808)

/-- The offset of one LT64 value from another, to either side (R133, R149, R617). -/
def ltDiff (a b : Nat) : Int := if ltLe b a then ltSub a b else -(ltSub b a : Int)

/-- An LT64 value as the counter holds it (R617). -/
def wrapLt (x : Int) : Nat := (x % 18446744073709551616).toNat

/-- A K48 value as the counter holds it (R617). -/
def wrapK (k : Nat) : Nat := k % 281474976710656

/-- The difference of two K48 values, modulo 2^48 and unsigned (R617). -/
def kSub (a b : Nat) : Nat := (a + (281474976710656 - b % 281474976710656)) % 281474976710656

/-- A tick does not lie after another: their difference is below half the range of the counter (R617). -/
def kLe (a b : Nat) : Bool := decide (kSub b a < 140737488355328)

/-- The later of two ticks (R617). -/
def kMax (a b : Nat) : Nat := if kLe a b then b else a

/-- K_HI and K_LO of a K48 value (R4). -/
def kHi (k : Nat) : Word := wN ((k / 2 ^ 40) % 2 ^ 8)
/-- See `kHi`. -/
def kLo (k : Nat) : Word := wN (k % 2 ^ 40)

/-- The `n` bytes of a number, most significant first (R48). -/
def bytesBE : Nat → Nat → List Byte
  | 0, _ => []
  | n + 1, x => BitVec.ofNat 8 (x / 256 ^ n) :: bytesBE n x

/-- The number that bytes spell, most significant first (R48). -/
def natBE (bs : List Byte) : Nat := bs.foldl (fun a b => a * 256 + b.toNat) 0

/-- The five bytes of a word (R48). -/
def wordBytes (w : Word) : List Byte := bytesBE 5 w.toNat

/-- Bytes gathered five to a word, the last padded with zero bytes (R545). `fuel` bounds the words. -/
def packWords : Nat → List Byte → List Word
  | 0, _ => []
  | _, [] => []
  | f + 1, bs => wN (natBE ((bs ++ List.replicate 5 0#8).take 5)) :: packWords f (bs.drop 5)

/-- One bit of CRC-16/CCITT-FALSE: polynomial 0x1021, no reflection (R50). -/
def crc16Bit (c : Nat) : Nat :=
  if c ≥ 32768 then ((2 * c) % 65536) ^^^ 0x1021 else 2 * c

/-- One byte of CRC-16/CCITT-FALSE (R50). -/
def crc16Byte (c : Nat) (b : Byte) : Nat :=
  let c := c ^^^ (b.toNat * 256)
  crc16Bit (crc16Bit (crc16Bit (crc16Bit (crc16Bit (crc16Bit (crc16Bit (crc16Bit c)))))))

/-- CRC-16/CCITT-FALSE of bytes: initial value 0xFFFF, no final XOR (R50). -/
def crc16 (bs : List Byte) : Nat := bs.foldl crc16Byte 0xFFFF

/-- One bit of CRC-32C with reflected polynomial 0x82F6_3B78 (0x1EDC_6F41 reflected, R407). -/
def crc32Bit (c : Nat) : Nat := if c % 2 = 1 then (c / 2) ^^^ 0x82F63B78 else c / 2

/-- One byte of CRC-32C (R407). -/
def crc32Byte (c : Nat) (b : Byte) : Nat :=
  let c := c ^^^ b.toNat
  crc32Bit (crc32Bit (crc32Bit (crc32Bit (crc32Bit (crc32Bit (crc32Bit (crc32Bit c)))))))

/-- CRC-32C of bytes: initial value 0xFFFF_FFFF, final XOR 0xFFFF_FFFF (R407). -/
def crc32c (bs : List Byte) : Nat := (bs.foldl crc32Byte 0xFFFFFFFF) ^^^ 0xFFFFFFFF

/-- Gray code to binary, most significant bits first, of a `w`-bit number (R187). -/
def grayToBin : Nat → Nat → Nat
  | 0, _ => 0
  | w + 1, g =>
    let hi := grayToBin w (g / 2)
    hi * 2 + (hi % 2 + g % 2) % 2

/-- The channels a mask names, in ascending order (R49). -/
def maskChs (m : Nat) : List Ch := [0, 1, 2, 3].filter fun c => m.testBit c.val

/-- The number of bits set among the low eight of a mask. -/
def maskCount (m : Nat) : Nat := ((List.range 8).filter fun i => m.testBit i).length

/-- `⌈a / b⌉` for naturals. -/
def ceilDiv (a b : Nat) : Nat := (a + b - 1) / b

/-- The median of a list of integers (the lower of the two middle values of an even number). -/
def insertSorted (x : Int) : List Int → List Int
  | [] => [x]
  | y :: ys => if x ≤ y then x :: y :: ys else y :: insertSorted x ys

/-- A list of integers in ascending order. -/
def sortInts (xs : List Int) : List Int := xs.foldr insertSorted []

/-- Replaces element `i` of a list; nothing where the list is shorter. -/
def listSet {α : Type} : List α → Nat → α → List α
  | [], _, _ => []
  | _ :: xs, 0, y => y :: xs
  | x :: xs, n + 1, y => x :: listSet xs n y

/-- The last `n` elements of a list. -/
def lastN {α : Type} (n : Nat) (xs : List α) : List α := xs.drop (xs.length - n)

end Sys2Proof.Machine
end

