-- ==== Sys2Proof/Machine/Crypto.lean ====
section
/-!
DEFINITION. AES-128 and AES-CMAC (NIST SP 800-38B), by which the MAC of R67 is formed. Blocks are lists of 16 bytes as
naturals.
-/
namespace Sys2Proof.Machine

/-- Doubling in GF(2^8) with the AES polynomial. -/
def gfDouble (x : Nat) : Nat := if 128 ≤ x then ((2 * x) % 256) ^^^ 0x1B else 2 * x

/-- Multiplication in GF(2^8), by the bits of the second factor. -/
def gfMulLoop : Nat → Nat → Nat → Nat → Nat
  | 0, _, _, acc => acc
  | f + 1, a, b, acc => gfMulLoop f (gfDouble a) (b / 2) (if b % 2 = 1 then acc ^^^ a else acc)

/-- The product in GF(2^8). -/
def gfMul (a b : Nat) : Nat := gfMulLoop 8 a b 0

/-- The inverse in GF(2^8), x^254; 0 for 0. -/
def gfInv (x : Nat) : Nat :=
  let x2 := gfMul x x
  let x4 := gfMul x2 x2
  let x8 := gfMul x4 x4
  let x16 := gfMul x8 x8
  let x32 := gfMul x16 x16
  let x64 := gfMul x32 x32
  let x128 := gfMul x64 x64
  gfMul x2 (gfMul x4 (gfMul x8 (gfMul x16 (gfMul x32 (gfMul x64 x128)))))

/-- Rotates a byte left by `n`. -/
def rotl8 (n x : Nat) : Nat := (x * 2 ^ n) % 256 + x / 2 ^ (8 - n)

/-- The AES S-box. -/
def sbox (x : Nat) : Nat :=
  let y := gfInv x
  y ^^^ rotl8 1 y ^^^ rotl8 2 y ^^^ rotl8 3 y ^^^ rotl8 4 y ^^^ 0x63

/-- Bytewise exclusive or. -/
def xorBytes (a b : List Nat) : List Nat := a.zipWith (· ^^^ ·) b

/-- The round key after `k` with round constant `rc`. -/
def nextKey (rc : Nat) (k : List Nat) : List Nat :=
  let t := [sbox (k.getD 13 0) ^^^ rc, sbox (k.getD 14 0), sbox (k.getD 15 0), sbox (k.getD 12 0)]
  let w0 := xorBytes (k.take 4) t
  let w1 := xorBytes ((k.drop 4).take 4) w0
  let w2 := xorBytes ((k.drop 8).take 4) w1
  w0 ++ w1 ++ w2 ++ xorBytes ((k.drop 12).take 4) w2

/-- SubBytes and ShiftRows: byte (r, c) comes from column c + r. -/
def subShift (s : List Nat) : List Nat := (List.range 16).map fun i => sbox (s.getD ((i + 4 * (i % 4)) % 16) 0)

/-- One column of MixColumns. -/
def mixCol (a b c d : Nat) : List Nat :=
  [gfDouble a ^^^ gfDouble b ^^^ b ^^^ c ^^^ d, a ^^^ gfDouble b ^^^ gfDouble c ^^^ c ^^^ d,
   a ^^^ b ^^^ gfDouble c ^^^ gfDouble d ^^^ d, gfDouble a ^^^ a ^^^ b ^^^ c ^^^ gfDouble d]

/-- MixColumns. -/
def mixCols (s : List Nat) : List Nat :=
  (List.range 4).flatMap fun c => mixCol (s.getD (4 * c) 0) (s.getD (4 * c + 1) 0) (s.getD (4 * c + 2) 0) (s.getD (4 * c + 3) 0)

/-- The rounds of AES-128 after the first key addition. -/
def aesRounds : Nat → Nat → List Nat → List Nat → List Nat
  | 0, _, _, s => s
  | f + 1, rc, k, s =>
    let k := nextKey rc k
    let s := subShift s
    aesRounds f (gfDouble rc) k (xorBytes (if f = 0 then s else mixCols s) k)

/-- AES-128 of one block. -/
def aes128 (key block : List Nat) : List Nat := aesRounds 10 1 key (xorBytes block key)

/-- Doubling in GF(2^128) of a block as a number (the subkeys of CMAC). -/
def cmacDouble (x : Nat) : Nat :=
  if 2 ^ 127 ≤ x then ((2 * x) % 2 ^ 128) ^^^ 0x87 else 2 * x

/-- A number as 16 bytes, most significant first. -/
def block128 (x : Nat) : List Nat := (bytesBE 16 x).map BitVec.toNat

/-- A block as a number. -/
def blockNat (b : List Nat) : Nat := b.foldl (fun a x => a * 256 + x) 0

/-- The chaining of CMAC over the message, with the subkeys K1 and K2. -/
def cmacLoop (key k1 k2 : List Nat) : Nat → List Nat → List Nat → List Nat
  | 0, _, x => x
  | f + 1, m, x =>
    if m.length ≤ 16 then
      let last := if m.length = 16 then xorBytes m k1
        else xorBytes ((m ++ [0x80] ++ List.replicate 16 0).take 16) k2
      aes128 key (xorBytes x last)
    else cmacLoop key k1 k2 f (m.drop 16) (aes128 key (xorBytes x (m.take 16)))

/-- AES-CMAC of bytes under a 128-bit key, as a number. -/
def aesCmac (key : BitVec 128) (msg : List Byte) : Nat :=
  let k := block128 key.toNat
  let l := blockNat (aes128 k (List.replicate 16 0))
  let k1 := cmacDouble l
  blockNat (cmacLoop k (block128 k1) (block128 (cmacDouble k1)) (msg.length / 16 + 1) (msg.map BitVec.toNat) (List.replicate 16 0))

end Sys2Proof.Machine
end

