-- ==== Sys2Proof/Config.lean ====
section
/-!
DEFINITION. What an implementation fixes and the values the spec leaves open. An opaque constant has no body: nothing
proves a value of it, so a claim holds for every value. Each is named in a log entry.
-/
namespace Sys2Proof

/-- The silicon revision code of DESCRIBE and of an image header (R47, R546): DESIGN CHOICE, log entry 8. -/
def Config.silicon : Nat := 1

/-- A value the spec leaves open, drawn freshly for each number of draws made (log entry 1). -/
opaque Config.freeNat : Nat → Nat

/-- The fresh session nonce of each draw (R61, log entry 9). -/
opaque Config.nonce : Nat → BitVec 64

/-- Which free pool slot an operation takes (R78, R273): drawn freshly for each operation, by its order number and, for the
entries of a HOP_ADD, the number of the entry (log entry 14). -/
opaque Config.slotPick : Nat → Nat → Nat

/-- Which free handle an armed pitch point takes (R530): drawn freshly for each command (log entry 14). -/
opaque Config.handlePick : Nat → Nat

/-- The context word of a fault for which the spec states none, by fault code, scope and elapsed instant (R519, R520, log
entry 15). -/
opaque Config.faultContext : Nat → Nat → Nat → Nat

/-- Whether an image's ECDSA P-256 signature verifies under the key in ROM, which the spec does not give (R546): a
function of the image's length and bytes (log entry 10). -/
opaque Config.signatureOk : Nat → List (Nat × BitVec 8) → Bool

/-- The address of the core SRAM test word, fixed for each firmware version (R521, log entry 11). -/
opaque Config.sramTestWord : Nat → BitVec 32

/-- A byte of a store region whose byte layout the spec does not give, by region and offset and by draw (R535, R545, log
entry 12): shadow headers, wave descriptors and samples, fault log places, page bytes with no field. -/
opaque Config.storeByte : Nat → Nat → Nat → BitVec 8

end Sys2Proof
end

