-- ==== Sys2Proof/Machine/FixMath.lean ====
section
/-!
DEFINITION. Fixed-point arithmetic of the internal datapath. The spec says only that the datapath is wider than
40 bits (00_scope.md, Corners) and that the integrators and setpoints hold 80 bits (R298, R305). The model holds such
values as integers in units of 2^-64 (16.64, 80 bits). DESIGN CHOICE (log entry 5): this width and the last-place
rounding of sine, cosine, arctangent and square root.
-/
namespace Sys2Proof.Machine

/-- One, in units of 2^-64. -/
def fxOne : Int := 18446744073709551616

/-- The product of two fixed-point numbers. -/
def fxMul (a b : Int) : Int := (a * b) / fxOne

/-- The quotient of two fixed-point numbers; 0 where the divisor is 0 (no rule divides by it). -/
def fxDiv (a b : Int) : Int := if b = 0 then 0 else (a * fxOne) / b

/-- A rational number as a fixed-point number. -/
def fxRat (n d : Int) : Int := (n * fxOne) / d

/-- `2π` in fixed point. -/
def fxTwoPi : Int := 115904311329233965478

/-- `√2` in fixed point. -/
def fxSqrt2 : Int := 26087635650665564424

/-- Bitwise integer square root: `b` runs through the bits from high to low. -/
def isqrtLoop (n : Nat) : Nat → Nat → Nat
  | 0, r => if (r + 1) * (r + 1) ≤ n then r + 1 else r
  | b + 1, r =>
    let t := r + 2 ^ (b + 1)
    isqrtLoop n b (if t * t ≤ n then t else r)

/-- `⌊√n⌋`. -/
def isqrt (n : Nat) : Nat := isqrtLoop n (n.log2 / 2 + 1) 0

/-- The square root of a fixed-point number; 0 for a negative one. -/
def fxSqrt (x : Int) : Int := (isqrt (x.toNat * 18446744073709551616) : Nat)

/-- Horner evaluation of the series `1 - t/(k(k+1)) (1 - ...)`, `t` the squared angle, `k` the first factor. -/
def fxTrigSeries (t : Int) : Nat → Int → Int
  | 0, _ => fxOne
  | n + 1, k => fxOne - fxMul t (fxTrigSeries t n (k + 2)) / (k * (k + 1))

/-- Sine of an angle of at most a quarter turn, in turns. -/
def fxSinQ (q : Int) : Int :=
  let x := fxMul fxTwoPi q
  fxMul x (fxTrigSeries (fxMul x x) 14 2)

/-- The part of a turn, in [0, 1). -/
def fxFrac (a : Int) : Int := a % fxOne

/-- `sin 2πa` of an angle in turns. -/
def fxSin (a : Int) : Int :=
  let f := fxFrac a
  let q := fxOne / 4
  if f ≤ q then fxSinQ f
  else if f ≤ 3 * q then fxSinQ (2 * q - f)
  else fxSinQ (f - fxOne)

/-- `cos 2πa` of an angle in turns. -/
def fxCos (a : Int) : Int := fxSin (a + fxOne / 4)

/-- Horner evaluation of the arctangent series of a small argument with square `t`. -/
def fxAtanSeries (t : Int) : Nat → Int → Int
  | 0, k => fxOne / k
  | n + 1, k => fxOne / k - fxMul t (fxAtanSeries t n (k + 2))

/-- Halves the angle of a tangent. -/
def fxHalfAngle (x : Int) : Int := fxDiv x (fxOne + fxSqrt (fxOne + fxMul x x))

/-- Arctangent of `x` in [0, 1], in turns. -/
def fxAtanUnit (x : Int) : Int :=
  let y := fxHalfAngle (fxHalfAngle (fxHalfAngle x))
  fxDiv (8 * fxMul y (fxAtanSeries (fxMul y y) 12 1)) fxTwoPi

/-- `atan2(s, c) / 2π` in turns, in (-½, ½]; 0 where both are 0. -/
def fxAtan2 (s c : Int) : Int :=
  let sa : Int := s.natAbs
  let ca : Int := c.natAbs
  let a := if sa = 0 ∧ ca = 0 then 0
    else if sa ≤ ca then fxAtanUnit (fxDiv sa ca)
    else fxOne / 4 - fxAtanUnit (fxDiv ca sa)
  let a := if c < 0 then fxOne / 2 - a else a
  if s < 0 then -a else a

/-- A fixed-point number of turns in au, rounded under R10. -/
def fxToAu (x : Int) : Int := roundDiv x 1099511627776

/-- A difference of two positions in fx turns, modulo the 65,536 turns of P40 and read as signed (R8). -/
def wrapTurns (d : Int) : Int := (d + 32768 * fxOne) % (65536 * fxOne) - 32768 * fxOne

/-- A number of au as a fixed-point number of turns. -/
def auToFx (x : Int) : Int := x * 1099511627776

/-- A G40 value (2^-32) as a fixed-point number. -/
def g40ToFx (w : Word) : Int := w.toInt * 4294967296

/-- A fixed-point number as M40 or J40 (2^-16), rounded under R10 and clamped under R9. -/
def fxToM40 (x : Int) : Word := satI (roundDiv x 281474976710656)

/-- An M40 or J40 value as a fixed-point number. -/
def m40ToFx (w : Word) : Int := w.toInt * 281474976710656

/-- An A40 value (2^-20) as a fixed-point number. -/
def a40ToFx (w : Word) : Int := w.toInt * 17592186044416

/-- A P40 or V40 value (2^-24) as a fixed-point number. -/
def p40ToFx (w : Word) : Int := auToFx w.toInt

/-- A fixed-point velocity as V40 (R9, R10). -/
def fxToV40 (x : Int) : Word := satI (fxToAu x)

/-- A fixed-point number of turns as P40, wrapping (R7, R10). -/
def fxToP40 (x : Int) : Word := wI (fxToAu x)

/-- A fixed-point number as G40 (R9, R10). -/
def fxToG40 (x : Int) : Word := satI (roundDiv x 4294967296)

end Sys2Proof.Machine
end

