-- ==== Sys2Proof/Machine/ParamTable.lean ====
section
/-!
DEFINITION. The parameter items: IDs, instances, fixed ranges, After Steep values and Write rules, as the chapters'
tables give them (R80, R121, R153, R192, R226, R238, R290, R330, R366, R399, R440, R468, R497, R534, R556, R598).
A range whose ends depend on other items is given by its outer ends; the dependent check is made at commit (R571).
-/
namespace Sys2Proof.Machine

/-- When an item may be written (R129, R192, R330): at any time, in CASK, in CASK or TRACK, while its slot is idle, never. -/
inductive WriteRule where
  | any
  | cask
  | caskTrack
  | idle
  | readOnly
  deriving DecidableEq, Repr

/-- The fixed range of an item, over its value read as a signed number. -/
inductive Range where
  | none
  | range (lo hi step : Int)
  | oneOf (xs : List Int)
  | zeroOr (lo hi : Int)
  | nonzero (lo hi : Int)
  deriving DecidableEq, Repr

/-- Whether a value lies in a range. -/
def Range.ok : Range → Int → Bool
  | .none, _ => false
  | .range lo hi step, v => decide (lo ≤ v) && decide (v ≤ hi) && decide (v % step = 0)
  | .oneOf xs, v => xs.contains v
  | .zeroOr lo hi, v => decide (v = 0) || (decide (lo ≤ v) && decide (v ≤ hi))
  | .nonzero lo hi, v => decide (v ≠ 0) && decide (lo ≤ v) && decide (v ≤ hi)

/-- An item: its ID on instance 0, its number of instances, range, After Steep value and Write rule. -/
structure ParamDesc where
  id : Nat
  count : Nat
  range : Range
  dflt : Int
  write : WriteRule
  deriving DecidableEq, Repr

/-- `NODE.AUTOTRACK` -/
def Pid.nodeAutotrack : Nat := 0x0401
/-- `NODE.CASKEXC` -/
def Pid.nodeCaskexc : Nat := 0x0402
/-- `NODE.DRAIN` -/
def Pid.nodeDrain : Nat := 0x0403
/-- `NODE.PITCHDRIVE` -/
def Pid.nodePitchdrive : Nat := 0x0404
/-- `NODE.CFGFIX` -/
def Pid.nodeCfgfix : Nat := 0x0405
/-- `TICK.RATE` -/
def Pid.tickRate : Nat := 0x0801
/-- `TICK.OUTAT` -/
def Pid.tickOutat : Nat := 0x0802
/-- `TICK.SYNCMODE` -/
def Pid.tickSyncmode : Nat := 0x0803
/-- `TICK.SYNCDLY` -/
def Pid.tickSyncdly : Nat := 0x0804
/-- `TICK.SYNCOUTDIV` -/
def Pid.tickSyncoutdiv : Nat := 0x0805
/-- `TICK.SYNCOUTW` -/
def Pid.tickSyncoutw : Nat := 0x0806
/-- `REF.ACTION` -/
def Pid.refAction : Nat := 0x0C01
/-- `REF.DEVA` -/
def Pid.refDeva : Nat := 0x0C02
/-- `REF.DEVB` -/
def Pid.refDevb : Nat := 0x0C03
/-- `REF.DEVAB` -/
def Pid.refDevab : Nat := 0x0C04
/-- `REF.TSEL` -/
def Pid.refTsel : Nat := 0x0C10
/-- `REF.TSWITCH` -/
def Pid.refTswitch : Nat := 0x0C11
/-- `REF.THOLD` -/
def Pid.refThold : Nat := 0x0C12
/-- `REF.TDEPENDS` -/
def Pid.refTdepends : Nat := 0x0C13
/-- `EXC.FREQ` -/
def Pid.excFreq : Nat := 0x1001
/-- `EXC.AMPL` -/
def Pid.excAmpl : Nat := 0x1002
/-- `EXC.BUFFER` -/
def Pid.excBuffer : Nat := 0x1003
/-- `EXC.BUFGAIN` -/
def Pid.excBufgain : Nat := 0x1004
/-- `EXC.PHMODE` -/
def Pid.excPhmode : Nat := 0x1005
/-- `EXC.PHFIX` -/
def Pid.excPhfix : Nat := 0x1006
/-- `EXC.PHEXP` -/
def Pid.excPhexp : Nat := 0x1007
/-- `EXC.PHASE` -/
def Pid.excPhase : Nat := 0x1008
/-- `EXC.PHTOL` -/
def Pid.excPhtol : Nat := 0x1009
/-- `EXC.PHTIME` -/
def Pid.excPhtime : Nat := 0x100A
/-- `EXC.PHRATE` -/
def Pid.excPhrate : Nat := 0x100B
/-- `EXC.OPENLVL` -/
def Pid.excOpenlvl : Nat := 0x100C
/-- `EXC.OCTIME` -/
def Pid.excOctime : Nat := 0x100D
/-- `IN.MODE` -/
def Pid.inMode : Nat := 0x1401
/-- `IN.PGA` -/
def Pid.inPga : Nat := 0x1402
/-- `IN.NOMAMP` -/
def Pid.inNomamp : Nat := 0x1403
/-- `IN.DIR` -/
def Pid.inDir : Nat := 0x1404
/-- `IN.LINES` -/
def Pid.inLines : Nat := 0x1410
/-- `IN.IDXGATE` -/
def Pid.inIdxgate : Nat := 0x1411
/-- `IN.POLES` -/
def Pid.inPoles : Nat := 0x1420
/-- `IN.HALLOFS` -/
def Pid.inHallofs : Nat := 0x1421
/-- `IN.HALLFLT` -/
def Pid.inHallflt : Nat := 0x1422
/-- `IN.HALLINV` -/
def Pid.inHallinv : Nat := 0x1423
/-- `IN.SSICLK` -/
def Pid.inSsiclk : Nat := 0x1430
/-- `IN.SSIBITS` -/
def Pid.inSsibits : Nat := 0x1431
/-- `IN.SSIPOS` -/
def Pid.inSsipos : Nat := 0x1432
/-- `IN.SSIPOSW` -/
def Pid.inSsiposw : Nat := 0x1433
/-- `IN.SSIST` -/
def Pid.inSsist : Nat := 0x1434
/-- `IN.SSICODE` -/
def Pid.inSsicode : Nat := 0x1435
/-- `IN.SSICRCW` -/
def Pid.inSsicrcw : Nat := 0x1436
/-- `IN.SSICRCPOLY` -/
def Pid.inSsicrcpoly : Nat := 0x1437
/-- `IN.SSICRCINIT` -/
def Pid.inSsicrcinit : Nat := 0x1438
/-- `IN.SSICRCINV` -/
def Pid.inSsicrcinv : Nat := 0x1439
/-- `IN.SSICRCPOS` -/
def Pid.inSsicrcpos : Nat := 0x143A
/-- `IN.SSIERRPOS` -/
def Pid.inSsierrpos : Nat := 0x143B
/-- `IN.SSIERRPOL` -/
def Pid.inSsierrpol : Nat := 0x143C
/-- `IN.SSIMONO` -/
def Pid.inSsimono : Nat := 0x143D
/-- `IN.SSIDLY` -/
def Pid.inSsidly : Nat := 0x143E
/-- `IN.SSIMISS` -/
def Pid.inSsimiss : Nat := 0x143F
/-- `IN.SSIERRCNT` -/
def Pid.inSsierrcnt : Nat := 0x1440
/-- `TRK.BW` -/
def Pid.trkBw : Nat := 0x1801
/-- `TRK.ZETA` -/
def Pid.trkZeta : Nat := 0x1802
/-- `TRK.LOSLVL` -/
def Pid.trkLoslvl : Nat := 0x1803
/-- `TRK.LOSTIME` -/
def Pid.trkLostime : Nat := 0x1804
/-- `TRK.DOSLVL` -/
def Pid.trkDoslvl : Nat := 0x1805
/-- `TRK.DOSTIME` -/
def Pid.trkDostime : Nat := 0x1806
/-- `TRK.LOTERR` -/
def Pid.trkLoterr : Nat := 0x1807
/-- `TRK.REFUTE` -/
def Pid.trkRefute : Nat := 0x1808
/-- `TRK.MAPEN` -/
def Pid.trkMapen : Nat := 0x1809
/-- `TRK.CALREVS` -/
def Pid.trkCalrevs : Nat := 0x180A
/-- `TRK.HALLSTOP` -/
def Pid.trkHallstop : Nat := 0x180B
/-- `TRK.ERR` -/
def Pid.trkErr : Nat := 0x1810
/-- `TRK.AMPL` -/
def Pid.trkAmpl : Nat := 0x1811
/-- `TRK.GBOUND` -/
def Pid.trkGbound : Nat := 0x1812
/-- `POS.OFFSET` -/
def Pid.posOffset : Nat := 0x1C01
/-- `POS.IDXEN` -/
def Pid.posIdxen : Nat := 0x1C02
/-- `POS.IDXTOL` -/
def Pid.posIdxtol : Nat := 0x1C03
/-- `POS.IDXCNT` -/
def Pid.posIdxcnt : Nat := 0x1C10
/-- `POS.IDXPOS` -/
def Pid.posIdxpos : Nat := 0x1C11
/-- `POS.IDXNUM` -/
def Pid.posIdxnum : Nat := 0x1C12
/-- `POS.IDXERR` -/
def Pid.posIdxerr : Nat := 0x1C13
/-- `LAT.FILTA` -/
def Pid.latFilta : Nat := 0x2001
/-- `LAT.FILTB` -/
def Pid.latFiltb : Nat := 0x2002
/-- `LAT.FILTI` -/
def Pid.latFilti : Nat := 0x2003
/-- `LAT.OVF` -/
def Pid.latOvf : Nat := 0x2004
/-- `LAT.IDXFIFO` -/
def Pid.latIdxfifo : Nat := 0x2005
/-- `LAT.FILL` -/
def Pid.latFill : Nat := 0x2010
/-- `LAT.LOST` -/
def Pid.latLost : Nat := 0x2011
/-- `LAT.REJECT` -/
def Pid.latReject : Nat := 0x2012
/-- `HOP.GREEN` -/
def Pid.hopGreen : Nat := 0x2401
/-- `HOP.GREENBND` -/
def Pid.hopGreenbnd : Nat := 0x2402
/-- `HOP.CMPPOL` -/
def Pid.hopCmppol : Nat := 0x2403
/-- `HOP.ARMED` -/
def Pid.hopArmed : Nat := 0x2410
/-- `EMU.EN` -/
def Pid.emuEn : Nat := 0x2801
/-- `EMU.SRC` -/
def Pid.emuSrc : Nat := 0x2802
/-- `EMU.N` -/
def Pid.emuN : Nat := 0x2803
/-- `EMU.M` -/
def Pid.emuM : Nat := 0x2804
/-- `EMU.ZMODE` -/
def Pid.emuZmode : Nat := 0x2805
/-- `EMU.ZPERIOD` -/
def Pid.emuZperiod : Nat := 0x2806
/-- `EMU.ZPHASE` -/
def Pid.emuZphase : Nat := 0x2807
/-- `EMU.SWAP` -/
def Pid.emuSwap : Nat := 0x2808
/-- `EMU.CASKZ` -/
def Pid.emuCaskz : Nat := 0x2809
/-- `CTL.KIND` -/
def Pid.ctlKind : Nat := 0x2C01
/-- `CTL.OUTDIV` -/
def Pid.ctlOutdiv : Nat := 0x2C02
/-- `CTL.OUTPHASE` -/
def Pid.ctlOutphase : Nat := 0x2C03
/-- `CTL.KPP` -/
def Pid.ctlKpp : Nat := 0x2C04
/-- `CTL.KIP` -/
def Pid.ctlKip : Nat := 0x2C05
/-- `CTL.KPV` -/
def Pid.ctlKpv : Nat := 0x2C06
/-- `CTL.KIV` -/
def Pid.ctlKiv : Nat := 0x2C07
/-- `CTL.VCLAMP` -/
def Pid.ctlVclamp : Nat := 0x2C08
/-- `CTL.YMIN` -/
def Pid.ctlYmin : Nat := 0x2C09
/-- `CTL.YMAX` -/
def Pid.ctlYmax : Nat := 0x2C0A
/-- `CTL.OUTZERO` -/
def Pid.ctlOutzero : Nat := 0x2C0B
/-- `CTL.OUTSPAN` -/
def Pid.ctlOutspan : Nat := 0x2C0C
/-- `CTL.FERRMAX` -/
def Pid.ctlFerrmax : Nat := 0x2C0D
/-- `CTL.VERRMAX` -/
def Pid.ctlVerrmax : Nat := 0x2C0E
/-- `CTL.FERRTIME` -/
def Pid.ctlFerrtime : Nat := 0x2C0F
/-- `CTL.INPOS` -/
def Pid.ctlInpos : Nat := 0x2C10
/-- `CTL.INPOSTIME` -/
def Pid.ctlInpostime : Nat := 0x2C11
/-- `CTL.MISSMAX` -/
def Pid.ctlMissmax : Nat := 0x2C12
/-- `CTL.LEADER` -/
def Pid.ctlLeader : Nat := 0x2C20
/-- `CTL.RATIO` -/
def Pid.ctlRatio : Nat := 0x2C21
/-- `CTL.STATE` -/
def Pid.ctlState : Nat := 0x2C22
/-- `CTL.MISSES` -/
def Pid.ctlMisses : Nat := 0x2C23
/-- `CTL.FERR` -/
def Pid.ctlFerr : Nat := 0x2C24
/-- `CTL.Y` -/
def Pid.ctlY : Nat := 0x2C25
/-- `CTL.WORST` -/
def Pid.ctlWorst : Nat := 0x2C30
/-- `CTL.BUDGET` -/
def Pid.ctlBudget : Nat := 0x2C31
/-- `PRF.SHAPE` -/
def Pid.prfShape : Nat := 0x3001
/-- `PRF.VMAX` -/
def Pid.prfVmax : Nat := 0x3002
/-- `PRF.AMAX` -/
def Pid.prfAmax : Nat := 0x3003
/-- `PRF.DMAX` -/
def Pid.prfDmax : Nat := 0x3004
/-- `PRF.JMAX` -/
def Pid.prfJmax : Nat := 0x3005
/-- `PRF.AXIS` -/
def Pid.prfAxis : Nat := 0x3006
/-- `PRF.MODULUS` -/
def Pid.prfModulus : Nat := 0x3007
/-- `PRF.ONEWAY` -/
def Pid.prfOneway : Nat := 0x3008
/-- `PRF.PASSACT` -/
def Pid.prfPassact : Nat := 0x3009
/-- `PRF.SHORTEST` -/
def Pid.prfShortest : Nat := 0x300A
/-- `PRF.LAPPOS` -/
def Pid.prfLappos : Nat := 0x3010
/-- `PRF.SETPOS` -/
def Pid.prfSetpos : Nat := 0x3011
/-- `PRF.SETVEL` -/
def Pid.prfSetvel : Nat := 0x3012
/-- `PRF.TARGET` -/
def Pid.prfTarget : Nat := 0x3013
/-- `DAC.RANGE` -/
def Pid.dacRange : Nat := 0x3401
/-- `DAC.REF` -/
def Pid.dacRef : Nat := 0x3402
/-- `DAC.SRC` -/
def Pid.dacSrc : Nat := 0x3403
/-- `DAC.GROUP` -/
def Pid.dacGroup : Nat := 0x3404
/-- `DAC.CLREN` -/
def Pid.dacClren : Nat := 0x3405
/-- `DAC.CLRCODE` -/
def Pid.dacClrcode : Nat := 0x3406
/-- `DAC.SHORTACT` -/
def Pid.dacShortact : Nat := 0x3407
/-- `DAC.SHORTTIME` -/
def Pid.dacShorttime : Nat := 0x3408
/-- `DAC.OPENTIME` -/
def Pid.dacOpentime : Nat := 0x3409
/-- `DAC.STBA` -/
def Pid.dacStba : Nat := 0x340A
/-- `DAC.STBB` -/
def Pid.dacStbb : Nat := 0x340B
/-- `DAC.GAIN` -/
def Pid.dacGain : Nat := 0x3410
/-- `DAC.INREG` -/
def Pid.dacInreg : Nat := 0x3411
/-- `DAC.CODE` -/
def Pid.dacCode : Nat := 0x3412
/-- `DAC.MEAS` -/
def Pid.dacMeas : Nat := 0x3413
/-- `DAC.STATUS` -/
def Pid.dacStatus : Nat := 0x3414
/-- `DAC.LDACIGN` -/
def Pid.dacLdacign : Nat := 0x3415
/-- `WAV.FREE` -/
def Pid.wavFree : Nat := 0x3801
/-- `WAV.PERSIST` -/
def Pid.wavPersist : Nat := 0x3802
/-- `WAV.BASE0` -/
def Pid.wavBase0 : Nat := 0x3810
/-- `WAV.LEN0` -/
def Pid.wavLen0 : Nat := 0x3820
/-- `WAV.STATE0` -/
def Pid.wavState0 : Nat := 0x3830
/-- `SND.PATHS` -/
def Pid.sndPaths : Nat := 0x3C01
/-- `SND.ROUND` -/
def Pid.sndRound : Nat := 0x3C02
/-- `SND.C0` -/
def Pid.sndC0 : Nat := 0x3C03
/-- `SND.HOTLIM` -/
def Pid.sndHotlim : Nat := 0x3C04
/-- `SND.CTOL` -/
def Pid.sndCtol : Nat := 0x3C05
/-- `SND.CMIN` -/
def Pid.sndCmin : Nat := 0x3C06
/-- `SND.CMAX` -/
def Pid.sndCmax : Nat := 0x3C07
/-- `SND.AIRRTD` -/
def Pid.sndAirrtd : Nat := 0x3C08
/-- `SND.MEDROUNDS` -/
def Pid.sndMedrounds : Nat := 0x3C09
/-- `SND.CALWAIT` -/
def Pid.sndCalwait : Nat := 0x3C0A
/-- `SND.CALN` -/
def Pid.sndCaln : Nat := 0x3C0B
/-- `SND.LEN` -/
def Pid.sndLen : Nat := 0x3C20
/-- `SND.ANGLE` -/
def Pid.sndAngle : Nat := 0x3C21
/-- `SND.KPROF` -/
def Pid.sndKprof : Nat := 0x3C22
/-- `SND.FREQ` -/
def Pid.sndFreq : Nat := 0x3C23
/-- `SND.PULSES` -/
def Pid.sndPulses : Nat := 0x3C24
/-- `SND.SHOTS` -/
def Pid.sndShots : Nat := 0x3C25
/-- `SND.SHOTGAP` -/
def Pid.sndShotgap : Nat := 0x3C26
/-- `SND.TDEL` -/
def Pid.sndTdel : Nat := 0x3C27
/-- `SND.AMPMIN` -/
def Pid.sndAmpmin : Nat := 0x3C28
/-- `SND.ZERO` -/
def Pid.sndZero : Nat := 0x3C29
/-- `RTD.EN` -/
def Pid.rtdEn : Nat := 0x4001
/-- `RTD.TYPE` -/
def Pid.rtdType : Nat := 0x4002
/-- `RTD.RREF` -/
def Pid.rtdRref : Nat := 0x4003
/-- `RTD.CHAN` -/
def Pid.rtdChan : Nat := 0x4004
/-- `RTD.WARN` -/
def Pid.rtdWarn : Nat := 0x4005
/-- `RTD.TRIP` -/
def Pid.rtdTrip : Nat := 0x4006
/-- `RTD.TEMP` -/
def Pid.rtdTemp : Nat := 0x4010
/-- `RTD.RES` -/
def Pid.rtdRes : Nat := 0x4011
/-- `FAN.SRC` -/
def Pid.fanSrc : Nat := 0x4401
/-- `FAN.DUTY` -/
def Pid.fanDuty : Nat := 0x4402
/-- `FAN.CASKDUTY` -/
def Pid.fanCaskduty : Nat := 0x4403
/-- `FAN.MINDUTY` -/
def Pid.fanMinduty : Nat := 0x4404
/-- `FAN.PPR` -/
def Pid.fanPpr : Nat := 0x4405
/-- `FAN.RPMMIN` -/
def Pid.fanRpmmin : Nat := 0x4406
/-- `FAN.RPMMAX` -/
def Pid.fanRpmmax : Nat := 0x4407
/-- `FAN.CRTD` -/
def Pid.fanCrtd : Nat := 0x4408
/-- `FAN.TLO` -/
def Pid.fanTlo : Nat := 0x4409
/-- `FAN.THI` -/
def Pid.fanThi : Nat := 0x440A
/-- `FAN.DLO` -/
def Pid.fanDlo : Nat := 0x440B
/-- `FAN.DHI` -/
def Pid.fanDhi : Nat := 0x440C
/-- `FAN.VSET` -/
def Pid.fanVset : Nat := 0x440D
/-- `FAN.KPA` -/
def Pid.fanKpa : Nat := 0x440E
/-- `FAN.KIA` -/
def Pid.fanKia : Nat := 0x440F
/-- `FAN.KS` -/
def Pid.fanKs : Nat := 0x4410
/-- `FAN.PATH` -/
def Pid.fanPath : Nat := 0x4411
/-- `FAN.SPINUP` -/
def Pid.fanSpinup : Nat := 0x4412
/-- `FAN.AIRMIN` -/
def Pid.fanAirmin : Nat := 0x4413
/-- `FAN.RETRIES` -/
def Pid.fanRetries : Nat := 0x4414
/-- `FAN.BLOCKCLASS` -/
def Pid.fanBlockclass : Nat := 0x4415
/-- `FAN.DEPENDS` -/
def Pid.fanDepends : Nat := 0x4416
/-- `FAN.STOPTIME` -/
def Pid.fanStoptime : Nat := 0x4417
/-- `FAN.TACHLOSS` -/
def Pid.fanTachloss : Nat := 0x4418
/-- `FAN.PROBE` -/
def Pid.fanProbe : Nat := 0x4419
/-- `FAN.AIRDROP` -/
def Pid.fanAirdrop : Nat := 0x441A
/-- `FAN.RPM` -/
def Pid.fanRpm : Nat := 0x4420
/-- `LINE.CYCLE` -/
def Pid.lineCycle : Nat := 0x4801
/-- `LINE.HEADEN` -/
def Pid.lineHeaden : Nat := 0x4802
/-- `LINE.RECLEN` -/
def Pid.lineReclen : Nat := 0x4803
/-- `LINE.RECCH` -/
def Pid.lineRecch : Nat := 0x4804
/-- `LINE.RECVEL` -/
def Pid.lineRecvel : Nat := 0x4805
/-- `LINE.REPLYQ` -/
def Pid.lineReplyq : Nat := 0x4806
/-- `LINE.OUTLEN` -/
def Pid.lineOutlen : Nat := 0x4807
/-- `LINE.CMDBYTES` -/
def Pid.lineCmdbytes : Nat := 0x4808
/-- `LINE.AUTHREQ` -/
def Pid.lineAuthreq : Nat := 0x4809
/-- `LINE.AUTOADOPT` -/
def Pid.lineAutoadopt : Nat := 0x480A
/-- `LINE.CYCTO` -/
def Pid.lineCycto : Nat := 0x480B
/-- `LINE.LOSSACT` -/
def Pid.lineLossact : Nat := 0x480C
/-- `LINE.RCAUTO` -/
def Pid.lineRcauto : Nat := 0x480D
/-- `LINE.SKEW` -/
def Pid.lineSkew : Nat := 0x480E
/-- `LINE.TFILT` -/
def Pid.lineTfilt : Nat := 0x480F
/-- `LINE.CRCMAX` -/
def Pid.lineCrcmax : Nat := 0x4810
/-- `LINE.ROLE` -/
def Pid.lineRole : Nat := 0x4820
/-- `LINE.HOPS` -/
def Pid.lineHops : Nat := 0x4821
/-- `LINE.LOCKPOS` -/
def Pid.lineLockpos : Nat := 0x4822
/-- `LINE.LOCKSTATE` -/
def Pid.lineLockstate : Nat := 0x4823
/-- `LINE.MINCYCLE` -/
def Pid.lineMincycle : Nat := 0x4824
/-- `LINE.SHUP` -/
def Pid.lineShup : Nat := 0x4825
/-- `LINE.SHDN` -/
def Pid.lineShdn : Nat := 0x4826
/-- `LINE.CFGGEN` -/
def Pid.lineCfggen : Nat := 0x4827
/-- `LINE.FOLD` -/
def Pid.lineFold : Nat := 0x4828
/-- `SES.QUOTA` -/
def Pid.sesQuota : Nat := 0x4C01
/-- `SES.TIMEOUT` -/
def Pid.sesTimeout : Nat := 0x4C02
/-- `FLT.ACTION` -/
def Pid.fltAction : Nat := 0x5001
/-- `FLT.TJWARN` -/
def Pid.fltTjwarn : Nat := 0x5002
/-- `FLT.TJ` -/
def Pid.fltTj : Nat := 0x5010
/-- `FLT.ACTIVE` -/
def Pid.fltActive : Nat := 0x5011
/-- `FLT.LOGSEQ` -/
def Pid.fltLogseq : Nat := 0x5012
/-- `PIT.ARMED` -/
def Pid.pitArmed : Nat := 0x5401
/-- `TAN.ALLOW` -/
def Pid.tanAllow : Nat := 0x5801
/-- `TAN.SIG` -/
def Pid.tanSig : Nat := 0x5802
/-- `TAN.WIDOW` -/
def Pid.tanWidow : Nat := 0x5810
/-- `TAN.STATE` -/
def Pid.tanState : Nat := 0x5820
/-- `TAN.LANEMISS` -/
def Pid.tanLanemiss : Nat := 0x5821
/-- `TAN.LANECRC` -/
def Pid.tanLanecrc : Nat := 0x5822
/-- `HST.ERRCNT` -/
def Pid.hstErrcnt : Nat := 0x5C01
/-- `HST.IRQCAUSE` -/
def Pid.hstIrqcause : Nat := 0x5C02
/-- `HST.IRQMASK` -/
def Pid.hstIrqmask : Nat := 0x5C03
/-- `HST.RXFREE` -/
def Pid.hstRxfree : Nat := 0x5C04
/-- `HST.REPLYFREE` -/
def Pid.hstReplyfree : Nat := 0x5C05
/-- `HST.LINEQFREE` -/
def Pid.hstLineqfree : Nat := 0x5C06
/-- `HST.BLOCKS` -/
def Pid.hstBlocks : Nat := 0x5C07
/-- `HIST.DIV` -/
def Pid.histDiv : Nat := 0x6001
/-- `HIST.FILL` -/
def Pid.histFill : Nat := 0x6010

/-- Items of parameter block 0x01 (R86). -/
def paramTable01 : List ParamDesc := [
  ⟨0x0401, 1, .range 0 1 1, 0, .any⟩,
  ⟨0x0402, 1, .range 0 1 1, 0, .any⟩,
  ⟨0x0403, 1, .range 0 1000 1, 20, .any⟩,
  ⟨0x0404, 1, .range 0 1 1, 0, .cask⟩,
  ⟨0x0405, 1, .none, 0, .readOnly⟩]

/-- Items of parameter block 0x02 (R86). -/
def paramTable02 : List ParamDesc := [
  ⟨0x0801, 1, .oneOf [8, 16, 32], 16, .cask⟩,
  ⟨0x0802, 1, .range 20000 119000 5, 52000, .caskTrack⟩,
  ⟨0x0803, 1, .range 0 2 1, 0, .any⟩,
  ⟨0x0804, 1, .range 0 124995 5, 0, .any⟩,
  ⟨0x0805, 1, .range 0 65536 1, 1, .any⟩,
  ⟨0x0806, 1, .range 100 10000 5, 1000, .any⟩]

/-- Items of parameter block 0x03 (R86). -/
def paramTable03 : List ParamDesc := [
  ⟨0x0C01, 1, .range 0 2 1, 0, .any⟩,
  ⟨0x0C02, 1, .none, 0, .readOnly⟩,
  ⟨0x0C03, 1, .none, 0, .readOnly⟩,
  ⟨0x0C04, 1, .none, 0, .readOnly⟩,
  ⟨0x0C10, 1, .range 0 1 1, 0, .any⟩,
  ⟨0x0C11, 1, .range 0 2 1, 1, .any⟩,
  ⟨0x0C12, 1, .range 1000000 1000000000 1, 20000000, .any⟩,
  ⟨0x0C13, 1, .range 0 255 1, 0, .any⟩]

/-- Items of parameter block 0x04 (R86). -/
def paramTable04 : List ParamDesc := [
  ⟨0x1001, 4, .range 2000 20000 1, 10000, .cask⟩,
  ⟨0x1002, 4, .range 10 100 1, 30, .cask⟩,
  ⟨0x1003, 4, .range 0 1 1, 0, .cask⟩,
  ⟨0x1004, 4, .range 1 10 1, 4, .cask⟩,
  ⟨0x1005, 4, .range 0 1 1, 0, .cask⟩,
  ⟨0x1006, 4, .range (-1800) 1799 1, 0, .cask⟩,
  ⟨0x1007, 4, .range (-1800) 1799 1, 0, .cask⟩,
  ⟨0x1008, 4, .none, 0, .readOnly⟩,
  ⟨0x1009, 4, .range 50 900 1, 300, .any⟩,
  ⟨0x100A, 4, .range 1 1024 1, 16, .any⟩,
  ⟨0x100B, 4, .range 1 3600 1, 100, .any⟩,
  ⟨0x100C, 4, .range 1 20 1, 2, .any⟩,
  ⟨0x100D, 4, .range 1 64 1, 8, .any⟩]

/-- Items of parameter block 0x05 (R86). -/
def paramTable05 : List ParamDesc := [
  ⟨0x1401, 4, .range 0 4 1, 0, .cask⟩,
  ⟨0x1402, 4, .oneOf [1, 2, 4, 8], 2, .cask⟩,
  ⟨0x1403, 4, .range 250 4000 1, 1500, .cask⟩,
  ⟨0x1404, 4, .range 0 1 1, 0, .cask⟩,
  ⟨0x1410, 4, .range 1 1048576 1, 2048, .cask⟩,
  ⟨0x1411, 4, .range 0 1 1, 0, .cask⟩,
  ⟨0x1420, 4, .range 1 64 1, 4, .cask⟩,
  ⟨0x1421, 4, .range 0 5 1, 0, .cask⟩,
  ⟨0x1422, 4, .range 0 100 1, 2, .cask⟩,
  ⟨0x1423, 4, .range 1 10000 1, 100, .any⟩,
  ⟨0x1430, 4, .range 100000 10000000 1, 1000000, .cask⟩,
  ⟨0x1431, 4, .range 8 48 1, 25, .cask⟩,
  ⟨0x1432, 4, .range 1 48 1, 1, .cask⟩,
  ⟨0x1433, 4, .range 1 40 1, 25, .cask⟩,
  ⟨0x1434, 4, .range 1 24 1, 13, .cask⟩,
  ⟨0x1435, 4, .range 0 1 1, 1, .cask⟩,
  ⟨0x1436, 4, .range 0 8 1, 0, .cask⟩,
  ⟨0x1437, 4, .range 0 255 1, 0, .cask⟩,
  ⟨0x1438, 4, .range 0 255 1, 0, .cask⟩,
  ⟨0x1439, 4, .range 0 1 1, 0, .cask⟩,
  ⟨0x143A, 4, .range 1 48 1, 1, .cask⟩,
  ⟨0x143B, 4, .range 0 48 1, 0, .cask⟩,
  ⟨0x143C, 4, .range 0 1 1, 0, .cask⟩,
  ⟨0x143D, 4, .range 1 100 1, 20, .cask⟩]

/-- Items of parameter block 0x05 (R86). -/
def paramTable05b : List ParamDesc := [
  ⟨0x143E, 4, .range 0 2000 5, 0, .cask⟩,
  ⟨0x143F, 4, .range 1 16 1, 3, .any⟩,
  ⟨0x1440, 4, .none, 0, .readOnly⟩]

/-- Items of parameter block 0x06 (R86). -/
def paramTable06 : List ParamDesc := [
  ⟨0x1801, 4, .range 20 2000 1, 250, .any⟩,
  ⟨0x1802, 4, .range 500 2000 1, 707, .any⟩,
  ⟨0x1803, 4, .range 10 90 1, 40, .any⟩,
  ⟨0x1804, 4, .range 1 64 1, 4, .any⟩,
  ⟨0x1805, 4, .range 5 50 1, 20, .any⟩,
  ⟨0x1806, 4, .range 1 1024 1, 16, .any⟩,
  ⟨0x1807, 4, .range 5 1800 1, 50, .any⟩,
  ⟨0x1808, 4, .range 1 16777216 1, 4096, .any⟩,
  ⟨0x1809, 4, .range 0 1 1, 0, .any⟩,
  ⟨0x180A, 4, .range 4 256 1, 16, .any⟩,
  ⟨0x180B, 4, .range 1 10000 1, 100, .any⟩,
  ⟨0x1810, 4, .none, 0, .readOnly⟩,
  ⟨0x1811, 4, .none, 0, .readOnly⟩,
  ⟨0x1812, 4, .none, 549755813887, .readOnly⟩]

/-- Items of parameter block 0x07 (R86). -/
def paramTable07 : List ParamDesc := [
  ⟨0x1C01, 4, .range (-549755813888) 549755813887 1, 0, .any⟩,
  ⟨0x1C02, 4, .range 0 1 1, 0, .any⟩,
  ⟨0x1C03, 4, .range 0 65535 1, 8, .any⟩,
  ⟨0x1C10, 4, .none, 0, .readOnly⟩,
  ⟨0x1C11, 4, .none, 0, .readOnly⟩,
  ⟨0x1C12, 4, .none, 0, .readOnly⟩,
  ⟨0x1C13, 4, .none, 0, .readOnly⟩]

/-- Items of parameter block 0x08 (R86). -/
def paramTable08 : List ParamDesc := [
  ⟨0x2001, 4, .range 0 1000 1, 0, .any⟩,
  ⟨0x2002, 4, .range 0 1000 1, 0, .any⟩,
  ⟨0x2003, 4, .range 0 1000 1, 0, .any⟩,
  ⟨0x2004, 4, .range 0 1 1, 0, .any⟩,
  ⟨0x2005, 4, .range 0 1 1, 0, .any⟩,
  ⟨0x2010, 4, .none, 0, .readOnly⟩,
  ⟨0x2011, 4, .none, 0, .readOnly⟩,
  ⟨0x2012, 4, .none, 0, .readOnly⟩]

/-- Items of parameter block 0x09 (R86). -/
def paramTable09 : List ParamDesc := [
  ⟨0x2401, 4, .range 0 1 1, 0, .any⟩,
  ⟨0x2402, 4, .range 1 549755813887 1, 4096, .any⟩,
  ⟨0x2403, 1, .range 0 255 1, 255, .cask⟩,
  ⟨0x2410, 4, .none, 0, .readOnly⟩]

/-- Items of parameter block 0x0A (R86). -/
def paramTable0A : List ParamDesc := [
  ⟨0x2801, 4, .range 0 1 1, 0, .any⟩,
  ⟨0x2802, 4, .range 0 3 1, 0, .any⟩,
  ⟨0x2803, 4, .range 1 16777215 1, 1, .any⟩,
  ⟨0x2804, 4, .range 1 16777215 1, 2048, .any⟩,
  ⟨0x2805, 4, .range 0 2 1, 2, .any⟩,
  ⟨0x2806, 4, .range 1 16777215 1, 8192, .any⟩,
  ⟨0x2807, 4, .range 0 16777214 1, 0, .any⟩,
  ⟨0x2808, 4, .range 0 1 1, 0, .any⟩,
  ⟨0x2809, 4, .range 0 1 1, 0, .any⟩]

/-- Items of parameter block 0x0B (R86). -/
def paramTable0B : List ParamDesc := [
  ⟨0x2C01, 4, .range 0 1 1, 0, .idle⟩,
  ⟨0x2C02, 4, .range 1 16 1, 1, .idle⟩,
  ⟨0x2C03, 4, .range 0 15 1, 0, .idle⟩,
  ⟨0x2C04, 4, .range 0 545460846592 1, 85899345920, .any⟩,
  ⟨0x2C05, 4, .range 0 545460846592 1, 0, .any⟩,
  ⟨0x2C06, 4, .range 0 545460846592 1, 214748365, .any⟩,
  ⟨0x2C07, 4, .range 0 545460846592 1, 2147483648, .any⟩,
  ⟨0x2C08, 4, .range 1 33554432000 1, 1677721600, .any⟩,
  ⟨0x2C09, 4, .range (-4294967296) 4294967296 1, -4294967296, .idle⟩,
  ⟨0x2C0A, 4, .range (-4294967296) 4294967296 1, 4294967296, .idle⟩,
  ⟨0x2C0B, 4, .range 0 262143 1, 131072, .idle⟩,
  ⟨0x2C0C, 4, .nonzero (-262143) 262143, 131071, .idle⟩,
  ⟨0x2C0D, 4, .range 1 16777216000 1, 4194304, .any⟩,
  ⟨0x2C0E, 4, .range 1 33554432000 1, 33554432, .any⟩,
  ⟨0x2C0F, 4, .range 1 65535 1, 16, .any⟩,
  ⟨0x2C10, 4, .range 1 16777216 1, 167772, .any⟩,
  ⟨0x2C11, 4, .range 1 65535 1, 16, .any⟩,
  ⟨0x2C12, 4, .range 1 255 1, 8, .any⟩,
  ⟨0x2C20, 4, .none, 255, .readOnly⟩,
  ⟨0x2C21, 4, .none, 4294967296, .readOnly⟩,
  ⟨0x2C22, 4, .none, 0, .readOnly⟩,
  ⟨0x2C23, 4, .none, 0, .readOnly⟩,
  ⟨0x2C24, 4, .none, 0, .readOnly⟩,
  ⟨0x2C25, 4, .none, 0, .readOnly⟩]

/-- Items of parameter block 0x0B (R86). -/
def paramTable0Bb : List ParamDesc := [
  ⟨0x2C30, 1, .none, 0, .readOnly⟩,
  ⟨0x2C31, 1, .none, 465316400, .readOnly⟩]

/-- Items of parameter block 0x0C (R86). -/
def paramTable0C : List ParamDesc := [
  ⟨0x3001, 4, .range 0 1 1, 0, .idle⟩,
  ⟨0x3002, 4, .range 1 33554432000 1, 167772160, .any⟩,
  ⟨0x3003, 4, .range 1 549755813887 1, 20971520, .any⟩,
  ⟨0x3004, 4, .range 1 549755813887 1, 20971520, .any⟩,
  ⟨0x3005, 4, .range 1 549755813887 1, 13107200, .any⟩,
  ⟨0x3006, 4, .range 0 1 1, 0, .idle⟩,
  ⟨0x3007, 4, .range 4096 274877906944 1, 16777216, .idle⟩,
  ⟨0x3008, 4, .range 0 1 1, 0, .idle⟩,
  ⟨0x3009, 4, .range 0 1 1, 0, .any⟩,
  ⟨0x300A, 4, .range 0 1 1, 0, .any⟩,
  ⟨0x3010, 4, .none, 0, .readOnly⟩,
  ⟨0x3011, 4, .none, 0, .readOnly⟩,
  ⟨0x3012, 4, .none, 0, .readOnly⟩,
  ⟨0x3013, 4, .none, 0, .readOnly⟩]

/-- Items of parameter block 0x0D (R86). -/
def paramTable0D : List ParamDesc := [
  ⟨0x3401, 4, .range 0 6 1, 0, .cask⟩,
  ⟨0x3402, 4, .range 0 1 1, 0, .cask⟩,
  ⟨0x3403, 4, .range 0 2 1, 0, .any⟩,
  ⟨0x3404, 4, .range 0 1 1, 0, .idle⟩,
  ⟨0x3405, 4, .range 0 1 1, 1, .any⟩,
  ⟨0x3406, 4, .range 0 262143 1, 0, .any⟩,
  ⟨0x3407, 4, .range 0 1 1, 0, .any⟩,
  ⟨0x3408, 4, .range 100 100000 1, 1000, .any⟩,
  ⟨0x3409, 4, .range 1 1000 1, 10, .any⟩,
  ⟨0x340A, 1, .range 0 2 1, 0, .cask⟩,
  ⟨0x340B, 1, .range 0 2 1, 0, .cask⟩,
  ⟨0x3410, 4, .none, 1, .readOnly⟩,
  ⟨0x3411, 4, .none, 0, .readOnly⟩,
  ⟨0x3412, 4, .none, 0, .readOnly⟩,
  ⟨0x3413, 4, .none, 0, .readOnly⟩,
  ⟨0x3414, 4, .none, 0, .readOnly⟩,
  ⟨0x3415, 1, .none, 0, .readOnly⟩]

/-- Items of parameter block 0x0E (R86). -/
def paramTable0E : List ParamDesc := [
  ⟨0x3801, 1, .none, 0, .readOnly⟩,
  ⟨0x3802, 1, .none, 0, .readOnly⟩,
  ⟨0x3810, 1, .none, 0, .readOnly⟩,
  ⟨0x3811, 1, .none, 0, .readOnly⟩,
  ⟨0x3812, 1, .none, 0, .readOnly⟩,
  ⟨0x3813, 1, .none, 0, .readOnly⟩,
  ⟨0x3814, 1, .none, 0, .readOnly⟩,
  ⟨0x3815, 1, .none, 0, .readOnly⟩,
  ⟨0x3816, 1, .none, 0, .readOnly⟩,
  ⟨0x3817, 1, .none, 0, .readOnly⟩,
  ⟨0x3818, 1, .none, 0, .readOnly⟩,
  ⟨0x3819, 1, .none, 0, .readOnly⟩,
  ⟨0x381A, 1, .none, 0, .readOnly⟩,
  ⟨0x381B, 1, .none, 0, .readOnly⟩,
  ⟨0x381C, 1, .none, 0, .readOnly⟩,
  ⟨0x381D, 1, .none, 0, .readOnly⟩,
  ⟨0x381E, 1, .none, 0, .readOnly⟩,
  ⟨0x381F, 1, .none, 0, .readOnly⟩,
  ⟨0x3820, 1, .none, 0, .readOnly⟩,
  ⟨0x3821, 1, .none, 0, .readOnly⟩,
  ⟨0x3822, 1, .none, 0, .readOnly⟩,
  ⟨0x3823, 1, .none, 0, .readOnly⟩,
  ⟨0x3824, 1, .none, 0, .readOnly⟩,
  ⟨0x3825, 1, .none, 0, .readOnly⟩]

/-- Items of parameter block 0x0E (R86). -/
def paramTable0Eb : List ParamDesc := [
  ⟨0x3826, 1, .none, 0, .readOnly⟩,
  ⟨0x3827, 1, .none, 0, .readOnly⟩,
  ⟨0x3828, 1, .none, 0, .readOnly⟩,
  ⟨0x3829, 1, .none, 0, .readOnly⟩,
  ⟨0x382A, 1, .none, 0, .readOnly⟩,
  ⟨0x382B, 1, .none, 0, .readOnly⟩,
  ⟨0x382C, 1, .none, 0, .readOnly⟩,
  ⟨0x382D, 1, .none, 0, .readOnly⟩,
  ⟨0x382E, 1, .none, 0, .readOnly⟩,
  ⟨0x382F, 1, .none, 0, .readOnly⟩,
  ⟨0x3830, 1, .none, 0, .readOnly⟩,
  ⟨0x3831, 1, .none, 0, .readOnly⟩,
  ⟨0x3832, 1, .none, 0, .readOnly⟩,
  ⟨0x3833, 1, .none, 0, .readOnly⟩,
  ⟨0x3834, 1, .none, 0, .readOnly⟩,
  ⟨0x3835, 1, .none, 0, .readOnly⟩,
  ⟨0x3836, 1, .none, 0, .readOnly⟩,
  ⟨0x3837, 1, .none, 0, .readOnly⟩,
  ⟨0x3838, 1, .none, 0, .readOnly⟩,
  ⟨0x3839, 1, .none, 0, .readOnly⟩,
  ⟨0x383A, 1, .none, 0, .readOnly⟩,
  ⟨0x383B, 1, .none, 0, .readOnly⟩,
  ⟨0x383C, 1, .none, 0, .readOnly⟩,
  ⟨0x383D, 1, .none, 0, .readOnly⟩]

/-- Items of parameter block 0x0E (R86). -/
def paramTable0Ec : List ParamDesc := [
  ⟨0x383E, 1, .none, 0, .readOnly⟩,
  ⟨0x383F, 1, .none, 0, .readOnly⟩]

/-- Items of parameter block 0x0F (R86). -/
def paramTable0F : List ParamDesc := [
  ⟨0x3C01, 1, .range 0 2 1, 0, .any⟩,
  ⟨0x3C02, 1, .range 10 10000 1, 100, .any⟩,
  ⟨0x3C03, 1, .range 19660800 23592960 1, 21712077, .any⟩,
  ⟨0x3C04, 1, .range 1966080 9830400 1, 3932160, .any⟩,
  ⟨0x3C05, 1, .range 1 20 1, 3, .any⟩,
  ⟨0x3C06, 1, .range 13107200 65536000 1, 20316160, .any⟩,
  ⟨0x3C07, 1, .range 13107200 65536000 1, 28835840, .any⟩,
  ⟨0x3C08, 1, .oneOf [0, 1, 2, 3, 255], 255, .any⟩,
  ⟨0x3C09, 1, .range 1 100 1, 3, .any⟩,
  ⟨0x3C0A, 1, .range 2 60 1, 10, .any⟩,
  ⟨0x3C0B, 1, .range 8 256 1, 32, .any⟩,
  ⟨0x3C20, 2, .range 1311 65536 1, 6554, .any⟩,
  ⟨0x3C21, 2, .range 100 800 1, 450, .any⟩,
  ⟨0x3C22, 2, .range 2147483648 6442450944 1, 4294967296, .any⟩,
  ⟨0x3C23, 2, .range 40000 400000 1000, 200000, .any⟩,
  ⟨0x3C24, 2, .range 1 31 1, 8, .any⟩,
  ⟨0x3C25, 2, .range 1 16 1, 4, .any⟩,
  ⟨0x3C26, 2, .range 500 20000 1, 2000, .any⟩,
  ⟨0x3C27, 2, .range 0 100000 1, 0, .any⟩,
  ⟨0x3C28, 2, .range 328 65536 1, 1311, .any⟩,
  ⟨0x3C29, 2, .range (-50000) 50000 1, 0, .any⟩]

/-- Items of parameter block 0x10 (R86). -/
def paramTable10 : List ParamDesc := [
  ⟨0x4001, 4, .range 0 1 1, 0, .any⟩,
  ⟨0x4002, 4, .range 0 1 1, 1, .any⟩,
  ⟨0x4003, 4, .range 50000 5000000 1, 1000000, .any⟩,
  ⟨0x4004, 4, .oneOf [0, 1, 2, 3, 255], 255, .any⟩,
  ⟨0x4005, 4, .range (-13107200) 55705600 1, 7864320, .any⟩,
  ⟨0x4006, 4, .range (-13107200) 55705600 1, 9830400, .any⟩,
  ⟨0x4010, 4, .none, 0, .readOnly⟩,
  ⟨0x4011, 4, .none, 0, .readOnly⟩]

/-- Items of parameter block 0x11 (R86). -/
def paramTable11 : List ParamDesc := [
  ⟨0x4401, 2, .range 0 2 1, 0, .any⟩,
  ⟨0x4402, 2, .range 0 1000 1, 700, .any⟩,
  ⟨0x4403, 2, .range 0 1000 1, 1000, .any⟩,
  ⟨0x4404, 2, .range 0 1000 1, 200, .any⟩,
  ⟨0x4405, 2, .range 1 4 1, 2, .any⟩,
  ⟨0x4406, 2, .range 60 10000 1, 300, .any⟩,
  ⟨0x4407, 2, .range 300 30000 1, 6000, .any⟩,
  ⟨0x4408, 2, .range 0 3 1, 0, .any⟩,
  ⟨0x4409, 2, .range (-2621440) 9830400 1, 1966080, .any⟩,
  ⟨0x440A, 2, .range (-2621440) 9830400 1, 3276800, .any⟩,
  ⟨0x440B, 2, .range 0 1000 1, 300, .any⟩,
  ⟨0x440C, 2, .range 0 1000 1, 1000, .any⟩,
  ⟨0x440D, 2, .range 0 2621440 1, 196608, .any⟩,
  ⟨0x440E, 2, .range 0 42949672960 1, 429496730, .any⟩,
  ⟨0x440F, 2, .range 0 42949672960 1, 858993459, .any⟩,
  ⟨0x4410, 2, .range 0 4294967296 1, 2147483648, .any⟩,
  ⟨0x4411, 2, .oneOf [0, 1, 255], 0, .any⟩,
  ⟨0x4412, 2, .range 500 30000 1, 3000, .any⟩,
  ⟨0x4413, 2, .range 3277 655360 1, 32768, .any⟩,
  ⟨0x4414, 2, .range 0 10 1, 3, .any⟩,
  ⟨0x4415, 2, .range 1 3 1, 2, .any⟩,
  ⟨0x4416, 2, .range 0 255 1, 0, .any⟩,
  ⟨0x4417, 2, .range 500 30000 1, 2000, .any⟩,
  ⟨0x4418, 2, .range 100 10000 1, 1000, .any⟩]

/-- Items of parameter block 0x11 (R86). -/
def paramTable11b : List ParamDesc := [
  ⟨0x4419, 2, .range 500 10000 1, 2000, .any⟩,
  ⟨0x441A, 2, .range 5 90 1, 30, .any⟩,
  ⟨0x4420, 2, .none, 0, .readOnly⟩]

/-- Items of parameter block 0x12 (R86). -/
def paramTable12 : List ParamDesc := [
  ⟨0x4801, 1, .range 250000 16000000 125000, 4000000, .cask⟩,
  ⟨0x4802, 1, .range 0 1 1, 0, .any⟩,
  ⟨0x4803, 1, .range 8 64 1, 32, .any⟩,
  ⟨0x4804, 1, .range 0 15 1, 15, .any⟩,
  ⟨0x4805, 1, .range 0 15 1, 0, .any⟩,
  ⟨0x4806, 1, .range 4 240 1, 16, .any⟩,
  ⟨0x4807, 1, .range 0 64 1, 8, .any⟩,
  ⟨0x4808, 1, .range 0 16384 1, 512, .any⟩,
  ⟨0x4809, 1, .range 0 1 1, 0, .any⟩,
  ⟨0x480A, 1, .range 0 1 1, 0, .any⟩,
  ⟨0x480B, 1, .range 1 255 1, 3, .any⟩,
  ⟨0x480C, 1, .range 0 2 1, 0, .any⟩,
  ⟨0x480D, 1, .range 0 1 1, 1, .any⟩,
  ⟨0x480E, 1, .range (-20000) 20000 1, 0, .any⟩,
  ⟨0x480F, 1, .range 1 256 1, 16, .any⟩,
  ⟨0x4810, 1, .range 1 1000 1, 10, .any⟩,
  ⟨0x4820, 1, .none, 0, .readOnly⟩,
  ⟨0x4821, 1, .none, 0, .readOnly⟩,
  ⟨0x4822, 1, .none, 0, .readOnly⟩,
  ⟨0x4823, 1, .none, 0, .readOnly⟩,
  ⟨0x4824, 1, .none, 0, .readOnly⟩,
  ⟨0x4825, 1, .none, 0, .readOnly⟩,
  ⟨0x4826, 1, .none, 0, .readOnly⟩,
  ⟨0x4827, 1, .none, 0, .readOnly⟩]

/-- Items of parameter block 0x12 (R86). -/
def paramTable12b : List ParamDesc := [
  ⟨0x4828, 1, .none, 0, .readOnly⟩]

/-- Items of parameter block 0x13 (R86). -/
def paramTable13 : List ParamDesc := [
  ⟨0x4C01, 1, .range 1 4096 1, 64, .any⟩,
  ⟨0x4C02, 1, .zeroOr 100 3600000, 0, .any⟩]

/-- Items of parameter block 0x14 (R86). -/
def paramTable14 : List ParamDesc := [
  ⟨0x5001, 4, .range 0 1 1, 0, .any⟩,
  ⟨0x5002, 1, .range 5570560 7864320 1, 7536640, .any⟩,
  ⟨0x5010, 1, .none, 0, .readOnly⟩,
  ⟨0x5011, 1, .none, 0, .readOnly⟩,
  ⟨0x5012, 1, .none, 0, .readOnly⟩]

/-- Items of parameter block 0x15 (R86). -/
def paramTable15 : List ParamDesc := [
  ⟨0x5401, 1, .none, 0, .readOnly⟩]

/-- Items of parameter block 0x16 (R86). -/
def paramTable16 : List ParamDesc := [
  ⟨0x5801, 1, .range 0 1 1, 0, .cask⟩,
  ⟨0x5802, 1, .range 0 65535 1, 0, .cask⟩,
  ⟨0x5810, 4, .range 0 2 1, 0, .any⟩,
  ⟨0x5820, 1, .none, 0, .readOnly⟩,
  ⟨0x5821, 1, .none, 0, .readOnly⟩,
  ⟨0x5822, 1, .none, 0, .readOnly⟩]

/-- Items of parameter block 0x17 (R86). -/
def paramTable17 : List ParamDesc := [
  ⟨0x5C01, 1, .none, 0, .readOnly⟩,
  ⟨0x5C02, 1, .none, 0, .readOnly⟩,
  ⟨0x5C03, 1, .none, 0, .readOnly⟩,
  ⟨0x5C04, 1, .none, 0, .readOnly⟩,
  ⟨0x5C05, 1, .none, 0, .readOnly⟩,
  ⟨0x5C06, 1, .none, 0, .readOnly⟩,
  ⟨0x5C07, 1, .none, 0, .readOnly⟩]

/-- Items of parameter block 0x18 (R86). -/
def paramTable18 : List ParamDesc := [
  ⟨0x6001, 4, .range 1 256 1, 16, .any⟩,
  ⟨0x6010, 4, .none, 0, .readOnly⟩]

/-- The items of a block (R86); none for a block the table does not list. -/
def paramBlock (b : Nat) : List ParamDesc :=
  match b with
  | 0x01 => paramTable01
  | 0x02 => paramTable02
  | 0x03 => paramTable03
  | 0x04 => paramTable04
  | 0x05 => paramTable05 ++ paramTable05b
  | 0x06 => paramTable06
  | 0x07 => paramTable07
  | 0x08 => paramTable08
  | 0x09 => paramTable09
  | 0x0A => paramTable0A
  | 0x0B => paramTable0B ++ paramTable0Bb
  | 0x0C => paramTable0C
  | 0x0D => paramTable0D
  | 0x0E => paramTable0E ++ paramTable0Eb ++ paramTable0Ec
  | 0x0F => paramTable0F
  | 0x10 => paramTable10
  | 0x11 => paramTable11 ++ paramTable11b
  | 0x12 => paramTable12 ++ paramTable12b
  | 0x13 => paramTable13
  | 0x14 => paramTable14
  | 0x15 => paramTable15
  | 0x16 => paramTable16
  | 0x17 => paramTable17
  | 0x18 => paramTable18
  | _ => []

/-- Every block code (R86). -/
def paramBlocks : List Nat := [0x01, 0x02, 0x03, 0x04, 0x05, 0x06, 0x07, 0x08, 0x09, 0x0A, 0x0B, 0x0C, 0x0D, 0x0E, 0x0F, 0x10, 0x11, 0x12, 0x13, 0x14, 0x15, 0x16, 0x17, 0x18]

/-- Every item. -/
def paramAll : List ParamDesc := paramBlocks.flatMap paramBlock

/-- The item on instance 0 of an ID. -/
def paramBase (id : Nat) : Nat := id / 1024 * 1024 + id % 128

/-- The instance of an ID, bits [9:7] (R86). -/
def paramInst (id : Nat) : Nat := id / 128 % 8

/-- The ID of instance `n` of an item. -/
def pidAt (base n : Nat) : Nat := base + n * 128

/-- The description of a defined ID; none for an ID that fails R86 (outside TANDEM). -/
def paramDesc (id : Nat) : Option ParamDesc :=
  (paramBlock (id / 1024)).find? fun d => d.id == paramBase id && decide (paramInst id < d.count)

/-- The After Steep value of an ID: EMU.SRC takes its instance number (R290), every other item its table value. -/
def paramDefault (id : Nat) : Word :=
  if paramBase id = Pid.emuSrc then wN (paramInst id)
  else match paramDesc id with
    | some d => wI d.dflt
    | none => 0

/-- The working set: ID and value pairs with strictly rising IDs, none equal to its After Steep value. -/
abbrev ParamMem := List (Nat × Word)

/-- The value of an ID in the working set. -/
def ParamMem.get (m : ParamMem) (id : Nat) : Word :=
  match m.find? fun e => e.1 == id with
  | some e => e.2
  | none => paramDefault id

/-- Inserts or replaces an entry, in rising order, dropping it where it equals the After Steep value. -/
def ParamMem.put (m : ParamMem) (id : Nat) (v : Word) : ParamMem :=
  match m with
  | [] => if v = paramDefault id then [] else [(id, v)]
  | e :: es =>
    if id < e.1 then (if v = paramDefault id then e :: es else (id, v) :: e :: es)
    else if id = e.1 then (if v = paramDefault id then es else (id, v) :: es)
    else e :: ParamMem.put es id v

/-- The canonical form: strictly rising IDs and no entry equal to its After Steep value. -/
def ParamMem.wf (m : ParamMem) : Bool :=
  match m with
  | [] => true
  | e :: es => decide (e.2 ≠ paramDefault e.1) && es.all (fun f => decide (e.1 < f.1)) && ParamMem.wf es

/-- Writes several entries in order. -/
def ParamMem.putAll (m : ParamMem) (xs : List (Nat × Word)) : ParamMem :=
  xs.foldl (fun m e => m.put e.1 e.2) m

end Sys2Proof.Machine
end

