-- ==== Sys2Proof/Machine/Codes.lean ====
section
/-!
DEFINITION. The closed code tables of the node: status codes (02_commands_and_clients.md R87), opcodes with their
entries (17_opcode_reference.md R557), event codes (R565) and fault codes (15_faults_and_pitch_points.md R520).
-/
namespace Sys2Proof.Machine

/-- The status codes (R87). -/
inductive Status where
  /-- 0x00: Completed as asked -/
  | done
  /-- 0x01: Accepted; a final reply follows -/
  | accepted
  /-- 0x10: Conflicts with a session or command already present (R62, R74, or as the opcode states) -/
  | busy
  /-- 0x11: Pool or quota exhausted -/
  | queueFull
  /-- 0x12: Tag belongs to a command in flight -/
  | tagInUse
  /-- 0x20: Opcode undefined -/
  | badOpcode
  /-- 0x21: Length or word count wrong -/
  | badLength
  /-- 0x22: Layout, reserved bit, mask, tag 4095 or parameter ID wrong -/
  | badParam
  /-- 0x23: Value outside its range -/
  | outOfRange
  /-- 0x24: No session, class too low, or wrong port -/
  | notPermitted
  /-- 0x25: MAC missing or wrong, or no key set -/
  | authFail
  /-- 0x26: Not allowed in the mode in force -/
  | wrongMode
  /-- 0x27: Channel owned by another client -/
  | notOwner
  /-- 0x28: Commit tick already past -/
  | tooLate
  /-- 0x30: One-way axis passed its target -/
  | targetPassed
  /-- 0x31: A safety precondition fails -/
  | refusedUnsafe
  /-- 0x32: Calibration conditions not met -/
  | calUnstable
  /-- 0x33: Control cycle budget exceeded -/
  | overBudget
  /-- 0x40: Core is down; the cellar answered -/
  | coreReset
  /-- 0x41: Firmware activation in progress -/
  | updating
  /-- 0x42: Named channel belonged to a lost tandem partner -/
  | partnerLost
  /-- 0x43: Channel marked unavailable by Steep -/
  | channelUnavailable
  /-- 0x44: Refused while Cask-locked -/
  | caskLocked
  /-- 0x45: Upper member of a tandem pair -/
  | fused
  /-- 0x50: Ended by CASK entry, session close or a stronger command -/
  | aborted
  /-- 0x51: Ended by a core reset or activation drain -/
  | dropped
  /-- 0x60: The node failed to complete; the fault log holds the cause -/
  | internalError
  deriving DecidableEq, Repr

/-- The code of a status (R87). -/
def Status.code : Status → Nat
  | .done => 0x00
  | .accepted => 0x01
  | .busy => 0x10
  | .queueFull => 0x11
  | .tagInUse => 0x12
  | .badOpcode => 0x20
  | .badLength => 0x21
  | .badParam => 0x22
  | .outOfRange => 0x23
  | .notPermitted => 0x24
  | .authFail => 0x25
  | .wrongMode => 0x26
  | .notOwner => 0x27
  | .tooLate => 0x28
  | .targetPassed => 0x30
  | .refusedUnsafe => 0x31
  | .calUnstable => 0x32
  | .overBudget => 0x33
  | .coreReset => 0x40
  | .updating => 0x41
  | .partnerLost => 0x42
  | .channelUnavailable => 0x43
  | .caskLocked => 0x44
  | .fused => 0x45
  | .aborted => 0x50
  | .dropped => 0x51
  | .internalError => 0x60

/-- Which masks an opcode takes: zero, exactly one channel, one or more, zero or any. -/
inductive MaskKind where
  | node
  | one
  | many
  | zeroOrMany
  deriving DecidableEq, Repr

/-- The permission classes in rising order, and context L alone. -/
inductive PermClass where
  | none
  | observer
  | operator
  | engineer
  | maintainer
  | contextL
  deriving DecidableEq, Repr

/-- The order of the permission classes. -/
def PermClass.rank : PermClass → Nat
  | .none => 0
  | .observer => 1
  | .operator => 2
  | .engineer => 3
  | .maintainer => 4
  | .contextL => 5

/-- The opcodes (R557). -/
inductive Opcode where
  | ping
  | openSession
  | closeSession
  | subscribe
  | replay
  | describe
  | keySet
  | setMode
  | steepRun
  | status
  | clearFaults
  | tickRealign
  | paramRead
  | paramWrite
  | paramSave
  | paramRestore
  | paramDefaults
  | readPosition
  | setPosition
  | calibrateAngle
  | extrapolate
  | historyRead
  | moveTo
  | moveBy
  | jog
  | stop
  | park
  | setLimits
  | gainSet
  | loopEnable
  | cascadeSet
  | latchArm
  | latchRead
  | hopAdd
  | hopRemove
  | hopList
  | emuSet
  | dacConfig
  | dacWrite
  | dacStrobe
  | waveLoad
  | wavePlay
  | waveStop
  | soundConfig
  | soundRead
  | zeroFlowCal
  | rtdRead
  | fanSet
  | fanRead
  | rollcall
  | relock
  | adopt
  | fold
  | unfold
  | lineStats
  | timeRead
  | faultRead
  | faultLog
  | pitchArm
  | pitchDisarm
  | refStatus
  | tickStats
  | fwBegin
  | fwBlock
  | fwCommit
  | fwActivate
  | storeRead
  | tandemForm
  | tandemSplit
  | tandemStatus
  deriving DecidableEq, Repr

/-- The value of an opcode (R557). -/
def Opcode.code : Opcode → Nat
  | .ping => 0x00
  | .openSession => 0x01
  | .closeSession => 0x02
  | .subscribe => 0x03
  | .replay => 0x04
  | .describe => 0x05
  | .keySet => 0x06
  | .setMode => 0x10
  | .steepRun => 0x11
  | .status => 0x12
  | .clearFaults => 0x13
  | .tickRealign => 0x14
  | .paramRead => 0x20
  | .paramWrite => 0x21
  | .paramSave => 0x22
  | .paramRestore => 0x23
  | .paramDefaults => 0x24
  | .readPosition => 0x30
  | .setPosition => 0x31
  | .calibrateAngle => 0x32
  | .extrapolate => 0x33
  | .historyRead => 0x34
  | .moveTo => 0x40
  | .moveBy => 0x41
  | .jog => 0x42
  | .stop => 0x43
  | .park => 0x44
  | .setLimits => 0x45
  | .gainSet => 0x46
  | .loopEnable => 0x47
  | .cascadeSet => 0x48
  | .latchArm => 0x50
  | .latchRead => 0x51
  | .hopAdd => 0x52
  | .hopRemove => 0x53
  | .hopList => 0x54
  | .emuSet => 0x55
  | .dacConfig => 0x60
  | .dacWrite => 0x61
  | .dacStrobe => 0x62
  | .waveLoad => 0x63
  | .wavePlay => 0x64
  | .waveStop => 0x65
  | .soundConfig => 0x70
  | .soundRead => 0x71
  | .zeroFlowCal => 0x72
  | .rtdRead => 0x73
  | .fanSet => 0x74
  | .fanRead => 0x75
  | .rollcall => 0x80
  | .relock => 0x81
  | .adopt => 0x82
  | .fold => 0x83
  | .unfold => 0x84
  | .lineStats => 0x85
  | .timeRead => 0x86
  | .faultRead => 0x90
  | .faultLog => 0x91
  | .pitchArm => 0x92
  | .pitchDisarm => 0x93
  | .refStatus => 0x94
  | .tickStats => 0x95
  | .fwBegin => 0xA0
  | .fwBlock => 0xA1
  | .fwCommit => 0xA2
  | .fwActivate => 0xA3
  | .storeRead => 0xA4
  | .tandemForm => 0xB0
  | .tandemSplit => 0xB1
  | .tandemStatus => 0xB2

/-- The opcode that a value names; none for a value the table does not list (R557). -/
def Opcode.ofCode (v : Nat) : Option Opcode :=
  match v with
  | 0x00 => some .ping
  | 0x01 => some .openSession
  | 0x02 => some .closeSession
  | 0x03 => some .subscribe
  | 0x04 => some .replay
  | 0x05 => some .describe
  | 0x06 => some .keySet
  | 0x10 => some .setMode
  | 0x11 => some .steepRun
  | 0x12 => some .status
  | 0x13 => some .clearFaults
  | 0x14 => some .tickRealign
  | 0x20 => some .paramRead
  | 0x21 => some .paramWrite
  | 0x22 => some .paramSave
  | 0x23 => some .paramRestore
  | 0x24 => some .paramDefaults
  | 0x30 => some .readPosition
  | 0x31 => some .setPosition
  | 0x32 => some .calibrateAngle
  | 0x33 => some .extrapolate
  | 0x34 => some .historyRead
  | 0x40 => some .moveTo
  | 0x41 => some .moveBy
  | 0x42 => some .jog
  | 0x43 => some .stop
  | 0x44 => some .park
  | 0x45 => some .setLimits
  | 0x46 => some .gainSet
  | 0x47 => some .loopEnable
  | 0x48 => some .cascadeSet
  | 0x50 => some .latchArm
  | 0x51 => some .latchRead
  | 0x52 => some .hopAdd
  | 0x53 => some .hopRemove
  | 0x54 => some .hopList
  | 0x55 => some .emuSet
  | 0x60 => some .dacConfig
  | 0x61 => some .dacWrite
  | 0x62 => some .dacStrobe
  | 0x63 => some .waveLoad
  | 0x64 => some .wavePlay
  | 0x65 => some .waveStop
  | 0x70 => some .soundConfig
  | 0x71 => some .soundRead
  | 0x72 => some .zeroFlowCal
  | 0x73 => some .rtdRead
  | 0x74 => some .fanSet
  | 0x75 => some .fanRead
  | 0x80 => some .rollcall
  | 0x81 => some .relock
  | 0x82 => some .adopt
  | 0x83 => some .fold
  | 0x84 => some .unfold
  | 0x85 => some .lineStats
  | 0x86 => some .timeRead
  | 0x90 => some .faultRead
  | 0x91 => some .faultLog
  | 0x92 => some .pitchArm
  | 0x93 => some .pitchDisarm
  | 0x94 => some .refStatus
  | 0x95 => some .tickStats
  | 0xA0 => some .fwBegin
  | 0xA1 => some .fwBlock
  | 0xA2 => some .fwCommit
  | 0xA3 => some .fwActivate
  | 0xA4 => some .storeRead
  | 0xB0 => some .tandemForm
  | 0xB1 => some .tandemSplit
  | 0xB2 => some .tandemStatus
  | _ => none

/-- The channel-mask kind of an opcode (R557). -/
def Opcode.maskKind : Opcode → MaskKind
  | .ping => .node
  | .openSession => .node
  | .closeSession => .node
  | .subscribe => .node
  | .replay => .node
  | .describe => .node
  | .keySet => .node
  | .setMode => .node
  | .steepRun => .node
  | .status => .node
  | .clearFaults => .zeroOrMany
  | .tickRealign => .node
  | .paramRead => .node
  | .paramWrite => .node
  | .paramSave => .node
  | .paramRestore => .node
  | .paramDefaults => .node
  | .readPosition => .many
  | .setPosition => .one
  | .calibrateAngle => .one
  | .extrapolate => .one
  | .historyRead => .one
  | .moveTo => .one
  | .moveBy => .one
  | .jog => .one
  | .stop => .many
  | .park => .many
  | .setLimits => .many
  | .gainSet => .many
  | .loopEnable => .many
  | .cascadeSet => .one
  | .latchArm => .one
  | .latchRead => .one
  | .hopAdd => .one
  | .hopRemove => .zeroOrMany
  | .hopList => .one
  | .emuSet => .one
  | .dacConfig => .many
  | .dacWrite => .many
  | .dacStrobe => .node
  | .waveLoad => .node
  | .wavePlay => .many
  | .waveStop => .many
  | .soundConfig => .node
  | .soundRead => .node
  | .zeroFlowCal => .node
  | .rtdRead => .node
  | .fanSet => .node
  | .fanRead => .node
  | .rollcall => .node
  | .relock => .node
  | .adopt => .node
  | .fold => .node
  | .unfold => .node
  | .lineStats => .node
  | .timeRead => .node
  | .faultRead => .node
  | .faultLog => .node
  | .pitchArm => .node
  | .pitchDisarm => .node
  | .refStatus => .node
  | .tickStats => .node
  | .fwBegin => .node
  | .fwBlock => .node
  | .fwCommit => .node
  | .fwActivate => .node
  | .storeRead => .node
  | .tandemForm => .node
  | .tandemSplit => .node
  | .tandemStatus => .node

/-- The lowest permission class of an opcode (R557, and the permission table after R65). -/
def Opcode.permClass : Opcode → PermClass
  | .ping => .none
  | .openSession => .none
  | .closeSession => .observer
  | .subscribe => .observer
  | .replay => .observer
  | .describe => .none
  | .keySet => .contextL
  | .setMode => .operator
  | .steepRun => .maintainer
  | .status => .observer
  | .clearFaults => .operator
  | .tickRealign => .engineer
  | .paramRead => .observer
  | .paramWrite => .engineer
  | .paramSave => .engineer
  | .paramRestore => .engineer
  | .paramDefaults => .engineer
  | .readPosition => .observer
  | .setPosition => .engineer
  | .calibrateAngle => .engineer
  | .extrapolate => .observer
  | .historyRead => .observer
  | .moveTo => .operator
  | .moveBy => .operator
  | .jog => .operator
  | .stop => .operator
  | .park => .operator
  | .setLimits => .engineer
  | .gainSet => .engineer
  | .loopEnable => .operator
  | .cascadeSet => .engineer
  | .latchArm => .operator
  | .latchRead => .observer
  | .hopAdd => .operator
  | .hopRemove => .operator
  | .hopList => .observer
  | .emuSet => .engineer
  | .dacConfig => .engineer
  | .dacWrite => .operator
  | .dacStrobe => .operator
  | .waveLoad => .engineer
  | .wavePlay => .operator
  | .waveStop => .operator
  | .soundConfig => .engineer
  | .soundRead => .observer
  | .zeroFlowCal => .engineer
  | .rtdRead => .observer
  | .fanSet => .operator
  | .fanRead => .observer
  | .rollcall => .maintainer
  | .relock => .maintainer
  | .adopt => .maintainer
  | .fold => .maintainer
  | .unfold => .maintainer
  | .lineStats => .observer
  | .timeRead => .observer
  | .faultRead => .observer
  | .faultLog => .observer
  | .pitchArm => .maintainer
  | .pitchDisarm => .maintainer
  | .refStatus => .observer
  | .tickStats => .observer
  | .fwBegin => .maintainer
  | .fwBlock => .maintainer
  | .fwCommit => .maintainer
  | .fwActivate => .maintainer
  | .storeRead => .observer
  | .tandemForm => .engineer
  | .tandemSplit => .engineer
  | .tandemStatus => .observer

/-- Whether an opcode needs a MAC from a line client while LINE.AUTHREQ is 1 (R66, R557). -/
def Opcode.needsMac : Opcode → Bool
  | .ping => false
  | .openSession => false
  | .closeSession => false
  | .subscribe => false
  | .replay => false
  | .describe => false
  | .keySet => false
  | .setMode => false
  | .steepRun => true
  | .status => false
  | .clearFaults => false
  | .tickRealign => true
  | .paramRead => false
  | .paramWrite => true
  | .paramSave => true
  | .paramRestore => true
  | .paramDefaults => true
  | .readPosition => false
  | .setPosition => true
  | .calibrateAngle => true
  | .extrapolate => false
  | .historyRead => false
  | .moveTo => true
  | .moveBy => true
  | .jog => true
  | .stop => true
  | .park => true
  | .setLimits => true
  | .gainSet => true
  | .loopEnable => true
  | .cascadeSet => true
  | .latchArm => false
  | .latchRead => false
  | .hopAdd => false
  | .hopRemove => false
  | .hopList => false
  | .emuSet => true
  | .dacConfig => true
  | .dacWrite => false
  | .dacStrobe => false
  | .waveLoad => true
  | .wavePlay => false
  | .waveStop => false
  | .soundConfig => true
  | .soundRead => false
  | .zeroFlowCal => true
  | .rtdRead => false
  | .fanSet => false
  | .fanRead => false
  | .rollcall => true
  | .relock => true
  | .adopt => true
  | .fold => true
  | .unfold => true
  | .lineStats => false
  | .timeRead => false
  | .faultRead => false
  | .faultLog => false
  | .pitchArm => true
  | .pitchDisarm => true
  | .refStatus => false
  | .tickStats => false
  | .fwBegin => true
  | .fwBlock => true
  | .fwCommit => true
  | .fwActivate => true
  | .storeRead => false
  | .tandemForm => true
  | .tandemSplit => true
  | .tandemStatus => false

/-- Whether the boot loader accepts an opcode (R108, R557). -/
def Opcode.boot : Opcode → Bool
  | .ping => true
  | .openSession => true
  | .closeSession => true
  | .subscribe => false
  | .replay => false
  | .describe => true
  | .keySet => true
  | .setMode => false
  | .steepRun => true
  | .status => true
  | .clearFaults => false
  | .tickRealign => false
  | .paramRead => false
  | .paramWrite => false
  | .paramSave => false
  | .paramRestore => false
  | .paramDefaults => false
  | .readPosition => false
  | .setPosition => false
  | .calibrateAngle => false
  | .extrapolate => false
  | .historyRead => false
  | .moveTo => false
  | .moveBy => false
  | .jog => false
  | .stop => false
  | .park => false
  | .setLimits => false
  | .gainSet => false
  | .loopEnable => false
  | .cascadeSet => false
  | .latchArm => false
  | .latchRead => false
  | .hopAdd => false
  | .hopRemove => false
  | .hopList => false
  | .emuSet => false
  | .dacConfig => false
  | .dacWrite => false
  | .dacStrobe => false
  | .waveLoad => false
  | .wavePlay => false
  | .waveStop => false
  | .soundConfig => false
  | .soundRead => false
  | .zeroFlowCal => false
  | .rtdRead => false
  | .fanSet => false
  | .fanRead => false
  | .rollcall => true
  | .relock => true
  | .adopt => true
  | .fold => false
  | .unfold => false
  | .lineStats => false
  | .timeRead => false
  | .faultRead => true
  | .faultLog => true
  | .pitchArm => false
  | .pitchDisarm => false
  | .refStatus => false
  | .tickStats => false
  | .fwBegin => true
  | .fwBlock => true
  | .fwCommit => true
  | .fwActivate => true
  | .storeRead => true
  | .tandemForm => false
  | .tandemSplit => false
  | .tandemStatus => false

/-- The parameter word counts an opcode takes (R557). -/
def Opcode.countOk (o : Opcode) (n : Nat) : Bool :=
  match o with
  | .ping => n ≤ 250
  | .openSession => n == 1
  | .closeSession => n == 0
  | .subscribe => 1 ≤ n && n ≤ 250
  | .replay => n == 1
  | .describe => n == 0
  | .keySet => n == 1 || n == 5
  | .setMode => n == 1
  | .steepRun => n == 0
  | .status => n == 0
  | .clearFaults => n == 1
  | .tickRealign => n == 0
  | .paramRead => 1 ≤ n && n ≤ 250
  | .paramWrite => 2 ≤ n && n ≤ 250 && n % 2 == 0
  | .paramSave => n == 0
  | .paramRestore => n == 0
  | .paramDefaults => n == 0
  | .readPosition => n == 0
  | .setPosition => n == 1
  | .calibrateAngle => n == 1 || n == 129
  | .extrapolate => n == 3 || n == 5
  | .historyRead => n == 3
  | .moveTo => n == 1
  | .moveBy => n == 1
  | .jog => n == 1
  | .stop => n == 0
  | .park => n == 0
  | .setLimits => n == 4
  | .gainSet => n == 4
  | .loopEnable => n == 1
  | .cascadeSet => 1 ≤ n && n ≤ 8
  | .latchArm => n == 1
  | .latchRead => n == 1
  | .hopAdd => 4 ≤ n && n ≤ 248 && n % 4 == 0
  | .hopRemove => 1 ≤ n && n ≤ 250
  | .hopList => n == 0
  | .emuSet => n == 5
  | .dacConfig => n == 4
  | .dacWrite => 1 ≤ n && n ≤ 4
  | .dacStrobe => n == 1
  | .waveLoad => 1 ≤ n && n ≤ 250
  | .wavePlay => n == 2 || n == 4
  | .waveStop => n == 0
  | .soundConfig => 2 ≤ n && n ≤ 250 && n % 2 == 0
  | .soundRead => n == 0
  | .zeroFlowCal => n == 1
  | .rtdRead => n == 0
  | .fanSet => n == 1
  | .fanRead => n == 0
  | .rollcall => n == 1 || n == 2
  | .relock => n == 1
  | .adopt => n == 1
  | .fold => n == 0
  | .unfold => n == 1
  | .lineStats => n == 0
  | .timeRead => n == 0
  | .faultRead => n == 0
  | .faultLog => n == 1
  | .pitchArm => n == 2
  | .pitchDisarm => n == 1
  | .refStatus => n == 0
  | .tickStats => n == 0
  | .fwBegin => n == 1
  | .fwBlock => 3 ≤ n && n ≤ 249
  | .fwCommit => n == 0
  | .fwActivate => n == 0
  | .storeRead => n == 2
  | .tandemForm => n == 1
  | .tandemSplit => n == 0
  | .tandemStatus => n == 0

/-- The event codes (R565). -/
inductive EventCode where
  | fault
  | autotrack
  | tickRate
  | timeStep
  | timeSource
  | syncin
  | refuted
  | firedRefuted
  | posShift
  | hopEnd
  | latch
  | latchLost
  | overshoot
  | waveEnd
  | clrn
  | hopMismatch
  | topology
  | coreUp
  | adopted
  deriving DecidableEq, Repr

/-- The value of an event code (R565). -/
def EventCode.code : EventCode → Nat
  | .fault => 0x0701
  | .autotrack => 0x0702
  | .tickRate => 0x0703
  | .timeStep => 0x0704
  | .timeSource => 0x0705
  | .syncin => 0x0706
  | .refuted => 0x0710
  | .firedRefuted => 0x0711
  | .posShift => 0x0712
  | .hopEnd => 0x0720
  | .latch => 0x0721
  | .latchLost => 0x0722
  | .overshoot => 0x0730
  | .waveEnd => 0x0740
  | .clrn => 0x0741
  | .hopMismatch => 0x0750
  | .topology => 0x0751
  | .coreUp => 0x0752
  | .adopted => 0x0753

/-- Every event code (R565, operation ALL). -/
def EventCode.all : List EventCode :=
  [.fault, .autotrack, .tickRate, .timeStep, .timeSource, .syncin, .refuted, .firedRefuted, .posShift, .hopEnd, .latch, .latchLost, .overshoot, .waveEnd, .clrn, .hopMismatch, .topology, .coreUp, .adopted]

/-- The event code of a value, none for a value the table does not list (R565). -/
def EventCode.ofCode (v : Nat) : Option EventCode := EventCode.all.find? fun e => e.code == v

/-- The fault codes (R520). -/
inductive FaultCode where
  | excOc
  | excOpen
  | inClip
  | carrierPhase
  | sincosRate
  | hallInvalid
  | ssiTimeout
  | ssiCrc
  | ssiErrbit
  | los
  | dos
  | lot
  | indexDrift
  | emuRate
  | ferr
  | deadline
  | dacShort
  | dacOpen
  | supply
  | refV
  | refT
  | medium
  | rtdOpen
  | rtdShort
  | rtdHot
  | fanBlocked
  | tachWire
  | fanStopped
  | ductBlocked
  | lineCrc
  | cycTimeout
  | lineCycle
  | partnerLost
  | steep
  | storeEcc
  | sramEcc
  | watchdog
  | overtemp
  | logWrite
  deriving DecidableEq, Repr

/-- The value of a fault code (R520). -/
def FaultCode.code : FaultCode → Nat
  | .excOc => 0x0101
  | .excOpen => 0x0102
  | .inClip => 0x0103
  | .carrierPhase => 0x0104
  | .sincosRate => 0x0105
  | .hallInvalid => 0x0106
  | .ssiTimeout => 0x0107
  | .ssiCrc => 0x0108
  | .ssiErrbit => 0x0109
  | .los => 0x0111
  | .dos => 0x0112
  | .lot => 0x0113
  | .indexDrift => 0x0114
  | .emuRate => 0x0121
  | .ferr => 0x0131
  | .deadline => 0x0132
  | .dacShort => 0x0141
  | .dacOpen => 0x0142
  | .supply => 0x0143
  | .refV => 0x0151
  | .refT => 0x0152
  | .medium => 0x0161
  | .rtdOpen => 0x0162
  | .rtdShort => 0x0163
  | .rtdHot => 0x0164
  | .fanBlocked => 0x0165
  | .tachWire => 0x0166
  | .fanStopped => 0x0167
  | .ductBlocked => 0x0168
  | .lineCrc => 0x0171
  | .cycTimeout => 0x0172
  | .lineCycle => 0x0173
  | .partnerLost => 0x0181
  | .steep => 0x0191
  | .storeEcc => 0x0192
  | .sramEcc => 0x0193
  | .watchdog => 0x0194
  | .overtemp => 0x0195
  | .logWrite => 0x0196

/-- Every fault code (R520). -/
def FaultCode.all : List FaultCode :=
  [.excOc, .excOpen, .inClip, .carrierPhase, .sincosRate, .hallInvalid, .ssiTimeout, .ssiCrc, .ssiErrbit, .los, .dos, .lot, .indexDrift, .emuRate, .ferr, .deadline, .dacShort, .dacOpen, .supply, .refV, .refT, .medium, .rtdOpen, .rtdShort, .rtdHot, .fanBlocked, .tachWire, .fanStopped, .ductBlocked, .lineCrc, .cycTimeout, .lineCycle, .partnerLost, .steep, .storeEcc, .sramEcc, .watchdog, .overtemp, .logWrite]

/-- The fault code of a value (R520). -/
def FaultCode.ofCode (v : Nat) : Option FaultCode := FaultCode.all.find? fun f => f.code == v

/-- Whether a pitch point of a fault has channel scope (R520, R530); RTD points have the scope of RTD.CHAN. -/
def FaultCode.channelScope : FaultCode → Bool
  | .excOc => true
  | .excOpen => true
  | .inClip => true
  | .carrierPhase => true
  | .sincosRate => true
  | .hallInvalid => true
  | .ssiTimeout => true
  | .ssiCrc => true
  | .ssiErrbit => true
  | .los => true
  | .dos => true
  | .lot => true
  | .indexDrift => true
  | .emuRate => true
  | .ferr => true
  | .deadline => true
  | .dacShort => true
  | .dacOpen => true
  | .supply => true
  | .refV => false
  | .refT => false
  | .medium => false
  | .rtdOpen => false
  | .rtdShort => false
  | .rtdHot => false
  | .fanBlocked => false
  | .tachWire => false
  | .fanStopped => false
  | .ductBlocked => false
  | .lineCrc => false
  | .cycTimeout => false
  | .lineCycle => false
  | .partnerLost => true
  | .steep => false
  | .storeEcc => false
  | .sramEcc => false
  | .watchdog => false
  | .overtemp => false
  | .logWrite => false

/-- Whether the pitch point is a detector-output injection (R520). -/
def FaultCode.detectorOutput : FaultCode → Bool
  | .excOc => true
  | .excOpen => true
  | .inClip => false
  | .carrierPhase => false
  | .sincosRate => true
  | .hallInvalid => false
  | .ssiTimeout => false
  | .ssiCrc => false
  | .ssiErrbit => false
  | .los => false
  | .dos => false
  | .lot => false
  | .indexDrift => false
  | .emuRate => true
  | .ferr => false
  | .deadline => false
  | .dacShort => true
  | .dacOpen => true
  | .supply => false
  | .refV => false
  | .refT => false
  | .medium => false
  | .rtdOpen => false
  | .rtdShort => false
  | .rtdHot => false
  | .fanBlocked => false
  | .tachWire => false
  | .fanStopped => true
  | .ductBlocked => true
  | .lineCrc => false
  | .cycTimeout => false
  | .lineCycle => true
  | .partnerLost => false
  | .steep => true
  | .storeEcc => false
  | .sramEcc => false
  | .watchdog => true
  | .overtemp => false
  | .logWrite => true

/-- The faults whose condition ceases at the instant of the raise (R506); the uncorrectable ECC forms are judged by
their class. -/
def FaultCode.eventLike : FaultCode → Bool
  | .lot | .deadline | .watchdog | .logWrite | .sramEcc | .storeEcc => true
  | _ => false

/-- The faults for whose context word the spec names a content (R103, R112, R150, R181, R224, R376, R395, R397, R438, R521,
R523). -/
def FaultCode.hasContext : FaultCode → Bool
  | .steep | .refT | .refV | .hallInvalid | .indexDrift | .medium | .ductBlocked | .fanBlocked | .tachWire | .fanStopped
  | .lineCrc | .overtemp | .sramEcc | .storeEcc => true
  | _ => false

/-- Whether the summary table permits an opcode in a mode: CASK, TRACK, DRIVE, TANDEM (R557). The conditions its entry
cites for a mode (LATCH_ARM in CASK, PITCH_ARM in DRIVE, LEARN) are judged by the opcode. -/
def Opcode.modes : Opcode → Bool × Bool × Bool × Bool
  | .ping => (true, true, true, true)
  | .openSession => (true, true, true, true)
  | .closeSession => (true, true, true, true)
  | .subscribe => (true, true, true, true)
  | .replay => (true, true, true, true)
  | .describe => (true, true, true, true)
  | .keySet => (true, true, true, true)
  | .setMode => (true, true, true, true)
  | .steepRun => (true, false, false, false)
  | .status => (true, true, true, true)
  | .clearFaults => (true, true, true, true)
  | .tickRealign => (true, true, true, false)
  | .paramRead => (true, true, true, true)
  | .paramWrite => (true, true, true, true)
  | .paramSave => (true, true, true, true)
  | .paramRestore => (true, false, false, false)
  | .paramDefaults => (true, false, false, false)
  | .readPosition => (true, true, true, true)
  | .setPosition => (true, true, true, true)
  | .calibrateAngle => (true, true, true, true)
  | .extrapolate => (true, true, true, true)
  | .historyRead => (true, true, true, true)
  | .moveTo => (false, false, true, true)
  | .moveBy => (false, false, true, true)
  | .jog => (false, false, true, true)
  | .stop => (false, false, true, true)
  | .park => (false, false, true, true)
  | .setLimits => (false, true, true, true)
  | .gainSet => (false, true, true, true)
  | .loopEnable => (false, true, true, true)
  | .cascadeSet => (false, true, true, true)
  | .latchArm => (true, true, true, true)
  | .latchRead => (true, true, true, true)
  | .hopAdd => (false, true, true, true)
  | .hopRemove => (true, true, true, true)
  | .hopList => (true, true, true, true)
  | .emuSet => (true, true, true, true)
  | .dacConfig => (true, true, true, true)
  | .dacWrite => (false, true, true, true)
  | .dacStrobe => (false, true, true, true)
  | .waveLoad => (true, true, true, true)
  | .wavePlay => (false, true, true, true)
  | .waveStop => (true, true, true, true)
  | .soundConfig => (true, true, true, true)
  | .soundRead => (true, true, true, true)
  | .zeroFlowCal => (true, true, false, false)
  | .rtdRead => (true, true, true, true)
  | .fanSet => (true, true, true, true)
  | .fanRead => (true, true, true, true)
  | .rollcall => (true, true, true, true)
  | .relock => (true, false, false, false)
  | .adopt => (true, false, false, false)
  | .fold => (true, true, true, true)
  | .unfold => (true, true, true, true)
  | .lineStats => (true, true, true, true)
  | .timeRead => (true, true, true, true)
  | .faultRead => (true, true, true, true)
  | .faultLog => (true, true, true, true)
  | .pitchArm => (true, true, true, true)
  | .pitchDisarm => (true, true, true, true)
  | .refStatus => (true, true, true, true)
  | .tickStats => (true, true, true, true)
  | .fwBegin => (true, true, true, true)
  | .fwBlock => (true, true, true, true)
  | .fwCommit => (true, true, true, true)
  | .fwActivate => (true, true, false, false)
  | .storeRead => (true, true, true, true)
  | .tandemForm => (false, true, false, false)
  | .tandemSplit => (false, false, false, true)
  | .tandemStatus => (true, true, true, true)

/-- Opcodes of completion A (R557): an accepted command answers ACCEPTED and, later, a final status. -/
def Opcode.answersLater : Opcode → Bool
  | .keySet | .steepRun | .paramSave | .paramRestore | .moveTo | .moveBy | .wavePlay | .zeroFlowCal | .rollcall | .adopt
  | .unfold | .fwBlock | .fwCommit | .fwActivate | .tandemForm | .tandemSplit => true
  | _ => false

/-- Whether an opcode writes to the channels it names (chapter 02, the table before R66). -/
def Opcode.writes : Opcode → Bool
  | .ping => false
  | .openSession => false
  | .closeSession => false
  | .subscribe => false
  | .replay => false
  | .describe => false
  | .keySet => false
  | .setMode => false
  | .steepRun => false
  | .status => false
  | .clearFaults => false
  | .tickRealign => false
  | .paramRead => false
  | .paramWrite => true
  | .paramSave => false
  | .paramRestore => false
  | .paramDefaults => false
  | .readPosition => false
  | .setPosition => true
  | .calibrateAngle => true
  | .extrapolate => false
  | .historyRead => false
  | .moveTo => true
  | .moveBy => true
  | .jog => true
  | .stop => true
  | .park => true
  | .setLimits => true
  | .gainSet => true
  | .loopEnable => true
  | .cascadeSet => true
  | .latchArm => true
  | .latchRead => false
  | .hopAdd => true
  | .hopRemove => true
  | .hopList => false
  | .emuSet => true
  | .dacConfig => true
  | .dacWrite => true
  | .dacStrobe => true
  | .waveLoad => true
  | .wavePlay => true
  | .waveStop => true
  | .soundConfig => false
  | .soundRead => false
  | .zeroFlowCal => false
  | .rtdRead => false
  | .fanSet => false
  | .fanRead => false
  | .rollcall => false
  | .relock => false
  | .adopt => false
  | .fold => false
  | .unfold => false
  | .lineStats => false
  | .timeRead => false
  | .faultRead => false
  | .faultLog => false
  | .pitchArm => false
  | .pitchDisarm => false
  | .refStatus => false
  | .tickStats => false
  | .fwBegin => false
  | .fwBlock => false
  | .fwCommit => false
  | .fwActivate => false
  | .storeRead => false
  | .tandemForm => false
  | .tandemSplit => false
  | .tandemStatus => false

end Sys2Proof.Machine
end

