-- ==== Sys2Proof/Machine/TypesCellar.lean ====
section
/-!
DEFINITION. The state kept through a core reset (R18, R65, R81, R110, R444, R555): power and pins, the time base,
clients with their sessions, replies and events, the host port, and the non-volatile store (16_firmware_and_store.md).
Field defaults are the values of State.reset.
-/
namespace Sys2Proof.Machine

/-- The four modes (R44). -/
inductive Mode where
  | cask
  | track
  | drive
  | tandem
  deriving DecidableEq, Repr

/-- The time marks (R144). -/
inductive TimeMark where
  | lineTime
  | localTime
  | localEpoch
  deriving DecidableEq, Repr

/-- The tick rates (R122). -/
inductive TickRate where
  | k8
  | k16
  | k32
  deriving DecidableEq, Repr

/-- A command stream: a line client or context L (R61, R63). -/
inductive Client where
  | line (id : BitVec 8)
  | ctxL
  deriving DecidableEq, Repr

/-- A reply packet: the fields of Y0 and Y1 and the reply words (R54); the check follows from them. -/
structure ReplyPkt where
  opcode : Nat
  client : BitVec 8
  tag : Nat
  green : Bool := false
  final : Bool := true
  replayed : Bool := false
  more : Bool := false
  status : Nat := 0
  tick : Nat := 0
  words : List Word := []
  deriving DecidableEq, Repr

/-- A reply packet on its way out, with its receiver and whether it is an event (R56, R57). -/
structure OutItem where
  dest : Client
  isEvent : Bool
  pkt : ReplyPkt
  deriving DecidableEq, Repr

/-- A cached final reply with its tag: all packets of it (R81). -/
structure CachedReply where
  tag : BitVec 12
  pkts : List ReplyPkt
  deriving DecidableEq, Repr

/-- What the node keeps per client: replay cache newest first (R81), subscriptions (R565), event sequence number
(R56, R444) and the refutation bit of S40 (R45). -/
structure ClientRec where
  client : Client
  cache : List CachedReply := []
  subs : List EventCode := []
  seq : BitVec 16 := 0
  refuted : Bool := false
  deriving DecidableEq, Repr

/-- An open session of a line client (R61 to R65). -/
structure Session where
  id : BitVec 8
  cls : PermClass
  nonce : BitVec 64
  /-- elapsed time of its latest packet, ns -/
  lastNs : Nat
  deriving DecidableEq, Repr

/-- Rails, interlock pins, TAP and what the node drives on SYNCOUT (R88, R138, R143, R579 to R604). -/
structure Power where
  /-- VCEL is valid -/
  vcel : Bool := false
  /-- every rail of R88 is within its range -/
  railsGood : Bool := false
  /-- measured AVDDH and AVSS in mV (R335) -/
  avddh : Int := 0
  avss : Int := 0
  resetn : Bool := true
  cresetn : Bool := true
  clrn : Bool := true
  /-- TAP instruction code in force (R602) -/
  tapIr : Nat := 15
  /-- the 86 cells of the boundary register (R603) -/
  boundary : BitVec 86 := 0
  /-- SYNCOUT's latest pulse starts at this elapsed time, which may lie ahead (R143) -/
  syncoutFrom : Nat := 0
  /-- SYNCOUT stays high until this elapsed time (R143) -/
  syncoutHighUntil : Option Nat := none
  /-- no new SYNCOUT pulse starts before this elapsed time (low time of 100 ns, R143) -/
  syncoutLowUntil : Nat := 0
  deriving DecidableEq, Repr

/-- The cause of a core reset as R442 codes it. -/
inductive DropCause where
  | coreReset
  | drain
  | steepRun
  deriving DecidableEq, Repr

/-- The Steep triggers (R89). -/
inductive SteepTrigger where
  | powerUp
  | coreReset
  | steepRun
  | activation
  deriving DecidableEq, Repr

/-- Elapsed instants of the time base and the time in force (R130 to R155). -/
structure TimeBase where
  /-- elapsed ns at P0 of the tick in progress (R619) -/
  p0e : Nat := 0
  /-- ns after that P0 of the latest command -/
  dt : Nat := 0
  /-- the time in force at that P0, LT64 in ns (R130) -/
  lt : Nat := 0
  k48 : Nat := 0
  mark : TimeMark := .localEpoch
  rate : TickRate := .k16
  /-- output instant in force, ns after P0 (R123) -/
  outat : Nat := 52000
  /-- the output instant of the tick in progress has run -/
  outDone : Bool := false
  /-- a realignment has placed the new P0: the next FRAME_TICK is that P0 and does not advance the time (R137) -/
  placed : Bool := false
  /-- that new P0 is a forward step's: a scheduled command whose tick K48 has now reached was passed (R135) -/
  stepped : Bool := false
  /-- a rate change that waits for its boundary: the new rate, the output instant the packet wrote, the command,
  and whether it belongs to PARAM_DEFAULTS (R128, R543) -/
  pendingRate : Option (TickRate × Option Nat × Nat × Bool) := none
  /-- the rate and output instant of a restored configuration, which wait behind a pending change (R128, R542) -/
  nextRate : Option (TickRate × Nat) := none
  /-- the offset of the time in force from the time it should follow, ps, positive when behind (R133) -/
  offsetPs : Int := 0
  slewing : Bool := false
  /-- a correction under R147 is under way: the mark becomes LINE when it completes -/
  returning : Bool := false
  /-- a step waits for its tick multiple: the ns to add (R134) -/
  stepDue : Option Int := none
  /-- crystal time is to be put in force at the next P0 (R152) -/
  fallbackDue : Bool := false
  /-- crystal time was put in force under R152 -/
  fallback : Bool := false
  /-- consecutive windows inside ±100 ppm since the fallback (R152) -/
  goodWindows : Nat := 0
  /-- line time has been received since VCEL became valid (R132) -/
  received : Bool := false
  /-- elapsed time of the latest SYNC frame that passed its check, while holdover has not ended (R146) -/
  lastSync : Option Nat := none
  /-- the latest measured offset of the time in force from line time, ns (R154 word 6) -/
  measuredOffset : Int := 0
  /-- start of the open drift window: line time and elapsed time (R149) -/
  windowOpen : Option (Nat × Nat) := none
  /-- the line time formed at the latest arrival of a SYNC frame, and the elapsed time of that arrival (R149, R427) -/
  lineAt : Option (Nat × Nat) := none
  /-- deviation of the latest closed window, ppb (R154 word 5); zero when none -/
  devPpb : Int := 0
  /-- the latest closed window lay inside ±100 ppm -/
  insideBand : Bool := false
  /-- the criterion of F.REF_T holds for line time and for the crystal (R150) -/
  driftOut : Bool := false
  crystalOut : Bool := false
  /-- consecutive windows beyond ±200 ppm (R150) -/
  badWindows : Nat := 0
  /-- elapsed time of the latest realignment (R139) -/
  lastRealign : Option Nat := none
  /-- an accepted ALIGN edge places a new P0 at this elapsed time (R138) -/
  alignDue : Option Nat := none
  /-- the counts of TICK_STATS, words 0 to 6 (R155) -/
  realigns : Nat := 0
  steps : Nat := 0
  skipped : Nat := 0
  ignoredAligns : Nat := 0
  narrow : Nat := 0
  misses : Nat := 0
  /-- P2 uses of the latest second that no later one reaches, newest first: time of the P0 and ns -/
  p2 : List (Nat × Nat) := []
  deriving DecidableEq, Repr

/-- What the cellar holds of a restart in progress (R116, R443, R445, R509, R553). -/
structure Restart where
  /-- the trigger of the Steep that is due or running -/
  trigger : SteepTrigger := .powerUp
  cause : DropCause := .coreReset
  /-- the watchdog caused the reset; the Boolean says it was injected (R509, R533) -/
  watchdog : Option Bool := none
  /-- DROPPED replies waiting for the CASK entry, in acceptance order (R443) -/
  dropped : List OutItem := []
  /-- tagged commands and hop entries ended per client (R445) -/
  counts : List (Client × Nat × Nat) := []
  /-- the Steep was started by a revert (R106) -/
  revert : Bool := false
  /-- the Steep word of the run that led to the revert (R116) -/
  firstWord : Option Word := none
  /-- an UPDATING answer instead of CORE_RESET (R91, R448) -/
  updating : Bool := false
  /-- the restart follows a core reset, so EV.CORE_UP is due (R445) -/
  coreUpDue : Bool := false
  /-- the latest TDC loopback that ran has failed (R99) -/
  tdcFailed : Bool := false
  deriving DecidableEq, Repr

/-- A tagged command whose reply the cellar holds through a Steep (R116, R465, R553). -/
structure HeldTag where
  client : Client
  packet : Packet
  order : Nat
  deriving DecidableEq, Repr

/-- Image slot states (R547). -/
inductive SlotState where
  | empty
  | receiving
  | pending
  | trial
  | established
  | rejected
  deriving DecidableEq, Repr

/-- Sparse memory: address and byte pairs with strictly rising addresses and no zero byte (an unlisted byte reads 0). -/
abbrev ByteMem := List Host.Cell

/-- An image slot (R544, R546, R547): its page fields, length, bytes and the 8-byte units written. -/
structure ImageSlot where
  state : SlotState := .empty
  seq : Nat := 0
  failed : Nat := 0
  length : Nat := 0
  bytes : ByteMem := []
  units : List Nat := []
  deriving DecidableEq, Repr

/-- A stored configuration (R538): generation 0 holds none. -/
structure Config where
  generation : Nat := 0
  version : Nat := 0
  records : List (Nat × Word) := []
  maps : Quad (List (BitVec 16)) := Quad.all (List.replicate 256 0)
  deriving DecidableEq, Repr

/-- A shadow of a neighbour's configuration (R461): its header and the configuration bytes it carries. -/
structure Shadow where
  ownerPos : BitVec 10
  ownerSig : Word
  generation : BitVec 32
  crc : BitVec 32
  bytes : List Byte
  deriving DecidableEq, Repr

/-- A persisted wave table: number, base and samples (R349). -/
structure SavedTable where
  table : Nat
  base : Nat
  samples : List (BitVec 18)
  deriving DecidableEq, Repr

/-- The five words of a fault log entry less the sequence number it carries (R517). -/
structure LogEntry where
  code : FaultCode
  cls : Nat
  scope : Nat
  kind : Nat
  raised : Bool
  injected : Bool
  mark : TimeMark
  lt : Nat
  ctx : Word
  seq : BitVec 16 := 0
  occurrences : Nat
  deriving DecidableEq, Repr

/-- The kinds of waiting store writes, in the order they are served (R537). -/
inductive WriteKind where
  | nodePage
  | config (slot : Bool) (c : Config)
  | zeroCal (items : List (Nat × Word))
  | wave (t : SavedTable)
  | waveDelete (table : Nat)
  | shadow (up : Bool) (x : Shadow)
  | fwBlock (offset : Nat) (bytes : List Byte)
  deriving DecidableEq, Repr

/-- A waiting store write, with the order number of the command that waits for it (R537). -/
structure StoreWrite where
  kind : WriteKind
  op : Option Nat
  words : List Word := []
  deriving DecidableEq, Repr

/-- The non-volatile store (R535). -/
structure Store where
  images : Duo ImageSlot
  configs : Duo Config := ⟨{}, {}⟩
  /-- slots whose CRC failed at the latest Steep and that have not been written since (R97, R542) -/
  cfgBad : Duo Bool := ⟨false, false⟩
  shadowUp : Option Shadow := none
  shadowDn : Option Shadow := none
  tables : List SavedTable := []
  log : List LogEntry := []
  logSeq : BitVec 16 := 0
  caskLocked : Bool := false
  key : Option (BitVec 128) := none
  writes : List StoreWrite := []
  /-- single-bit errors corrected in place (R536) -/
  corrected : Nat := 0
  deriving DecidableEq, Repr

/-- The host port of the cellar (R584 to R600). -/
structure HostPort where
  /-- packets waiting in the receive buffer, oldest first, with their byte counts (R588) -/
  rx : List (List Byte) := []
  /-- reply packets in the reply buffer (R589) -/
  replies : List ReplyPkt := []
  /-- replies formed while the buffer lacked room (R589) -/
  overflow : List ReplyPkt := []
  lineQueue : List (BitVec 16 × List Byte) := []
  /-- the line queue has been above half since its latest fall below half (R599) -/
  lineqHigh : Bool := false
  mntQueue : List (List Byte) := []
  /-- the payload of SLOTS_WRITE with its elapsed instant, the one before it for cycles within 10 µs (R593) -/
  slots : Option (Nat × List Byte) := none
  slotsOld : List Byte := []
  /-- cycle data ready to read: cycle blocks or the latest outbound slot (R594, R595) -/
  blocks : List (List Byte) := []
  overrun : Bool := false
  causes : BitVec 16 := 0
  mask : BitVec 16 := 0x13
  errors : BitVec 32 := 0
  /-- the bytes the node drove in the latest read transaction -/
  driven : List Byte := []
  deriving DecidableEq, Repr

end Sys2Proof.Machine
end

