-- ==== Sys2Proof/Machine/TypesChannel.lean ====
section
/-!
DEFINITION. The state of a channel's front end and tracking converter (05_resolver_front_end.md,
06_tracking_converter.md, 07_green_and_kilned.md). Angles and velocities named "fx" are integers in units of 2^-64 turn
and turn/s (log entry 5); voltages are in µV. Field defaults are the values after Steep.
-/
namespace Sys2Proof.Machine

/-- An instant: its LT64 stamp with its time mark (R144) and its elapsed time (R619). -/
structure Stamp where
  lt : Nat := 0
  mark : TimeMark := .localEpoch
  e : Nat := 0
  deriving DecidableEq, Repr

/-- The entry carrier-phase measurement (R171, R172, R175). -/
structure Meas where
  need : Nat
  /-- elapsed P0 at which the measurement started: windows that close after it count -/
  since : Nat := 0
  got : Nat := 0
  num : Int := 0
  den : Int := 0
  judged : Nat := 0
  low : Nat := 0
  deriving DecidableEq, Repr

/-- The excitation of a channel (R158 to R163, R171 to R175, R191, R194). -/
structure Exc where
  on : Bool := false
  /-- elapsed end of the ramp while it runs (R163) -/
  rampEnd : Option Nat := none
  /-- elapsed instant from which the excitation has its full amplitude -/
  fullSince : Option Nat := none
  /-- a stop waits for the upward zero crossing at this elapsed time (R163) -/
  stopAt : Option Nat := none
  /-- a start waits for the crossing, or for the next P0 -/
  startDue : Bool := false
  /-- driver held off by F.EXC_OC (R191) -/
  tripped : Bool := false
  /-- EXC.FREQ, EXC.AMPL, EXC.BUFFER and EXC.BUFGAIN in force (R194) -/
  freq : Nat := 10000
  ampl : Nat := 30
  buffer : Bool := false
  bufGain : Nat := 4
  /-- carrier-phase compensation in use, fx turns (R169) -/
  phiC : Int := 0
  /-- EXC.PHASE, 0.1° -/
  phase : Int := 0
  meas : Option Meas := none
  /-- consecutive clean windows beyond EXC.PHTOL (R174) -/
  phCount : Nat := 0
  ocCount : Nat := 0
  openCount : Nat := 0
  deriving DecidableEq, Repr

/-- SINCOS input (R176 to R178): the interpolated count and the last phase. -/
structure SinCosIn where
  count : Int := 0
  phase : Option Int := none
  fast : Bool := false
  deriving DecidableEq, Repr

/-- HALL input (R179 to R182, R207). -/
structure HallIn where
  code : BitVec 3 := 0
  sector : Option Nat := none
  count : Int := 0
  /-- raw position of the latest edge, fx turns -/
  u : Int := 0
  /-- bounds of the present sector, fx turns -/
  lo : Int := 0
  hi : Int := 0
  /-- the latest edge; the first valid code is none (R207) -/
  lastEdge : Option Stamp := none
  v : Int := 0
  invalidSince : Option Nat := none
  /-- the invalid code was forced by an injection -/
  forced : Bool := false
  stopAt : Option Nat := none
  /-- an edge came since the latest P0 -/
  fresh : Bool := false
  deriving DecidableEq, Repr

/-- Why an SSI read failed (R185). -/
inductive SsiFail where
  | timeout
  | crc
  | errbit
  deriving DecidableEq, Repr

/-- The outcome of an SSI read: the position field, or the first failing check (R185). -/
inductive SsiOutcome where
  | pass (field : Nat)
  | fail (f : SsiFail)
  deriving DecidableEq, Repr

/-- A finished SSI read on its way to the tracking update (R188): its sample instant, the elapsed time of its last bit,
and the position field or the failure. -/
structure SsiResult where
  start : Stamp
  lastBit : Nat
  word : SsiOutcome
  deriving DecidableEq, Repr

/-- SSI input (R183 to R190, R208). -/
structure SsiIn where
  /-- sample instant of the read in progress -/
  reading : Option Stamp := none
  /-- elapsed time from which the next read may start -/
  readyAt : Nat := 0
  /-- elapsed instant at which IN.SSIMONO passes after the last clock edge of the read just taken -/
  monoAt : Option Nat := none
  /-- the read just taken already counted as a timeout -/
  timedOut : Bool := false
  /-- a word just taken failed its CRC or error bit; it is counted when the monoflop time has shown that no timeout, the first
  check, names the failure; the Boolean says whether it was injected (R185) -/
  failed : Option (SsiFail × Bool) := none
  /-- sample instants without a word that wait for the word of an earlier instant, oldest first (R201) -/
  skipped : List Stamp := []
  result : Option SsiResult := none
  misses : Nat := 0
  missesBefore : Nat := 0
  errCnt : Nat := 0
  /-- turn-counted position in units of the single-turn bit, and the latest raw field (R208) -/
  pos : Option (Int × Nat) := none
  deriving DecidableEq, Repr

/-- A kilned value: raw position in au before POS.OFFSET, V40, the input count, its sample instant (R206, R227); the angle in au
whose zeros are the virtual indices, before the map correction on an SSI channel (R223); and how many steps had coasted before it (R230). -/
structure Kil where
  u : Int
  v : Int
  cnt : Int
  st : Stamp
  ang : Int := 0
  coasts : Nat := 0
  deriving DecidableEq, Repr

/-- The basis of the green position P_g (R211): raw position in au, V40, its sample instant, whether it was coasted. -/
structure Basis where
  u : Int := 0
  v : Int := 0
  st : Stamp := {}
  coast : Bool := false
  deriving DecidableEq, Repr

/-- Progress of acquisition (R202): waiting for the first clean measurement, counting, or ended. -/
inductive Acq where
  | first
  | counting (n : Nat)
  | done
  deriving DecidableEq, Repr

/-- A step whose row is still to come: the last measurement tick (R172), the 16th consecutive step (R202) or the first
settled sample (R221). -/
inductive StepDue where
  | carrier (is qs ic qc : Int) (clean : Bool) (st : Stamp)
  | acquired (st : Stamp)
  | settled (m : Int) (clean : Bool) (st : Stamp)
  deriving DecidableEq, Repr

/-- Learning of a map (R215). -/
structure Learn where
  op : Nat
  /-- the uncorrected angle has crossed zero and the collection runs -/
  started : Bool := false
  /-- measurements of the running turn: elapsed ns and unwrapped angle, fx turns, newest first -/
  turn : List (Nat × Int) := []
  /-- elapsed time of the latest zero crossing, fx ns -/
  cross : Int := 0
  turns : Nat := 0
  /-- duration of each turn, fx ns -/
  spans : List Int := []
  /-- per bin: sum of the residuals in fx turns and their count -/
  bins : List (Int × Nat) := []
  dir : Bool := true
  last : Option (Nat × Int) := none
  /-- collection ended: `some none` for CAL_UNSTABLE, `some (some map)` for a map -/
  outcome : Option (Option (List Int)) := none
  deriving DecidableEq, Repr

/-- Tracking converter of a channel (R195 to R224, R238). -/
structure Trk where
  running : Bool := false
  /-- loop angle and velocity, fx -/
  th : Int := 0
  v : Int := 0
  /-- elapsed time of the previous sample instant -/
  prev : Option Nat := none
  acq : Acq := .first
  /-- a coasted or kilned position exists since Steep (R204) -/
  held : Bool := false
  /-- the latest step coasted (R203) -/
  coast : Bool := false
  /-- latest kilned value, the one before it, and the latest at or before P0 of the tick in progress -/
  kil : Option Kil := none
  kilBefore : Option Kil := none
  kilTick : Option Kil := none
  /-- steps that have coasted: two kilned values span a coast where their counts differ (R261) -/
  coasts : Nat := 0
  /-- a kilned value exists since tracking started (R230) -/
  valid : Bool := false
  /-- the tick in progress yielded a kilned value (S40 [15:8]) -/
  fresh : Bool := false
  basis : Basis := {}
  /-- direction D, forward when true, and the furthest position in it, in its counting unit (R212) -/
  dir : Bool := true
  extreme : Option Int := none
  /-- remaining ticks of the settle window; the tick after it takes the first settled sample (R219) -/
  settle : Nat := 0
  settleEnding : Bool := false
  /-- |r| of the latest 16 clean steps, au; V40 and elapsed instant of the latest 32 kilned steps, newest first (R238) -/
  rs : List Nat := []
  vs : List (Int × Nat) := []
  kilned : Nat := 0
  losCount : Nat := 0
  dosCount : Nat := 0
  /-- LOS or DOS level breached in the latest tick (R218) -/
  losLow : Bool := false
  dosLow : Bool := false
  /-- track amplitude estimates, fx µV; none before the first -/
  estS : Option Int := none
  estC : Option Int := none
  /-- latest e, fx turns, and latest M in fx µV peak -/
  err : Int := 0
  ampl : Int := 0
  map : List (BitVec 16) := List.replicate 256 0
  /-- a map that takes effect at the next P0 (R214, R215) -/
  mapNext : Option (List (BitVec 16)) := none
  learn : Option Learn := none
  idxCnt : Word := 0
  /-- raw position of the latest index, au -/
  idxU : Option Int := none
  idxNum : Word := 0
  idxErr : Int := 0
  /-- count of the index before, and whether D has changed since (R224) -/
  idxPrev : Option Int := none
  idxDirChanged : Bool := false
  /-- index edges that wait for the first sample after them, oldest first -/
  idxDue : List Stamp := []
  due : Option StepDue := none
  deriving DecidableEq, Repr

/-- A sinc3 decimator (R166): the running sums of its three integrators, the delays of its three combs, and the modulator clocks since
its latest output. -/
structure Sinc3 where
  i1 : Int := 0
  i2 : Int := 0
  i3 : Int := 0
  d1 : Int := 0
  d2 : Int := 0
  d3 : Int := 0
  clocks : Nat := 0
  deriving DecidableEq, Repr

/-- A channel's front end and tracking converter. -/
structure Front where
  exc : Exc := {}
  /-- the decimators of SIN and COS (R166) -/
  sinDec : Sinc3 := {}
  cosDec : Sinc3 := {}
  /-- decimated samples, newest first, in µV -/
  sin : List Int := []
  cos : List Int := []
  clipped : Bool := false
  sc : SinCosIn := {}
  hall : HallIn := {}
  ssi : SsiIn := {}
  trk : Trk := {}
  /-- marked unavailable by Steep (R28) -/
  unavailable : Bool := false
  /-- elapsed time of the latest realignment since which the filters run (R170) -/
  realignAt : Nat := 0
  /-- the converter as it stood before the step of the tick in progress: a realignment at that tick's P0 makes the step coast (R220) -/
  before : Option Trk := none
  deriving DecidableEq, Repr

/-- What a step of a channel asks of the rest of the node. -/
inductive ChanEvent where
  | trip (f : FaultCode) (ctx : Word) (injected : Bool)
  | cease (f : FaultCode)
  | refuted (r : Int) (origin : Nat) (st : Stamp)
  | basis
  /-- the first clean measurement of an acquisition has set θ (R202): encoder emulation starts from it after CASK (R29) -/
  | anchor
  | kilned
  | index (cnt : Int) (u : Int) (st : Stamp)
  deriving DecidableEq, Repr

/-- The injection units that apply to a channel's evaluations of this tick (R521, R529, R531). -/
structure ChanInj where
  excOc : Bool := false
  excOpen : Bool := false
  inClip : Bool := false
  carrier : Bool := false
  rate : Bool := false
  los : Bool := false
  dos : Bool := false
  lot : Bool := false
  deriving DecidableEq, Repr

end Sys2Proof.Machine
end

