-- ==== Sys2Proof/Machine/FrontEnd.lean ====
section
/-!
DEFINITION. The front end of a channel: excitation phase, demodulation, carrier phase, SINCOS, HALL and SSI inputs
(05_resolver_front_end.md R156 to R191).
-/
namespace Sys2Proof.Machine

/-- T_tick in ns (R122). -/
def TickRate.ns : TickRate → Nat
  | .k8 => 125000
  | .k16 => 62500
  | .k32 => 31250

/-- F_tick in Hz (R122). -/
def TickRate.hz : TickRate → Nat
  | .k8 => 8000
  | .k16 => 16000
  | .k32 => 32000

/-- The rate of a TICK.RATE value (R122). -/
def TickRate.ofKhz (v : Nat) : TickRate :=
  if v = 8 then .k8 else if v = 32 then .k32 else .k16

/-- TICK.RATE of a rate. -/
def TickRate.khz : TickRate → Nat
  | .k8 => 8
  | .k16 => 16
  | .k32 => 32

/-- The default output instant of a rate (R123). -/
def TickRate.outDefault : TickRate → Nat
  | .k8 => 114500
  | .k16 => 52000
  | .k32 => 20750

/-- The latest output instant of a rate (R123). -/
def TickRate.outMax : TickRate → Nat
  | .k8 => 119000
  | .k16 => 56500
  | .k32 => 25250

/-- The value of an item on an instance, as a signed number. -/
def ParamMem.int (ps : ParamMem) (pid n : Nat) : Int := (ps.get (pidAt pid n)).toInt

/-- The value of an item on an instance, as a natural number. -/
def ParamMem.nat (ps : ParamMem) (pid n : Nat) : Nat := (ps.get (pidAt pid n)).toNat

/-- Input kinds (R156). -/
inductive InMode where
  | resolver
  | sincos
  | hall
  | ssi
  | off
  deriving DecidableEq, Repr

/-- The kind of an IN.MODE value (R156). -/
def InMode.ofItem : Nat → InMode
  | 0 => .resolver
  | 1 => .sincos
  | 2 => .hall
  | 3 => .ssi
  | _ => .off

/-- The input kind of a channel (R156). -/
def inMode (ps : ParamMem) (c : Nat) : InMode := InMode.ofItem (ps.nat Pid.inMode c)

/-- A_nom, the nominal peak amplitude in fx µV (chapter 06, before R217). -/
def aNom (ps : ParamMem) (c : Nat) : Int := ps.int Pid.inNomamp c * 1000 * fxSqrt2

/-- The full-scale peak of the PGA gain, µV (R164). -/
def fullScale (ps : ParamMem) (c : Nat) : Int := 7071068 / ps.int Pid.inPga c

/-- One modulator clock of a sinc3 decimator of a ratio (R166): an output at every ratio-th clock, whose weights sum to ratio³. -/
def Sinc3.clock (ratio : Nat) (bit : Bool) (d : Sinc3) : Sinc3 × Option Int :=
  let i1 := d.i1 + (if bit then 1 else -1)
  let i2 := d.i2 + i1
  let i3 := d.i3 + i2
  if d.clocks + 1 < ratio then ({ d with i1 := i1, i2 := i2, i3 := i3, clocks := d.clocks + 1 }, none)
  else
    let c1 := i3 - d.d1
    let c2 := c1 - d.d2
    ({ i1 := i1, i2 := i2, i3 := i3, d1 := i3, d2 := c1, d3 := c2, clocks := 0 }, some (c2 - d.d3))

/-- The decimated samples of modulator bits, oldest first, in units of full scale / ratio³ (R166). -/
def Sinc3.run (ratio : Nat) : List Bool → Sinc3 → List Int × Sinc3
  | [], d => ([], d)
  | b :: bs, d =>
    let r := d.clock ratio b
    let t := Sinc3.run ratio bs r.1
    (match r.2 with | some y => y :: t.1 | none => t.1, t.2)

/-- The decimation ratio of an input kind (R166). -/
def InMode.ratio : InMode → Nat
  | .sincos => 4
  | _ => 16

/-- The decimated samples of a channel's modulator bits, µV (R164 to R166): a stream of ones stands for the full-scale peak, a stream
of zeros for its negative (PRESUMED, log entry 101). -/
def decimate (ps : ParamMem) (c : Nat) (mode : InMode) (bits : List Bool) (d : Sinc3) : List Int × Sinc3 :=
  let r := d.run mode.ratio bits
  (r.1.map fun y => roundDiv (y * fullScale ps c) (mode.ratio * mode.ratio * mode.ratio : Nat), r.2)

/-- The F.IN_CLIP injection forces one sample, the newest, to full scale (R191, log entry 25). -/
def forceClip (ps : ParamMem) (c : Nat) (inj : Bool) (xs : List Int) : List Int :=
  if inj && !xs.isEmpty then xs.dropLast ++ [fullScale ps c] else xs

/-- A SIN or COS sample beyond 95 % of the full-scale peak of the PGA gain (R164, R191). -/
def isClipped (ps : ParamMem) (c : Nat) (x : Int) : Bool :=
  let y := ps.int Pid.inPga c * x
  decide (2 * 4750000 * 4750000 < y * y)

/-- N, the excitation half-periods of a demodulation window (R167). -/
def windowHalves (freq : Nat) (rate : TickRate) : Nat := max 1 (2 * freq * rate.ns / 1000000000)

/-- The excitation phase at P0 of tick `k`, fx turns (R159). -/
def excPhase (freq k : Nat) (rate : TickRate) : Int :=
  (((freq * 8 / rate.hz) * k) % 8 : Nat) * (fxOne / 8)

/-- The demodulated I and Q values of SIN and COS, fx µV, and whether a sample of the window was clipped or missing. -/
structure Demod where
  is : Int := 0
  qs : Int := 0
  ic : Int := 0
  qc : Int := 0
  bad : Bool := false
  deriving DecidableEq, Repr

/-- Sums over the window, newest sample first: each whole sample weighs `freq` units, the oldest what is left (R168). -/
def demodLoop (clip : Int → Bool) (step : Int) (freq : Int) : Int → Int → List (Int × Int) → Demod → Demod
  | _, left, [], d => if 0 < left then { d with bad := true } else d
  | ph, left, (s, c) :: rest, d =>
    if left ≤ 0 then d else
    let w := if left < freq then left else freq
    let sn := fxSin ph
    let cs := fxCos ph
    demodLoop clip step freq (ph - step) (left - w) rest
      { is := d.is + w * s * sn, qs := d.qs + w * s * cs, ic := d.ic + w * c * sn, qc := d.qc + w * c * cs
        bad := d.bad || clip s || clip c }

/-- Demodulation of the window that closes at P0 of tick `k`, with the reference shifted by `shift` turns (R168, R191). -/
def demodulate (ps : ParamMem) (c : Nat) (freq k : Nat) (rate : TickRate) (shift : Int) (sin cos : List Int) : Demod :=
  let units : Int := windowHalves freq rate * 640000
  let d := demodLoop (isClipped ps c) (fxRat freq 1280000) freq (excPhase freq k rate + shift) units (sin.zip cos) {}
  { d with is := 2 * d.is / units, qs := 2 * d.qs / units, ic := 2 * d.ic / units, qc := 2 * d.qc / units }

/-- The compensated value `I cos φ + Q sin φ` (R169). -/
def compensate (i q phi : Int) : Int := fxMul i (fxCos phi) + fxMul q (fxSin phi)

/-- `√(a² + b²)` of fx values. -/
def hypot (a b : Int) : Int := fxSqrt (fxMul a a + fxMul b b)

/-- Brings a phase in 0.1° into the interval (exp − 900, exp + 900], then into −1,800 to +1,799 (R171). -/
def resolvePhase (exp ph : Int) : Int :=
  let r := (ph - exp + 899) % 1800 - 899 + exp
  (r + 1800) % 3600 - 1800

/-- The carrier phase of summed products, in 0.1° (R171). -/
def carrierPhase (exp num den : Int) : Int :=
  resolvePhase exp (roundDiv (fxAtan2 num den * 1800) fxOne)

/-- A phase in 0.1° as fx turns. -/
def tenthsToFx (x : Int) : Int := fxRat x 3600

/-- The difference of two phases in fx turns, into (−½, ½]. -/
def phaseDiff (a b : Int) : Int :=
  let d := (a - b) % fxOne
  if fxOne / 2 < d then d - fxOne else d

/-- Number of windows of the entry measurement (R172). -/
def measTicks (freq : Nat) (rate : TickRate) : Nat :=
  max (ceilDiv 4000000 rate.ns) (ceilDiv (32 * 1000000000) (freq * rate.ns))

/-- Whether the window that closes now lies wholly after an elapsed instant `since`. -/
def windowAfter (freq : Nat) (rate : TickRate) (now since : Nat) : Bool :=
  decide (windowHalves freq rate * 500000000 ≤ (now - since) * freq)

/-- A start of the excitation at an elapsed P0: the ramp runs for 1 ms and the items in force are taken (R163, R172, R194). -/
def excStart (ps : ParamMem) (c : Nat) (rate : TickRate) (now : Nat) (x : Exc) : Exc :=
  let freq := ps.nat Pid.excFreq c
  { x with
    on := true, startDue := false, stopAt := none, rampEnd := some (now + 1000000), fullSince := none
    freq := freq, ampl := ps.nat Pid.excAmpl c, buffer := ps.nat Pid.excBuffer c == 1
    bufGain := ps.nat Pid.excBufgain c
    meas := some { need := measTicks freq rate, since := now }
    phiC := if ps.nat Pid.excPhmode c = 1 then tenthsToFx (ps.int Pid.excPhfix c) else x.phiC
    phCount := 0, ocCount := 0, openCount := 0 }

/-- A request to start: at once when no stop waits, else at the first P0 after the crossing (R163). -/
def excRequestStart (ps : ParamMem) (c : Nat) (rate : TickRate) (now : Nat) (x : Exc) : Exc :=
  if x.tripped then { x with startDue := true }
  else if x.stopAt.isSome then { x with startDue := true }
  else if x.on then x
  else excStart ps c rate now x

/-- The elapsed time of the next upward zero crossing at or after an elapsed instant: the phase at P0 of tick `k`
advances with the frequency (R159, R163). A crossing at the instant itself is taken: DESIGN CHOICE, log entry 89. -/
def nextCrossing (freq k : Nat) (rate : TickRate) (p0 now : Nat) : Nat :=
  let ph := ((freq * 8 / rate.hz) * k) % 8
  -- eighths of a turn plus elapsed time in units of 1 / (8 · 10^9 · 1/freq)
  let done := ph * 1000000000 + (now - p0) * freq * 8
  let left := (8000000000 - done % 8000000000) % 8000000000
  now + ceilDiv left (freq * 8)

/-- A request to stop: the excitation ends at the next upward zero crossing (R163). -/
def excRequestStop (k : Nat) (rate : TickRate) (p0 now : Nat) (x : Exc) : Exc :=
  if x.on then
    { x with startDue := false, stopAt := some (x.stopAt.getD (nextCrossing x.freq k rate p0 now)) }
  else { x with startDue := false }

/-- The excitation is off at once (R163 at its crossing, F.EXC_OC, core reset). A measurement that ran stays unfinished (R175). -/
def excOff (x : Exc) : Exc :=
  { x with on := false, rampEnd := none, fullSince := none, stopAt := none, phCount := 0, ocCount := 0, openCount := 0 }

/-- The excitation amplitude at an elapsed instant, fx of 0.1 Vrms at the balls (R161 to R163): the ramp rises linearly over its
1 ms, and the buffer carries EXC.AMPL / EXC.BUFGAIN. -/
def excAmplitude (now : Nat) (x : Exc) : Int :=
  if !x.on then 0 else
  let full : Int := if x.buffer then fxRat x.ampl (max 1 x.bufGain) else x.ampl * fxOne
  match x.rampEnd with
  | some r => if r ≤ now then full else full * clampI 0 1000000 (now + 1000000 - r : Int) / 1000000
  | none => full

/-- Half-period judgements of the driver current limit (R191). -/
def ocStep (limit : Nat) : List Bool → Nat → Bool → Nat × Bool
  | [], n, hit => (n, hit)
  | b :: bs, n, hit =>
    let n' := if b then n + 1 else 0
    ocStep limit bs n' (hit || decide (limit ≤ n' ∧ b = true))

/-- The driver detectors of a tick: F.EXC_OC and F.EXC_OPEN (R191). -/
def driverDetectors (ps : ParamMem) (c : Nat) (peakUa : Nat) (oc : List Bool) (inj : ChanInj) (now : Nat) (x : Exc) :
    Exc × List ChanEvent :=
  if !x.on || x.buffer then ({ x with ocCount := 0, openCount := 0 }, [.cease .excOpen]) else
  let (n, hit) := ocStep (ps.nat Pid.excOctime c) oc x.ocCount false
  if hit || inj.excOc then
    ({ excOff x with tripped := true }, [.trip .excOc 0 inj.excOc, .cease .excOc, .cease .excOpen])
  else
    let ramping := match x.fullSince with | some f => decide (now < f) | none => true
    let low := decide (peakUa < ps.nat Pid.excOpenlvl c * 1000) && !ramping
    let o := if ramping then x.openCount else if low then x.openCount + 1 else 0
    let ev := if inj.excOpen || (decide (16 ≤ o) && low) then [.trip .excOpen 0 inj.excOpen]
      else if low || ramping then [] else [.cease .excOpen]
    ({ x with ocCount := n, openCount := o }, ev)

/-- The clipping detector of a tick (R191). -/
def clipEvents (clip : Bool) (inj : ChanInj) : List ChanEvent :=
  if clip || inj.inClip then [.trip .inClip 0 inj.inClip] else [.cease .inClip]

/-- A carrier-phase judgement of a clean window: φ_c moves toward φ_m and F.CARRIER_PHASE counts (R173, R174). -/
def carrierFollow (ps : ParamMem) (c : Nat) (rate : TickRate) (d : Demod) (inj : ChanInj) (x : Exc) : Exc × List ChanEvent :=
  let num := 2 * (fxMul d.is d.qs + fxMul d.ic d.qc)
  let den := fxMul d.is d.is + fxMul d.ic d.ic - fxMul d.qs d.qs - fxMul d.qc d.qc
  let phM := tenthsToFx (carrierPhase (ps.int Pid.excPhexp c) num den)
  let diff := phaseDiff phM x.phiC
  let beyond := decide (tenthsToFx (ps.int Pid.excPhtol c) < diff.natAbs)
  let n := if beyond then x.phCount + 1 else 0
  let lim := fxRat (ps.int Pid.excPhrate c * rate.ns) (3600 * 1000000000)
  let phiC := if ps.nat Pid.excPhmode c = 1 then tenthsToFx (ps.int Pid.excPhfix c)
    else phaseDiff (x.phiC + clampI (-lim) lim diff) 0
  ({ x with phCount := n, phiC := phiC },
    if beyond && decide (ps.nat Pid.excPhtime c ≤ n) then [.trip .carrierPhase 0 inj.carrier]
    else if beyond then [] else [.cease .carrierPhase])

/-- One decimated SINCOS sample: the phase in 4,096 steps and the count (R176, R178). -/
def sincosSample (x : SinCosIn) (s c : Int) : SinCosIn :=
  let ph := (fxAtan2 s c * 4096 / fxOne) % 4096
  match x.phase with
  | none => { x with phase := some ph, count := ph, fast := false }
  | some p =>
    let d := (ph - p + 2048) % 4096 - 2048
    { count := x.count + d, phase := some ph, fast := x.fast || decide (1024 < d.natAbs) }

/-- The SINCOS samples of a tick, oldest first. -/
def sincosTick (sin cos : List Int) (x : SinCosIn) : SinCosIn :=
  (sin.zip cos).foldl (fun y p => sincosSample y p.1 p.2) { x with fast := false }

/-- The electrical sector of a Hall code with IN.HALLOFS and IN.DIR (R180, R192); none for an invalid code. -/
def hallSector (ps : ParamMem) (c : Nat) (code : BitVec 3) : Option Nat :=
  let s : Option Nat := match code.toNat with
    | 1 => some 0
    | 3 => some 1
    | 2 => some 2
    | 6 => some 3
    | 4 => some 4
    | 5 => some 5
    | _ => none
  s.map fun n =>
    let m := (n + ps.nat Pid.inHallofs c) % 6
    if ps.nat Pid.inDir c = 1 then (6 - m) % 6 else m

/-- `n` sixths of an electrical turn as fx turns of the shaft (R180). -/
def hallAngle (ps : ParamMem) (c : Nat) (n : Int) : Int := fxRat n (6 * ps.int Pid.inPoles c)

/-- An accepted Hall edge into sector `s` at an instant, with direction D: the new input state, and whether sectors
were skipped (R181, R207). An edge from an invalid code back into the last valid sector moves nothing (log entry 96). -/
def hallMove (ps : ParamMem) (c : Nat) (d : Bool) (s : Nat) (st : Stamp) (h : HallIn) : HallIn × Bool :=
  let stop := some (st.e + ps.nat Pid.trkHallstop c * 1000000)
  match h.sector with
  | none =>
    let n : Int := s
    ({ h with
        sector := some s, count := n, u := hallAngle ps c (2 * n + 1) / 2, lo := hallAngle ps c n
        hi := hallAngle ps c (n + 1), lastEdge := none, v := 0, stopAt := stop, fresh := true }, false)
  | some p =>
    let step := (s + 6 - p) % 6
    if step = 0 then ({ h with stopAt := stop, fresh := true }, false) else
    let mv : Int := if step = 1 then 1 else if step = 5 then -1 else if step = 2 then 2
      else if step = 4 then -2 else if d then 3 else -3
    let n := h.count + mv
    let skip := decide (1 < mv.natAbs)
    let u := if skip then hallAngle ps c (2 * n + 1) / 2
      else if mv = 1 then hallAngle ps c n else hallAngle ps c (n + 1)
    let fwd := decide (0 < mv)
    let dt : Int := match h.lastEdge with | some e => (st.e - e.e : Nat) | none => 0
    let v := if fwd != d || dt = 0 then 0
      else hallAngle ps c (if fwd then 1 else -1) * 1000000000 / dt
    ({ h with
        sector := some s, count := n, u := u, lo := hallAngle ps c n, hi := hallAngle ps c (n + 1)
        lastEdge := some st, v := v, stopAt := stop, fresh := true }, skip)

/-- Bits `i` to `j` of an SSI frame, numbered from 1, as a number, most significant first. -/
def ssiField (bits : List Bool) (i w : Nat) : Nat :=
  ((bits.drop (i - 1)).take w).foldl (fun a b => 2 * a + (if b then 1 else 0)) 0

/-- The CRC of R186 over frame bits. -/
def ssiCrc (w poly inv : Nat) (bits : List Bool) (c0 : Nat) : Nat :=
  let c := bits.foldl (fun c b =>
    let fb := xor (decide (c / 2 ^ (w - 1) % 2 = 1)) b
    let c := (c * 2) % 2 ^ w
    if fb then c ^^^ poly else c) c0
  if inv = 1 then c ^^^ (2 ^ w - 1) else c

/-- The checks of a completed word, and its position field (R185 to R187). -/
def ssiJudge (ps : ParamMem) (c : Nat) (bits : List Bool) (injCrc injErr : Bool) : SsiOutcome :=
  let w := ps.nat Pid.inSsicrcw c
  let pos := ps.nat Pid.inSsicrcpos c
  let ep := ps.nat Pid.inSsierrpos c
  let flip := fun (i : Nat) (b : Bool) => if injCrc && w > 0 && i + 1 == pos then !b
    else if injErr && ep > 0 && i + 1 == ep then ps.nat Pid.inSsierrpol c == 1 else b
  let bs := bits.mapIdx flip
  if w > 0 && ssiField bs pos w != ssiCrc w (ps.nat Pid.inSsicrcpoly c) (ps.nat Pid.inSsicrcinv c) (bs.take (pos - 1))
      (ps.nat Pid.inSsicrcinit c) then .fail .crc
  else if ep > 0 && ssiField bs ep 1 == ps.nat Pid.inSsierrpol c then .fail .errbit
  else
    let pw := ps.nat Pid.inSsiposw c
    let f := ssiField bs (ps.nat Pid.inSsipos c) pw
    .pass (if ps.nat Pid.inSsicode c = 1 then grayToBin pw f else f)

/-- The fault of a failed read (R189). -/
def SsiFail.fault : SsiFail → FaultCode
  | .timeout => .ssiTimeout
  | .crc => .ssiCrc
  | .errbit => .ssiErrbit

/-- Takes the outcome of a read into the counts (R189): a failure advances IN.SSIERRCNT and the consecutive count. -/
def ssiCount (ps : ParamMem) (c : Nat) (o : SsiOutcome) (injected : Bool) (x : SsiIn) : SsiIn × List ChanEvent :=
  match o with
  | .pass _ => ({ x with missesBefore := x.misses, misses := 0 }, [.cease .ssiTimeout, .cease .ssiCrc, .cease .ssiErrbit])
  | .fail f =>
    let n := x.misses + 1
    ({ x with missesBefore := x.misses, misses := n, errCnt := x.errCnt + 1 },
      if ps.nat Pid.inSsimiss c ≤ n then [.trip f.fault 0 injected] else [])

end Sys2Proof.Machine
end

