-- ==== Sys2Proof/Machine/TypesFault.lean ====
section
/-!
DEFINITION. The state of the fault manager, the voltage-reference monitor and the pitch points
(15_faults_and_pitch_points.md).
-/
namespace Sys2Proof.Machine

/-- A detector's verdict on its way to the fault manager (R502): code, class, scope, context word, whether injected. -/
structure Verdict where
  code : FaultCode
  cls : Nat
  scope : Nat
  ctx : Word
  injected : Bool
  /-- the condition has already ceased: of an event-like fault always (R506) -/
  ceased : Bool := false
  deriving DecidableEq, Repr

/-- An active fault instance (R500, R518). -/
structure FaultInst where
  code : FaultCode
  scope : Nat
  cls : Nat
  present : Bool
  reached : Bool := false
  injected : Bool
  raised : Stamp
  ctx : Word
  count : Nat := 1
  deriving DecidableEq, Repr

/-- The kinds of occurrence (R516). -/
inductive OccKind where
  | raise
  | repeated
  | cease
  | clear
  deriving DecidableEq, Repr

/-- The code of an occurrence kind (R516). -/
def OccKind.code : OccKind → Nat
  | .raise => 0
  | .repeated => 1
  | .cease => 2
  | .clear => 3

/-- An open 10 ms window (R516): what has been counted since it opened. -/
structure FaultWindow where
  code : FaultCode
  scope : Nat
  ends : Nat
  count : Nat := 0
  first : Stamp := {}
  kind : OccKind := .raise
  cls : Nat := 0
  raised : Bool := false
  injected : Bool := false
  ctx : Word := 0
  deriving DecidableEq, Repr

/-- A log entry formed and not yet written, with the elapsed instant of its formation (R515, R517). -/
structure PendingLog where
  entry : LogEntry
  formed : Nat
  /-- the 20 ms limit has been judged -/
  late : Bool := false
  deriving DecidableEq, Repr

/-- An armed pitch point (R530, R531). -/
structure PitchPoint where
  handle : Nat
  code : FaultCode
  scope : Nat
  /-- units still to apply; none for HOLD -/
  left : Option Nat
  /-- n of a COUNT arming; 0 for ONCE and HOLD -/
  count : Nat
  /-- K48 from which the first unit applies -/
  due : Nat
  /-- evaluations left of a unit that covers several -/
  unitLeft : Nat := 0
  deriving DecidableEq, Repr

/-- The voltage-reference monitor (R522 to R528). -/
structure RefMon where
  /-- REF_B is fitted -/
  fitted : Bool := false
  /-- windows since Steep, newest first, at most 70: δ_AM, δ_BM, δ_AB in ppm -/
  hist : List (Int × Int × Int) := []
  closed : Nat := 0
  /-- consecutive windows with a pair beyond the fault band -/
  faultWindows : Nat := 0
  blamed : Nat := 3
  band : Nat := 0
  creep : Bool := false
  /-- a SWITCH waits for the strobe of each output's group: the reference to change to (1 REF_B), per output -/
  switchTo : Quad (Option Bool) := Quad.all none
  deriving DecidableEq, Repr

/-- The fault manager (R499 to R533). -/
structure Faults where
  insts : List FaultInst := []
  windows : List FaultWindow := []
  verdicts : List Verdict := []
  log : List PendingLog := []
  points : List PitchPoint := []
  refs : RefMon := {}
  /-- FLT.TJ, M40 °C, and consecutive readings above FLT.TJWARN and above 125 °C -/
  tj : Word := 0
  tjWarn : Nat := 0
  tjHot : Nat := 0
  /-- consecutive log-write failures are being retried (R515) -/
  logFailing : Bool := false
  deriving DecidableEq, Repr

end Sys2Proof.Machine
end

