-- ==== Sys2Proof/Machine/TypesLine.lean ====
section
/-!
DEFINITION. The state of the Grenrus Line, of the side-lanes and of a tandem pair (12_grenrus_line.md,
13_line_failures.md, 14_tandem.md). Field defaults are the values of State.reset.
-/
namespace Sys2Proof.Machine

/-- Line roles (R403). -/
inductive LineRole where
  | head
  | tailHead
  | middle
  | last
  | orphan
  deriving DecidableEq, Repr

/-- LINE.ROLE (R440). -/
def LineRole.code : LineRole → Nat
  | .head => 0
  | .tailHead => 1
  | .middle => 2
  | .last => 3
  | .orphan => 4

/-- A frame the node sends or forwards (R406): its type, its header with the port it leaves by, and its payload; an
ending other than `good` is the /H/ /H/ of R248. -/
structure TxFrame where
  typ : Byte
  hdr : FrameHdr
  payload : List Byte
  deriving DecidableEq, Repr

/-- What a roll call serves (R431, R435, R452, R453, R459). -/
inductive RollKind where
  | survey
  | assign (sig : Word)
  | fold
  | unfold
  deriving DecidableEq, Repr

/-- A roll call that waits for its cycle or for its RC frame, with the commands it serves. -/
structure RollCall where
  kind : RollKind
  ops : List Nat := []
  sent : Bool := false
  deriving DecidableEq, Repr

/-- A tick's snapshot for the cyclic record (R14, R418): S40 and the event count, the marks and positions, the velocities. -/
structure Snap where
  tick : Nat
  head : List Byte
  pos : List Byte
  vel : List Byte
  deriving DecidableEq, Repr

/-- A node as the latest roll call found it (R433, R434). -/
structure RollNode where
  hop : Nat
  outcome : Nat
  stored : Nat
  coreDown : Bool
  kept : Bool
  headen : Bool
  dnLink : Bool
  carLen : Nat
  deriving DecidableEq, Repr

/-- The kinds of link change EV.TOPOLOGY reports (R449). -/
inductive TopoKind where
  | dnLost
  | dnRegained
  | upLost
  | upRegained
  deriving DecidableEq, Repr

/-- The line side of the cellar (R400 to R459). -/
structure Line where
  /-- link of UP and DN (R401) -/
  linkUp : Bool := false
  linkDn : Bool := false
  /-- the links that EV.TOPOLOGY has reported (R449) -/
  seenUp : Bool := false
  seenDn : Bool := false
  /-- the links that the role in force was taken from (R403, R457) -/
  roleUp : Bool := false
  roleDn : Bool := false
  role : LineRole := .orphan
  /-- present hop count; none before a frame was read -/
  hops : Option Nat := none
  /-- position lock: locked position and signature (R430) -/
  lock : Option (Nat × Word) := none
  /-- outcome of the latest roll call; none before one -/
  outcome : Option Nat := none
  /-- signature of the latest RC frame, and the hop count it measured (R47) -/
  rcSig : Option Word := none
  rcHops : Nat := 0
  /-- header of the latest frame that passed its check: cycle number and length in µs (R411) -/
  cycle : Nat := 0
  cycleUs : Nat := 4000
  /-- tail head present, from the latest frame -/
  tailPresent : Bool := false
  /-- record layout in force (R420) -/
  recLen : Nat := 32
  recCh : Nat := 0xF
  recVel : Nat := 0
  replyQ : Nat := 16
  /-- snapshot of the tick in progress, and that of the last tick that ended at or before the cycle start (R14, R418) -/
  snapNext : Option Snap := none
  recSnap : Option Snap := none
  /-- hop mismatch seen since the previous car, and its 10 ms window: end, count, first stamp with its mark (R436) -/
  mismatch : Bool := false
  mismatchWindow : Option (Nat × Nat × Nat × TimeMark) := none
  /-- delay from the head D, ps in fx, and the round trip RT, ps, with the cycle it was measured in (R425, R426) -/
  delay : Option Int := none
  rt : Option (Nat × Nat) := none
  rejectRun : Nat := 0
  rejected : Nat := 0
  /-- SYNC frames that passed since UP gained link (R427) -/
  syncs : Nat := 0
  /-- the node has lost UP link since its latest correction -/
  regained : Bool := false
  /-- LINE_STATS words 0 to 5 and 9 (R439) -/
  framesOk : Nat := 0
  crcUp : Nat := 0
  crcDn : Nat := 0
  corrupted : Nat := 0
  noCyc : Nat := 0
  lossUp : Nat := 0
  lossDn : Nat := 0
  missed : Nat := 0
  unknown : Nat := 0
  /-- cycle numbers of the latest check failures charged to each hop, newest first (R438) -/
  failUp : List Nat := []
  failDn : List Nat := []
  /-- a CYC frame has passed its check in the cycle in progress; consecutive cycles without one (R438) -/
  cycSeen : Bool := false
  cycMiss : Nat := 0
  /-- CYC frames still discarded by an injection of F.CYC_TIMEOUT, and whether the count was injected (R438) -/
  cycInjected : Bool := false
  /-- the cycle that P0 of the tick in progress lies in, by the time in force -/
  lastCycle : Nat := 0
  /-- the cycle in progress is a roll-call cycle -/
  rollCycle : Bool := false
  /-- the kept bit of the latest roll call (R432) -/
  rcKept : Bool := false
  /-- frames the latest command sent -/
  sent : List TxFrame := []
  -- the head
  /-- RT_0 in ps (R424), and its value at the latest roll call (R422) -/
  rt0 : Nat := 0
  rollRt0 : Nat := 0
  /-- nodes of the latest roll call, in hop order -/
  roll : List RollNode := []
  /-- N of the latest roll call -/
  count : Nat := 1
  /-- command allowance in use (R423); none for LINE.CMDBYTES -/
  allow : Option Nat := none
  /-- no CYC frame is sent (R423) -/
  noCycSent : Bool := false
  rolls : List RollCall := []
  /-- a SURVEY under LINE.RCAUTO is due (R435) -/
  surveyDue : Bool := false
  /-- the return train of the cycle in progress has arrived -/
  retCame : Bool := true
  cyclesSent : Bool := false
  /-- the time in force at the latest cycle start of a heading node -/
  cycStart : Option Nat := none
  /-- cycle length of the latest cycle a heading node started, ns -/
  cycleNow : Nat := 4000000
  -- folding
  folded : Bool := false
  inTail : Bool := false
  /-- a tail head that originates frames (R453) -/
  heading : Bool := false
  tailT : Nat := 0
  tailB : Nat := 0
  foldOps : List Nat := []
  /-- UNFOLD: cycle c and its commands (R458) -/
  unfoldAt : Option (Nat × List Nat) := none
  /-- an unfold notice for cycle c has been received (R459) -/
  notice : Option Nat := none
  deriving DecidableEq, Repr

/-- The bulk frames of a side-lane (R473). Their payloads are held as what they carry. -/
inductive LaneMsg where
  | beacon (x : BeaconBody)
  | shadowReq (adopt : Bool)
  | shadowData (x : ShadowPart)
  | formReq (x : FormRequest)
  | formAns (reason : BitVec 4)
  | split
  | relay (p : Packet) (k : Nat)
  | result (x : RelayResult)
  | event (x : LaneEvent)
  | record (x : LaneRecord)
  deriving DecidableEq, Repr

/-- A bulk frame sent and not acknowledged: its port, sequence number and the tick it was sent (R471). -/
structure LaneOut where
  port : LinePort
  seq : BitVec 8
  msg : LaneMsg
  tick : Nat
  deriving DecidableEq, Repr

/-- A shadow transfer in progress (R463, R465): the bytes received so far. -/
structure Transfer where
  port : LinePort
  bytes : List Byte := []
  /-- the last part with the header fields has come -/
  header : Option ShadowPart := none
  deriving DecidableEq, Repr

/-- An adoption (R465, R466): its command where there is one, the side used, and its transfer. -/
structure Adoption where
  op : Option Nat
  port : LinePort
  transfer : Transfer
  deriving DecidableEq, Repr

/-- An adoption that waits for the CASK entry (R465, R466): generation, CRC, side, and the command held under R116. -/
structure Adopted where
  generation : Nat
  crc : Nat
  side : Nat
  auto : Bool
  deriving DecidableEq, Repr

/-- TAN.STATE (R497). -/
inductive TandemState where
  | single
  | forming
  | lower
  | upper
  | survivor
  | splitting
  deriving DecidableEq, Repr

/-- The code of TAN.STATE (R497). -/
def TandemState.code : TandemState → Nat
  | .single => 0
  | .forming => 1
  | .lower => 2
  | .upper => 3
  | .survivor => 4
  | .splitting => 5

/-- What a received tick packet carries (R472). -/
structure TickPkt where
  mode : Nat := 0
  cls : Nat := 0
  pitch : Bool := false
  fanBit : Bool := false
  heatBit : Bool := false
  running : Nat := 0
  faulted : Nat := 0
  coasting : Nat := 0
  stopReq : Nat := 0
  leader : Nat := 0
  present : Bool := false
  valid : Bool := false
  vc : Int := 0
  atRest : Bool := false
  leaving : Bool := false
  ready : Bool := false
  ack : Nat := 0
  deriving DecidableEq, Repr

/-- The side-lanes and the tandem pair (R469 to R498). -/
structure Lane where
  upLink : Bool := false
  dnLink : Bool := false
  seqUp : BitVec 8 := 0
  seqDn : BitVec 8 := 0
  /-- latest bulk sequence number received on each port -/
  gotUp : Option (BitVec 8) := none
  gotDn : Option (BitVec 8) := none
  out : List LaneOut := []
  /-- tick packet bytes sent at the latest P3 -/
  sentTick : List Byte := []
  /-- the neighbours' latest beacons (R462, R466) -/
  beaconUp : Option BeaconBody := none
  beaconDn : Option BeaconBody := none
  refreshUp : Option Transfer := none
  refreshDn : Option Transfer := none
  adoption : Option Adoption := none
  state : TandemState := .single
  /-- a member that was lower (true) or upper in the pair, or is to be -/
  isLower : Bool := true
  partnerPos : Nat := 0
  kf : Nat := 0
  /-- K48 of the fusion or of the loss -/
  kMark : Nat := 0
  formOp : Option Nat := none
  formReason : Option Nat := none
  requester : Option Client := none
  sending : Bool := false
  sentReady : Bool := false
  gotReady : Bool := false
  /-- the packet of the tick before was received; the latest received packet and the tick it is of -/
  pktTick : Option Nat := none
  pkt : TickPkt := {}
  /-- at this P0 the packet of the tick before had been received (R473) -/
  havePkt : Bool := false
  /-- a packet with a failed check came in this tick -/
  missRun : Nat := 0
  /-- the latest packet was discarded by an injection of F.PARTNER_LOST -/
  lossInjected : Bool := false
  laneMiss : Nat := 0
  laneCrc : Nat := 0
  termMisses : Nat := 0
  splitOp : Option Nat := none
  splitting : Bool := false
  /-- tick t whose packet carries the leaving bit -/
  leavingAt : Option Nat := none
  /-- STOP requests to send for the receiver's slots (R489) -/
  stopReq : Nat := 0
  record : Option LaneRecord := none
  /-- the lower member's pool record of hop entries armed on the upper member (R477): handle, client, channel, output -/
  remoteHops : List (Nat × Client × Ch × Nat) := []
  /-- the pair's record layout is in force (R484) -/
  pairLayout : Bool := false
  pairRecLen : Nat := 0
  pairRecCh : Nat := 0
  pairRecVel : Nat := 0
  /-- CASK entry ended the fusion and the partner's silence is still to be found: the own channels then in groups
  spanning both members (R42, R490, R496) -/
  lossDue : Option Nat := none
  /-- the node survives a partner loss: S40 bit 6 (R492) -/
  survivor : Bool := false
  deriving DecidableEq, Repr

end Sys2Proof.Machine
end

