-- ==== Sys2Proof/Machine/TypesPosition.lean ====
section
/-!
DEFINITION. The state of the position services and of the operation pool: latches, history, hop entries, compare
outputs, encoder emulation, waiting EXTRAPOLATEs and event windows (08_latch_hop_emulation.md, R78, R244).
Positions are raw: in au, unwrapped, before POS.OFFSET, so that a change of POS.OFFSET translates them (R266).
-/
namespace Sys2Proof.Machine

/-- Whether a command waits for its commit tick or has committed and awaits its final reply. -/
inductive Phase where
  | waiting
  | committed
  deriving DecidableEq, Repr

/-- Where a command of a tandem pair is executed (R479, R480): here, relayed to the upper member by this node, held by this
node, the upper member, for the pair, or run as two parts of which one is relayed. -/
inductive RelaySide where
  | here
  | sent
  | heldForPair
  | both
  deriving DecidableEq, Repr

/-- A command in the operation pool (R78, R441): its slot, arrival order, client, packet and commit tick. -/
structure PoolOp where
  slot : Nat
  order : Nat
  client : Client
  packet : Packet
  scheduled : Bool
  due : Nat
  phase : Phase
  side : RelaySide := .here
  /-- a command run as two parts: the part that has ended, the other member's when true, with its outcome (R480) -/
  part : Option (Bool × Status × List Word) := none
  /-- elapsed instant at which its packet passed check 1 (R75) -/
  arrivedAt : Nat := 0
  deriving DecidableEq, Repr

/-- An armed hop entry (R272 to R281): its handle, the client that holds the slot, the resolved target and the
descriptor words 1 to 3 as given. -/
structure HopEntry where
  slot : Nat
  uses : Nat
  client : Client
  ch : Ch
  target : Int
  w1 : Word
  w2 : Word
  w3 : Word
  /-- elapsed expiry instant -/
  expiry : Option Nat
  behind : Bool
  /-- the confirmed crossing: t_x, and the elapsed firing instant t_F (R276) -/
  crossed : Option (Stamp × Nat) := none
  deriving DecidableEq, Repr

/-- A green-fired entry that awaits its judgement (R241). -/
structure FiredEntry where
  handle : Nat
  ch : Ch
  output : Nat
  target : Int
  fired : Stamp
  crossing : Stamp
  deriving DecidableEq, Repr

/-- A compare output (R279): active, the latest pulse end pending on it, and the actions of the latest instant at which
any was applied: the elapsed instant, the level before it, and whether TOGGLE (an odd number), SET or PULSE, and CLEAR fired. -/
structure CmpOut where
  active : Bool := false
  pulseEnd : Option Nat := none
  instant : Option Nat := none
  before : Bool := false
  tog : Bool := false
  on : Bool := false
  off : Bool := false
  deriving DecidableEq, Repr

/-- The modes of a latch arming (R256). -/
inductive ArmMode where
  | once
  | count
  | continuous
  deriving DecidableEq, Repr

/-- The edges an arming captures (R255). -/
inductive ArmEdge where
  | rising
  | falling
  | both
  deriving DecidableEq, Repr

/-- A latch arming with its pool operation (R255 to R257). -/
structure Arming where
  op : Nat
  mode : ArmMode
  edge : ArmEdge
  n : Nat
  /-- elapsed P0 of the commit tick -/
  since : Nat
  captures : Nat := 0
  lastSeq : BitVec 16 := 0
  deriving DecidableEq, Repr

/-- The source of a latch entry (R261). -/
inductive LatchSource where
  | latA
  | latB
  | index
  deriving DecidableEq, Repr

/-- The position group of a latch entry: awaited, none, or a kilned-interpolated value (R245). -/
inductive LatchGroup where
  | waiting
  | absent
  | value (u v : Int) (coast : Bool) (mark : TimeMark)
  deriving DecidableEq, Repr

/-- A latch entry (R261). -/
structure LatchEntry where
  st : Stamp
  seq : BitVec 16
  source : LatchSource
  falling : Bool
  reverse : Bool
  lostBefore : Bool
  group : LatchGroup := .waiting
  deriving DecidableEq, Repr

/-- Latches of a channel (R253 to R263). -/
structure Latch where
  armA : Option Arming := none
  armB : Option Arming := none
  fifo : List LatchEntry := []
  seq : BitVec 16 := 0
  lost : Word := 0
  reject : Word := 0
  lostBefore : Bool := false
  /-- accepted edges since P0 of the tick in progress: input, falling, stamp; an arming that commits there takes them (R256) -/
  edges : List (Bool × Bool × Stamp) := []
  deriving DecidableEq, Repr

/-- An open 10 ms window of R244: its elapsed end, what it has counted, and the refutation of largest |r|. -/
structure EvWindow where
  ends : Nat
  first : Stamp
  count : Nat := 0
  r : Int := 0
  origin : Nat := 0
  catchUp : Int := 0
  deriving DecidableEq, Repr

/-- Encoder emulation of a channel (R284 to R288). -/
structure Emu where
  /-- it follows its source -/
  started : Bool := false
  /-- the node has left CASK and the source has given no clean measurement since (R29) -/
  reseed : Bool := false
  u : Int := 0
  fwd : Bool := true
  k : Int := 0
  co : Int := 0
  /-- elapsed time to which c_o has been brought -/
  at_ : Nat := 0
  /-- |c_t − c_o| beyond 64 counts since this elapsed time (R286) -/
  lagSince : Option Nat := none
  deriving DecidableEq, Repr

/-- A waiting EXTRAPOLATE: POS_AT at a line-time instant, or TIME_AT with target, direction, start and deadline (R234, R271). -/
inductive ExtrapKind where
  | posAt (lt : Nat)
  | timeAt (target : Int) (reverse : Bool) (start : Nat) (deadline : Nat)
  deriving DecidableEq, Repr

/-- See `ExtrapKind`. -/
structure ExtrapWait where
  op : Nat
  slot : Nat
  ch : Ch
  kind : ExtrapKind
  deriving DecidableEq, Repr

/-- The position services of a channel. -/
structure Pos where
  latch : Latch := {}
  /-- history, newest first (R264) -/
  hist : List Kil := []
  refuted : Option EvWindow := none
  latchLost : Option EvWindow := none
  emu : Emu := {}
  deriving DecidableEq, Repr

end Sys2Proof.Machine
end

