-- ==== Sys2Proof/Machine/TypesMotion.lean ====
section
/-!
DEFINITION. The state of the control engine (09_control_engine.md), the analogue outputs and wave memory
(10_analog_outputs.md). Positions are raw (see Machine/TypesPosition.lean); fixed-point values are in units of 2^-64
(16.64, 80 bits: R298, R305).
-/
namespace Sys2Proof.Machine

/-- A setpoint (p_s, v_s, a_s), fx turns, turns/s, turns/s² (R305). -/
structure Setpoint where
  p : Int := 0
  v : Int := 0
  a : Int := 0
  deriving DecidableEq, Repr

/-- A planned segment: duration in fx s, jerk in fx turns/s³, and on RAMP the acceleration taken at its start. -/
structure Seg where
  dur : Int
  jerk : Int
  acc : Option Int := none
  deriving DecidableEq, Repr

/-- How a plan ends: at rest on a target, at a velocity held, or at rest where braking ends (R307, R312, R322). -/
inductive PlanEnd where
  | target (p : Int)
  | velocity (v : Int)
  | rest
  deriving DecidableEq, Repr

/-- The unfinished motion command of a slot (R315). -/
inductive MotionKind where
  | move
  | jog
  | stop
  deriving DecidableEq, Repr

/-- What a slot's computation of a tick changes (R297 to R300, R304, R307): a missed deadline restores it (R328). -/
structure LoopState where
  i : Int
  j : Int
  vc : Int
  y : Int
  ep : Int
  vcLimited : Bool
  yLimited : Bool
  ferr : Nat
  inpos : Nat
  inPosition : Bool
  arrived : Bool
  deriving DecidableEq, Repr

/-- A loop slot (R291 to R330). -/
structure Slot where
  enabled : Bool := false
  owner : Option (BitVec 8) := none
  parked : Bool := false
  /-- inner and outer integrators, v_c and y (R297, R298) -/
  i : Int := 0
  j : Int := 0
  vc : Int := 0
  y : Int := 0
  sp : Setpoint := {}
  segs : List Seg := []
  planEnd : PlanEnd := .rest
  /-- absolute target of the active move, fx turns (R310) -/
  target : Option Int := none
  /-- the unfinished motion command -/
  active : Option (Nat × MotionKind) := none
  /-- p_s has reached the target of the move; consecutive computing ticks in position (R307) -/
  reached : Bool := false
  inpos : Nat := 0
  /-- the move is in position on enough ticks: its arrival row is due -/
  arrived : Bool := false
  ferr : Nat := 0
  ep : Int := 0
  missRun : Nat := 0
  misses : Word := 0
  missBit : Bool := false
  braking : Bool := false
  held : Bool := false
  yLimited : Bool := false
  vcLimited : Bool := false
  inPosition : Bool := false
  /-- cascade group: own channel for a leader, the leader for a follower (R292) -/
  leader : Option Nat := none
  /-- mask of this leader's followers on the other member of a pair, in its own channel numbers (R485) -/
  remote : Nat := 0
  /-- follower ratio, G40 (R313) -/
  ratio : Int := 4294967296
  /-- the slot computed in the tick in progress -/
  computed : Bool := false
  /-- state before the computation of this tick, restored by a miss (R328) -/
  saved : Option LoopState := none
  /-- the code computed for this tick and the engine cycle at which it finished -/
  code : Option (Nat × Nat) := none
  /-- restart under R301 at the next P0 (R361) -/
  restartDue : Bool := false
  /-- cleared by CLRN: holds in the sense of R294 (R360) -/
  clrHold : Bool := false
  /-- lap position q, au (R309) -/
  lap : Option Int := none
  deriving DecidableEq, Repr

/-- What waits for slots to come to rest (R39, R302, R322, R492). -/
inductive RestKind where
  | stop
  | disable
  | toTrack
  | survivor
  deriving DecidableEq, Repr

/-- A wait for slots at rest, with its command where it has one. -/
structure RestWait where
  op : Option Nat
  kind : RestKind
  chs : List Ch
  deriving DecidableEq, Repr

/-- An analogue output (R331 to R366). -/
structure AOut where
  inreg : BitVec 18 := 0
  code : BitVec 18 := 0
  /-- a code has been written into the input register since the last cause ended; strobes load only then (R340, R361, R363) -/
  fresh : Bool := false
  /-- the pin shows the clear code until a fresh code is loaded: PARK (R323) -/
  parked : Bool := false
  /-- cleared by CLRN (R359) -/
  cleared : Bool := false
  /-- the output register holds the clear code that the end of a rank 3 cause put there (R362, R363) -/
  atClear : Bool := false
  /-- shows the clear code since a CLRN clear: DAC.STATUS bit 2, until a fresh code is loaded (R359, R361) -/
  clearShown : Bool := false
  /-- the output awaits its first P3 after CASK entry (R40); the pin then shows the clear code -/
  highZ : Bool := true
  currentLimit : Bool := false
  complianceLost : Bool := false
  railShort : Bool := false
  /-- high impedance by F.DAC_SHORT with DAC.SHORTACT = 1 (R363 rank 2) -/
  shortOff : Bool := false
  /-- elapsed deadlines of F.DAC_SHORT, F.DAC_OPEN and F.SUPPLY -/
  shortAt : Option Nat := none
  openAt : Option Nat := none
  railAt : Option Nat := none
  /-- DAC.REF moved by SWITCH since Steep (R526) -/
  switched : Bool := false
  meas : Word := 0
  deriving DecidableEq, Repr

/-- Table states (R345). -/
inductive TableState where
  | free
  | filling
  | loaded
  deriving DecidableEq, Repr

/-- A wave table (R345, R346). -/
structure WaveTable where
  state : TableState := .free
  base : Nat := 0
  len : Nat := 0
  persist : Bool := false
  deriving DecidableEq, Repr

/-- A playback's trigger (R350). -/
inductive WaveTrigger where
  | command
  | hop
  | latch (ch : Ch) (b falling : Bool)
  deriving DecidableEq, Repr

/-- A playback's timing: ticks per sample, or the sample interval in ns (R350). -/
inductive WaveTiming where
  | tick (d : Nat)
  | schedule (interval : Nat)
  deriving DecidableEq, Repr

/-- A hop entry that fired green with a wave trigger (R236): its channel, its target and, unless EITHER, its direction. -/
structure GreenHop where
  ch : Ch
  target : Int
  dir : Nat
  deriving DecidableEq, Repr

/-- A playback with its pool operation (R350 to R358). -/
structure Playback where
  op : Nat
  slot : Nat
  tag : BitVec 12
  table : Nat
  outs : List Ch
  trigger : WaveTrigger
  timing : WaveTiming
  /-- passes of the table in a run; none for LOOP -/
  passes : Option Nat
  rearm : Bool
  running : Bool := false
  /-- elapsed start instant s, and the number of the next sample, counted over the passes -/
  start : Nat := 0
  next : Nat := 0
  /-- K48 of tick k0 (R354) -/
  k0 : Nat := 0
  /-- the outputs whose latest sample no strobe has loaded yet -/
  unloaded : List Ch := []
  ignored : Nat := 0
  lastLoad : Stamp := {}
  /-- a green firing started it: its confirmation is awaited, or has come, so the first strobe starts the run (R236) -/
  greenHop : Option GreenHop := none
  startDue : Bool := false
  deriving DecidableEq, Repr

/-- Wave memory: sample place and code pairs with strictly rising places and no zero code (an unlisted place reads 0). -/
abbrev WaveMem := List (Nat × BitVec 18)

/-- Wave tables and playbacks (R345 to R358). -/
structure Waves where
  mem : WaveMem := []
  tables : List WaveTable := List.replicate 16 {}
  plays : List Playback := []
  deriving DecidableEq, Repr

end Sys2Proof.Machine
end

