-- ==== Sys2Proof/Machine/TypesSound.lean ====
section
/-!
DEFINITION. The state of the sound-and-heat unit and of the fans (11_sound_heat_air.md). Velocities, temperatures and
duties named "fx" are in units of 2^-64; times of flight are in ps; amplitudes are in µV.
-/
namespace Sys2Proof.Machine

/-- A path's result in the latest published round (R373 to R375, R398). -/
structure PathResult where
  fitted : Bool := false
  /-- medium code (R375) -/
  medium : Nat := 4
  cOk : Bool := false
  vOk : Bool := false
  beyond : Bool := false
  /-- v (rounded to 1 mm/s), c and T_air, fx -/
  v : Int := 0
  c : Int := 0
  tAir : Int := 0
  /-- the smaller of the two directions' mean amplitudes, µV -/
  amp : Nat := 0
  /-- Δt without the SND.ZERO term, ps, in fx (R379) -/
  dt : Int := 0
  deriving DecidableEq, Repr

/-- An RTD input's latest result (R382 to R384, R398) and its consecutive rounds of each condition. -/
structure RtdResult where
  enabled : Bool := false
  valid : Bool := false
  isOpen : Bool := false
  short : Bool := false
  warn : Bool := false
  trip : Bool := false
  /-- T in fx °C and R_x in mΩ -/
  t : Int := 0
  r : Int := 0
  openRounds : Nat := 0
  shortRounds : Nat := 0
  tripRounds : Nat := 0
  deriving DecidableEq, Repr

/-- A measuring round that has started (R368): its start, the items it was started with, the paths and RTD inputs it
measures, and whether it belongs to a calibration. -/
structure RoundRun where
  start : Stamp
  items : ParamMem
  pathA : Bool
  pathB : Bool
  rtds : Bool
  cal : Bool
  deriving DecidableEq, Repr

/-- The collected rounds of a path in a calibration: Δt in fx ps and c in fx m/s (R379). -/
abbrev CalRounds := List (Int × Int)

/-- A zero-flow calibration (R377 to R381). -/
structure Calib where
  op : Nat
  pathA : Bool
  pathB : Bool
  /-- elapsed end of the wait for silent tachs (R378) -/
  waitEnd : Nat
  /-- SND.CALN at the commit -/
  want : Nat
  /-- the collection has begun: elapsed P0 at which the next round starts -/
  nextRound : Option Nat := none
  rounds : Nat := 0
  a : CalRounds := []
  b : CalRounds := []
  /-- a round not valid under R374 or classed other than AIR, or a tach pulse, has come -/
  bad : Bool := false
  deriving DecidableEq, Repr

/-- Where supervision of a fan stands (R389 to R393). -/
inductive FanPhase where
  | unsupervised
  /-- start judgement: v_0 in fx m/s, its elapsed begin and end (R391) -/
  | judging (v0 : Int) (began ends : Nat)
  /-- an attribution test waits for, or runs, a probe: at start or while running (R390) -/
  | probing (atStart : Bool)
  /-- kick n of the retry sequence, its elapsed end, and whether the tach has been present during it (R392) -/
  | kicking (n ends : Nat) (seen : Bool)
  /-- pause after failed kick n, and its elapsed end -/
  | pausing (n ends : Nat)
  /-- held at 0 % after the last kick -/
  | heldOff
  /-- the running rules apply (R393) -/
  | running
  /-- supervised without a rule of R393: the start judgement ended with the tach present and no rise of airflow -/
  | unproven
  deriving DecidableEq, Repr

/-- The probe in progress (R390): its fan, start and end, v_b and v_p in fx m/s. -/
structure Probe where
  fan : Bool
  start : Nat
  ends : Nat
  vb : Int
  vp : Option Int := none
  deriving DecidableEq, Repr

/-- A fan (R385 to R396). -/
structure FanState where
  /-- duty of the source and duty in force, fx of 0.1 %; a released ball stands at full duty (R385) -/
  srcDuty : Int := 18446744073709551616000
  duty : Int := 18446744073709551616000
  /-- σ and the speed demand of the AIRFLOW source (R388), fx -/
  sigma : Int := 0
  speed : Int := 0
  /-- elapsed instants of the tach edges of the latest second, newest first (R386) -/
  edges : List Nat := []
  /-- the tach was present at the latest judgement of it, and the elapsed time since which it has been silent -/
  present : Bool := false
  silentSince : Nat := 0
  phase : FanPhase := .unsupervised
  /-- watched to this elapsed instant for FAN.STOPTIME after a verdict (R393) -/
  watch : Option Nat := none
  /-- the source's duty is held under R394 -/
  held : Bool := false
  /-- the duct velocity has stayed below FAN.AIRMIN since this elapsed time (R393, R395) -/
  lowSince : Option Nat := none
  /-- conditions present for this fan (R506) -/
  blocked : Bool := false
  wire : Bool := false
  stopped : Bool := false
  duct : Bool := false
  deriving DecidableEq, Repr

/-- The sound-and-heat unit (R367 to R399). -/
structure Sound where
  /-- no measuring round runs: the TDC loopback failed, or the RTD oscillator (R99) -/
  noRounds : Bool := false
  round : Option RoundRun := none
  /-- start and sequence number of the latest published round -/
  last : Stamp := {}
  lastSeq : BitVec 16 := 0
  published : Bool := false
  paths : Duo PathResult := ⟨{}, {}⟩
  /-- the amplitude that sets λ of the next round, µV; none when λ is SND.AMPMIN (R371) -/
  level : Duo (Option Nat) := ⟨none, none⟩
  /-- consecutive rounds of a medium other than air (R376) -/
  mediumRounds : Duo Nat := ⟨0, 0⟩
  rtds : Quad RtdResult := Quad.all {}
  /-- comparator delay t_0 measured at Steep, ps (R382) -/
  t0 : Nat := 0
  cal : Option Calib := none
  probe : Option Probe := none
  fans : Duo FanState := ⟨{}, {}⟩
  deriving DecidableEq, Repr

end Sys2Proof.Machine
end

