-- ==== Sys2Proof/Machine/State.lean ====
section
/-!
DEFINITION. The state of the AXQ40 node: the cellar's part, the core's part, and the queue of waiting commands; and the
state right after reset. The node before VCEL becomes valid is the reset state (R17, R88): no rail, the store as it left
the factory, the core held in reset; VCEL_VALID, PWRGOOD and STEEP_END bring it up (log entry 6).
-/
namespace Sys2Proof.Machine

/-- A running Steep (R89 to R117): its trigger, elapsed start, whether the PLL has locked, and the steps abandoned at
their limit, as a bit mask (R93). -/
structure SteepRun where
  trigger : SteepTrigger
  start : Nat
  locked : Bool := true
  abandoned : Nat := 0
  deriving DecidableEq, Repr

/-- Where the core stands: held in reset, running Steep, or up. -/
inductive CoreRun where
  | held
  | steep (s : SteepRun)
  | up
  deriving DecidableEq, Repr

/-- The image the core runs (R104, R108): the boot loader, or an image slot. -/
inductive Running where
  | boot
  | image (slot : Bool)
  deriving DecidableEq, Repr

/-- An open firmware transfer (R548). -/
structure FwTransfer where
  client : Client
  id : Nat
  length : Nat
  slot : Bool
  deriving DecidableEq, Repr

/-- A CASK-to-TRACK change whose first kilned samples are awaited (R36, R37): its command, its elapsed limit of 50 ms,
and the channels still without a kilned sample. -/
structure TrackEntry where
  op : Option Nat
  ends : Nat
  waiting : List Ch
  deriving DecidableEq, Repr

/-- The judgement of R118: none due, waiting for the first lock outcome, or made and due to commit at the next tick. -/
inductive AutoJudge where
  | none
  | waiting
  | due
  deriving DecidableEq, Repr

/-- A drain (R448): the FW_ACTIVATE it serves and its elapsed deadline. -/
structure Drain where
  op : Nat
  deadline : Nat
  deriving DecidableEq, Repr

/-- The core: everything a core reset starts anew. Field defaults are the values after Steep. -/
structure Core where
  run : CoreRun := .held
  mode : Mode := .cask
  running : Running := .image false
  /-- output states of a CASK entry are due at the next P3 (R40) -/
  caskDue : Bool := false
  auto : AutoJudge := .none
  trackEntry : Option TrackEntry := none
  drain : Option Drain := none
  params : ParamMem := []
  /-- CTL.OUTDIV and the like are in `params`; NODE.CFGFIX of the latest load (R540) -/
  cfgFix : Nat := 0
  pool : List PoolOp := []
  nextOrder : Nat := 0
  /-- uses of each pool slot, slot and count pairs (R273) -/
  slotUses : List (Nat × Nat) := []
  fronts : Quad Front := Quad.all {}
  pos : Quad Pos := Quad.all {}
  hops : List HopEntry := []
  fired : List FiredEntry := []
  cmps : List CmpOut := List.replicate 8 {}
  extraps : List ExtrapWait := []
  slots : Quad Slot := Quad.all {}
  rests : List RestWait := []
  /-- the samples of the tick in progress have been taken and its tracking steps have run -/
  sampled : Bool := false
  /-- phase A and phase B of the tick in progress have run (R295) -/
  phaseA : Bool := false
  phaseB : Bool := false
  /-- phase A of the tick in progress ran at its own P0, since the output instant before it was skipped (R137) -/
  lateA : Bool := false
  /-- engine cycles of phase A of the tick in progress -/
  cyclesA : Nat := 0
  outs : Quad AOut := Quad.all {}
  /-- strobe groups a DAC_STROBE of this tick names (R343), bit 0 A, bit 1 B -/
  strobes : Nat := 0
  /-- LDAC edges ignored per group, and the elapsed instant of each group's latest accepted edge (R342) -/
  ldacIgn : Duo Nat := ⟨0, 0⟩
  ldacLast : Duo (Option Nat) := ⟨none, none⟩
  waves : Waves := {}
  sound : Sound := {}
  faults : Faults := {}
  fw : Option FwTransfer := none
  /-- the FW_COMMIT whose checks run (R551) -/
  fwCommit : Option Nat := none
  /-- EV.REFUTED was raised in the line cycle in progress (R45) -/
  refutedNow : Bool := false
  /-- Steep's RTD reference check failed: no RTD reading (R99) -/
  noRtd : Bool := false
  deriving DecidableEq, Repr

/-- The whole node. -/
structure Node where
  power : Power := {}
  time : TimeBase := {}
  clients : List ClientRec := []
  sessions : List Session := []
  /-- nonces drawn so far (R61) -/
  nonces : Nat := 0
  /-- replies and events on their way to line clients (R419), and the bytes of the first already sent -/
  stream : List OutItem := []
  streamSent : Nat := 0
  host : HostPort := {}
  store : Store
  restart : Restart := {}
  held : Option HeldTag := none
  adopted : Option Adopted := none
  /-- latest Steep word (R110) -/
  steepWord : Word := 0
  line : Line := {}
  lane : Lane := {}
  core : Core := {}
  /-- counter of the free values the step has drawn: the model's own field (log entry 1) -/
  free : Nat := 0
  deriving DecidableEq, Repr

/-- The state of the block: the node, and the queue of the commands that wait, first in, first out. -/
structure State where
  node : Node
  pending : List Instr
  deriving DecidableEq, Repr

/-- Faults of the model: none. No command of this block ends in a fault. -/
inductive Fault where
  deriving DecidableEq, Repr

/-- Refusals of the model. -/
inductive Refusal where
  /-- Raised by an arm of `exec` whose command has no meaning yet; safe: the model stops where the hardware goes on. -/
  | notModelled (mnemonic : String)
  deriving DecidableEq, Repr

/-- The bytes of the factory image: "AXQ40FW", version 1.0.0, silicon revisions 1 to 1, length 4,096 (R546, log entry 7). -/
def factoryImage : ByteMem :=
  [(0, 0x41), (1, 0x58), (2, 0x51), (3, 0x34), (4, 0x30), (5, 0x46), (6, 0x57), (8, 0x01), (12, 0x01), (13, 0x01),
   (16, 0x10)]

/-- The store as the board left the factory: one established image, no configuration, no lock, no key (log entry 7). -/
def factoryStore : Store :=
  { images := ⟨{ state := .established, seq := 1, length := 4096, bytes := factoryImage }, {}⟩ }

/-- The machine right after reset: a node with no supply (log entries 4 and 6). -/
def State.reset : State := { node := { store := factoryStore }, pending := [] }

end Sys2Proof.Machine
end

