-- ==== Sys2Proof/Machine/Ops.lean ====
section
/-!
DEFINITION. The named operations over the node: time, parameters, channels, replies and events, the operation pool,
side-lane frames (02_commands_and_clients.md, 04_frame_tick_and_time.md, 18_pins_and_host_port.md).
-/
namespace Sys2Proof.Machine

/-- The outcome of a command whose effect on everything but the queue is `f`. -/
def State.upd (s : State) (f : Node → Node) : Host.Outcome State Fault Refusal :=
  .next { s with node := f s.node }

/-! ### Time -/

/-- Elapsed time now (R619), ns. -/
def Node.now (n : Node) : Nat := n.time.p0e + n.time.dt

/-- The time in force now, LT64 ns (R130, R617). -/
def Node.lt (n : Node) : Nat := wrapLt (n.time.lt + n.time.dt : Nat)

/-- A stamp `ns` later, or earlier where negative (R617). -/
def Stamp.shift (ns : Int) (s : Stamp) : Stamp := { s with lt := wrapLt (s.lt + ns), e := (s.e + ns).toNat }

/-- The stamp of now, with the mark of the time in force (R144). -/
def Node.stamp (n : Node) : Stamp := { lt := n.lt, mark := n.time.mark, e := n.now }

/-- The stamp of P0 of the tick in progress. -/
def Node.p0Stamp (n : Node) : Stamp := { lt := n.time.lt, mark := n.time.mark, e := n.time.p0e }

/-- Places the node at `t` ns after P0 of the tick in progress. -/
def Node.atT (t : Nat) (n : Node) : Node := { n with time := { n.time with dt := t } }

/-- The code of a time mark (R144). -/
def TimeMark.code : TimeMark → Nat
  | .lineTime => 0
  | .localTime => 1
  | .localEpoch => 2

/-- T_tick in ns (R122). -/
def Node.tick (n : Node) : Nat := n.time.rate.ns

/-- The low 16 bits of K48 of the tick in progress, as Y1 [39:24] carries them (R54). -/
def Node.tick16 (n : Node) : Nat := n.time.k48 % 65536

/-! ### Parameters -/

/-- An item of a channel, output, input, fan or path, as a signed number. -/
def Node.par (n : Node) (pid i : Nat) : Int := n.core.params.int pid i

/-- An item as a natural number. -/
def Node.parN (n : Node) (pid i : Nat) : Nat := n.core.params.nat pid i

/-- Writes an item of the working set. -/
def Node.setPar (pid i : Nat) (w : Word) (n : Node) : Node :=
  { n with core := { n.core with params := n.core.params.put (pidAt pid i) w } }

/-! ### Parts of the core -/

/-- Changes the core. -/
def Node.modCore (f : Core → Core) (n : Node) : Node := { n with core := f n.core }

/-- Changes a channel's front end. -/
def Node.modFront (c : Ch) (f : Front → Front) (n : Node) : Node :=
  n.modCore fun k => { k with fronts := k.fronts.set c (f (k.fronts.get c)) }

/-- Changes a channel's position services. -/
def Node.modPos (c : Ch) (f : Pos → Pos) (n : Node) : Node :=
  n.modCore fun k => { k with pos := k.pos.set c (f (k.pos.get c)) }

/-- Changes a loop slot. -/
def Node.modSlot (c : Ch) (f : Slot → Slot) (n : Node) : Node :=
  n.modCore fun k => { k with slots := k.slots.set c (f (k.slots.get c)) }

/-- Changes an analogue output. -/
def Node.modOut (c : Ch) (f : AOut → AOut) (n : Node) : Node :=
  n.modCore fun k => { k with outs := k.outs.set c (f (k.outs.get c)) }

/-- Changes the fault manager. -/
def Node.modFaults (f : Faults → Faults) (n : Node) : Node :=
  n.modCore fun k => { k with faults := f k.faults }

/-- Changes the sound-and-heat unit. -/
def Node.modSound (f : Sound → Sound) (n : Node) : Node :=
  n.modCore fun k => { k with sound := f k.sound }

/-- Changes the waves. -/
def Node.modWaves (f : Waves → Waves) (n : Node) : Node :=
  n.modCore fun k => { k with waves := f k.waves }

/-- Changes the line side. -/
def Node.modLine (f : Line → Line) (n : Node) : Node := { n with line := f n.line }

/-- Changes the side-lanes. -/
def Node.modLane (f : Lane → Lane) (n : Node) : Node := { n with lane := f n.lane }

/-- Changes the host port. -/
def Node.modHost (f : HostPort → HostPort) (n : Node) : Node := { n with host := f n.host }

/-- Changes the store. -/
def Node.modStore (f : Store → Store) (n : Node) : Node := { n with store := f n.store }

/-- Applies a function to each channel in ascending order. -/
def eachCh (f : Ch → Node → Node) (n : Node) : Node := f 3 (f 2 (f 1 (f 0 n)))

/-- Applies a function to each of a list of things in order. -/
def eachOf {α : Type} (xs : List α) (f : α → Node → Node) (n : Node) : Node := xs.foldl (fun m x => f x m) n

/-- Whether the core is up (R91). -/
def Node.up (n : Node) : Bool := match n.core.run with
  | .up => true
  | _ => false

/-- A command or event of the core acts only while the core is up. -/
def Node.whenUp (f : Node → Node) (n : Node) : Node := if n.up then f n else n

/-- A command or event of the cellar acts only while VCEL is valid and CRESETN is high (R17, R90). -/
def Node.whenCellar (f : Node → Node) (n : Node) : Node := if n.power.vcel && n.power.cresetn then f n else n

/-- The input kind of a channel. -/
def Node.mode (n : Node) (c : Ch) : InMode := inMode n.core.params c.val

/-- Draws a value the spec leaves open (log entry 1). -/
def Node.drawFree (n : Node) : Nat × Node := (Config.freeNat n.free, { n with free := n.free + 1 })

/-! ### Replies and events -/

/-- The reply bytes of a packet (R48, R54): Y0, Y1 with its check, the reply words. -/
def ReplyPkt.headBytes (p : ReplyPkt) : List Byte :=
  bytesBE 1 p.opcode ++ bytesBE 1 p.client.toNat ++
  bytesBE 3 (p.tag * 4096 + flag p.green 11 + flag p.final 10 + flag p.replayed 9 + flag p.more 8 + p.status) ++
  bytesBE 2 (p.tick % 65536) ++ bytesBE 1 p.words.length

/-- See `ReplyPkt.headBytes`. -/
def ReplyPkt.bytes (p : ReplyPkt) : List Byte :=
  let ws := p.words.flatMap wordBytes
  p.headBytes ++ bytesBE 2 (crc16 (p.headBytes ++ ws)) ++ ws

/-- Length of a reply packet in bytes. -/
def ReplyPkt.size (p : ReplyPkt) : Nat := 10 + 5 * p.words.length

/-- The bytes that reply packets occupy. -/
def replyBytes (ps : List ReplyPkt) : Nat := ps.foldl (fun a p => a + p.size) 0

/-- Whether a receiver is context L. -/
def Client.isL : Client → Bool
  | .ctxL => true
  | .line _ => false

/-- Sends a packet to its receiver: the line stream (R419), or the reply buffer (R589). -/
def Node.emit (d : Client) (isEvent : Bool) (p : ReplyPkt) (n : Node) : Node :=
  if d.isL then
    n.modHost fun h =>
      if h.overflow.isEmpty && decide (replyBytes h.replies + p.size ≤ 8192) then { h with replies := h.replies ++ [p] }
      else { h with overflow := h.overflow ++ [p] }
  else { n with stream := n.stream ++ [{ dest := d, isEvent := isEvent, pkt := p }] }

/-- Sends packets in order. -/
def Node.emitAll (d : Client) (ps : List ReplyPkt) (n : Node) : Node := eachOf ps (fun p m => m.emit d false p) n

/-- Moves waiting replies into the reply buffer while room exists (R589). -/
def refillReplies : Nat → HostPort → HostPort
  | 0, h => h
  | f + 1, h =>
    match h.overflow with
    | [] => h
    | p :: ps =>
      if replyBytes h.replies + p.size ≤ 8192 then refillReplies f { h with replies := h.replies ++ [p], overflow := ps }
      else h

/-- What the node keeps for a client. -/
def Node.clientRec (n : Node) (c : Client) : ClientRec := (n.clients.find? fun r => r.client == c).getD { client := c }

/-- Replaces what the node keeps for a client. -/
def Node.setClient (r : ClientRec) (n : Node) : Node :=
  if n.clients.any fun x => x.client == r.client then
    { n with clients := n.clients.map fun x => if x.client == r.client then r else x }
  else { n with clients := n.clients ++ [r] }

/-- Events of a client not yet delivered (R57). -/
def Node.eventsPending (n : Node) (c : Client) : Nat :=
  if c.isL then ((n.host.replies ++ n.host.overflow).filter fun p => p.opcode == 0xFF).length
  else (n.stream.filter fun i => i.isEvent && i.dest == c).length

/-- Queues an event for one client that has subscribed it (R56, R57). For context L there is no client field to give: Y0 [31:24] is 0
(DESIGN CHOICE, log entry 117). -/
def Node.eventTo (ev : EventCode) (scope : Nat) (st : Stamp) (ws : List Word) (r : ClientRec) (n : Node) : Node :=
  let r := n.clientRec r.client
  let room := decide (n.eventsPending r.client < 32)
  let n' := n.setClient { r with seq := r.seq + 1 }
  if room then
    n'.emit r.client true
      { opcode := 0xFF, client := match r.client with | .line i => i | .ctxL => 0, tag := 4095, tick := n.tick16
        words := [wN (ev.code * 16777216 + scope * 65536 + r.seq.toNat), ltHi st.lt st.mark.code, ltLo st.lt] ++ ws }
  else n'

/-- Gives a bulk frame to the side-lane of a port (R471). -/
def Node.laneSend (p : LinePort) (m : LaneMsg) (n : Node) : Node :=
  n.modLane fun l =>
    let s := match p with | .up => l.seqUp | .dn => l.seqDn
    let l := match p with | .up => { l with seqUp := l.seqUp + 1 } | .dn => { l with seqDn := l.seqDn + 1 }
    { l with out := l.out ++ [{ port := p, seq := s, msg := m, tick := n.time.k48 }] }

/-- The port of the side-lane to the partner: the lower member's partner is on DN (R474). -/
def Lane.partnerPort (l : Lane) : LinePort := if l.isLower then .dn else .up

/-- Whether the node is the upper member of a fused pair (R477). -/
def Node.isUpper (n : Node) : Bool := n.core.mode == .tandem && !n.lane.isLower

/-- Whether the node is the lower member of a fused pair. -/
def Node.isLower (n : Node) : Bool := n.core.mode == .tandem && n.lane.isLower

/-- Raises an event: queued for every client that has subscribed it (R57), or, on the upper member and for its channels,
sent to the lower member (R482). -/
def Node.event (ev : EventCode) (scope : Nat) (st : Stamp) (ws : List Word) (n : Node) : Node :=
  if n.isUpper && decide (scope < 4) then
    n.laneSend n.lane.partnerPort (.event
      { code := BitVec.ofNat 16 ev.code, channel := Fin.ofNat 4 scope, ltHi := ltHi st.lt st.mark.code, ltLo := ltLo st.lt, words := ws })
  else eachOf (n.clients.filter fun r => r.subs.contains ev) (fun r m => m.eventTo ev scope st ws r) n

/-! ### The car's layout -/

/-- The record and reply-queue layout comes into force at a roll call, and before any at the end of Steep (R420, R484). -/
def Node.layoutInForce (n : Node) : Node :=
  if !n.up then n else
  let pair := n.core.mode == .tandem
  let n := n.modLine fun l =>
    { l with
      recLen := n.parN Pid.lineReclen 0, recCh := n.parN Pid.lineRecch 0, recVel := n.parN Pid.lineRecvel 0
      replyQ := n.parN Pid.lineReplyq 0 }
  n.modLane fun l =>
    if pair && !l.pairLayout then
      { l with pairLayout := true, pairRecLen := n.line.recLen, pairRecCh := n.line.recCh, pairRecVel := n.line.recVel }
    else { l with pairLayout := pair }

end Sys2Proof.Machine
end

