-- ==== Sys2Proof/Machine/Commands.lean ====
section
/-!
DEFINITION. Replies to commands, the replay cache, and the operation pool (02_commands_and_clients.md R54, R55,
R77 to R84).
-/
namespace Sys2Proof.Machine

/-- What a command answers at its commit tick: a final reply in these packets, or no final reply yet, or nothing because
its reply has been handed on (R116, R465, R553). -/
inductive Ans where
  | final (s : Status) (packets : List (List Word)) (green : Bool)
  | wait
  | gone
  deriving DecidableEq, Repr

/-- DONE with words. -/
def Ans.ok (ws : List Word) : Ans := .final .done [ws] false

/-- A refusal with no word. -/
def Ans.fail (s : Status) : Ans := .final s [[]] false

/-- Cuts a list into packets of at most `k` elements; one empty packet for the empty list. -/
def chunksOf {α : Type} (k : Nat) : Nat → List α → List (List α)
  | 0, _ => [[]]
  | f + 1, xs => if xs.length ≤ k then [xs] else xs.take k :: chunksOf k f (xs.drop k)

/-- Reply words in packets of 250 (R55). -/
def inPackets (ws : List Word) : List (List Word) := chunksOf 250 ws.length ws

/-- DONE with as many words as it takes (R55). -/
def Ans.okLong (ws : List Word) : Ans := .final .done (inPackets ws) false

/-- The client of a packet (R52). -/
def senderOf (p : Packet) : Client :=
  match p.port with
  | .host => .ctxL
  | .line => .line p.client

/-- The packets of one reply (R55): MORE in every packet but the last, FINAL in the last only. -/
def replyPackets (p : Packet) (s : Status) (green final : Bool) (tick : Nat) : List (List Word) → List ReplyPkt
  | [] => []
  | [ws] => [{ opcode := p.opcode.toNat, client := p.client, tag := p.tag.toNat, green := green, final := final,
               status := s.code, tick := tick, words := ws }]
  | ws :: rest =>
    { opcode := p.opcode.toNat, client := p.client, tag := p.tag.toNat, green := green, final := false, more := true,
      status := s.code, tick := tick, words := ws } :: replyPackets p s green final tick rest

/-- Whether a final reply enters the replay cache (R82). -/
def Status.cached : Status → Bool
  | .busy => false
  | .queueFull => false
  | .tagInUse => false
  | .coreReset => false
  | .updating => false
  | _ => true

/-- Places a final reply in the client's cache, newest first, 16 places (R81). -/
def Node.cacheReply (c : Client) (tag : BitVec 12) (ps : List ReplyPkt) (n : Node) : Node :=
  let r := n.clientRec c
  n.setClient { r with cache := ({ tag := tag, pkts := ps } :: r.cache).take 16 }

/-- Sends a reply that leaves no cache entry. -/
def Node.answer (p : Packet) (s : Status) (ws : List Word) (n : Node) : Node :=
  n.emitAll (senderOf p) (replyPackets p s false true n.tick16 [ws])

/-- Sends a final reply and caches it (R82). -/
def Node.finish (p : Packet) (s : Status) (chunks : List (List Word)) (green : Bool) (tick : Nat) (n : Node) : Node :=
  let ps := replyPackets p s green true tick chunks
  let n := n.emitAll (senderOf p) ps
  if s.cached then n.cacheReply (senderOf p) p.tag ps else n

/-- The ACCEPTED reply, unless FINAL_ONLY is set (R77): Y1 [39:24] carries the commit tick. -/
def Node.accepted (p : Packet) (due : Nat) (n : Node) : Node :=
  if p.finalOnly then n else n.emitAll (senderOf p) (replyPackets p .accepted false false (due % 65536) [[]])

/-- The pool operation with an order number. -/
def Node.opOf (n : Node) (o : Nat) : Option PoolOp := n.core.pool.find? fun x => x.order == o

/-- Takes an operation out of the pool (R80). -/
def Node.dropOp (o : Nat) (n : Node) : Node := n.modCore fun k => { k with pool := k.pool.filter fun x => x.order != o }

/-- The final status of a command run as two parts (R480): the failing part with the lowest channel, or the lower
member's part when the command is node-wide. -/
def pairStatus (mask : BitVec 8) (lower upper : Status) : Status :=
  if lower != .done then lower else if mask = 0 then lower else upper

/-- Ends an operation with its final reply; on the upper member of a pair, with a RESULT to the lower (R479); the first
part of a command run as two parts waits for the other, and the reply carries the lower member's words (R480). -/
def Node.endOp (op : PoolOp) (s : Status) (chunks : List (List Word)) (green : Bool) (n : Node) : Node :=
  match op.side, op.part with
  | .heldForPair, _ =>
    (n.dropOp op.order).laneSend n.lane.partnerPort (.result
      { tag := op.packet.tag, client := op.packet.client, fromHost := op.client.isL, status := BitVec.ofNat 8 s.code
        tick := BitVec.ofNat 16 n.time.k48, green := green, words := chunks.flatten })
  | .both, none =>
    n.modCore fun k =>
      let pool : List PoolOp := k.pool.map fun x => if x.order == op.order then { x with part := some (false, s, chunks.flatten), phase := .committed } else x
      { k with pool := pool }
  | .both, some (_, s', _) => (n.dropOp op.order).finish op.packet (pairStatus op.packet.mask s s') chunks green n.tick16
  | _, _ => (n.dropOp op.order).finish op.packet s chunks green n.tick16

/-- Ends an operation before its commit: of one that would run as two parts, no part is awaited (R64, R128). -/
def Node.endWhole (op : PoolOp) (s : Status) (n : Node) : Node :=
  n.endOp (if op.side = .both then { op with side := .here } else op) s [[]] false

/-- Ends the operation with an order number, where it is still in the pool. -/
def Node.endOrder (o : Nat) (s : Status) (ws : List Word) (n : Node) : Node :=
  match n.opOf o with
  | some op => n.endOp op s (inPackets ws) false
  | none => n

/-- Ends an optional operation. -/
def Node.endOpt (o : Option Nat) (s : Status) (ws : List Word) (n : Node) : Node :=
  match o with
  | some o => n.endOrder o s ws
  | none => n

/-- Marks an operation committed. -/
def Node.markCommitted (o : Nat) (n : Node) : Node :=
  n.modCore fun k => { k with pool := k.pool.map fun x => if x.order == o then { x with phase := .committed } else x }

/-- Opcode of a packet (R557). -/
def opcodeOf (p : Packet) : Option Opcode := Opcode.ofCode p.opcode.toNat

/-- Whether ACCEPTED is sent when a command enters the pool (R77, R479, R557). -/
def PoolOp.acceptedAtOnce (op : PoolOp) : Bool :=
  op.scheduled || op.side == .sent || op.side == .both ||
    (op.side == .here && (match opcodeOf op.packet with
      | some o => o.answersLater
      | none => false))

/-- Delivers a command's answer (R77): ACCEPTED is sent at commit where the command goes on and has not been answered so. -/
def Node.deliver (op : PoolOp) (a : Ans) (n : Node) : Node :=
  match a with
  | .final s ws g => n.endOp op s ws g
  | .wait => if op.acceptedAtOnce || op.side != .here then n else n.accepted op.packet op.due
  | .gone => (if op.acceptedAtOnce || op.side != .here then n else n.accepted op.packet op.due).dropOp op.order

/-- The slots an operation holds: a HOP_ADD takes one per entry (R273). -/
def slotsOf (p : Packet) : Nat := if p.opcode = 0x52 then max 1 (p.words.length / 4) else 1

/-- Occupied slots (R78): commands and armed hop entries, on a lower member those of the pair (R477). -/
def Node.occupied (n : Node) : Nat :=
  n.core.pool.foldl (fun a x => a + slotsOf x.packet) 0 + n.core.hops.length + n.lane.remoteHops.length

/-- Slots a client holds (R78). -/
def Node.occupiedBy (n : Node) (c : Client) : Nat :=
  (n.core.pool.filter fun x => x.client == c).foldl (fun a x => a + slotsOf x.packet) 0 +
  (n.core.hops.filter fun x => x.client == c).length + (n.lane.remoteHops.filter fun x => x.2.1 == c).length

/-- How often a pool slot has been used (R273). -/
def usesOf (s : Nat) (us : List (Nat × Nat)) : Nat := ((us.find? fun e => e.1 == s).map Prod.snd).getD 0

/-- Counts a use of a slot. -/
def bumpUses (s : Nat) (us : List (Nat × Nat)) : List (Nat × Nat) :=
  (s, usesOf s us + 1) :: us.filter fun e => e.1 != s

/-- The first free slot of the pool from `i` on, round its end. -/
def freeSlot (used : List Nat) : Nat → Nat → Nat
  | 0, i => i
  | f + 1, i => if used.contains i then freeSlot used f ((i + 1) % 4096) else i

/-- Where the search for a free slot begins: anywhere (log entry 14), but at the lowest slot in a pair (log entry 24). -/
def Node.slotStart (order entry : Nat) (n : Node) : Nat := if n.core.mode = .tandem then 0 else Config.slotPick order entry % 4096

/-- The slots in use. -/
def Node.usedSlots (n : Node) : List Nat := n.core.pool.map PoolOp.slot ++ n.core.hops.map HopEntry.slot

/-- The slot the next operation takes: a free one, the spec does not say which (R78). -/
def Node.nextSlot (n : Node) : Nat := freeSlot n.usedSlots n.usedSlots.length (n.slotStart n.core.nextOrder 0)

end Sys2Proof.Machine
end

