-- ==== Sys2Proof/Machine/Tracking.lean ====
section
/-!
DEFINITION. The tracking converter of one channel: the loop, acquisition, coasting, positions, direction, the
angle-correction map and its learning, the green position and its bound (06_tracking_converter.md R195 to R224,
07_green_and_kilned.md R238, R240).
-/
namespace Sys2Proof.Machine

/-- A measurement on its way into a step: `m` in fx turns (R201), and for inputs that count, the raw position and count. -/
structure StepIn where
  m : Int
  clean : Bool
  u : Option Int := none
  cnt : Option Int := none
  /-- the position of an SSI word before the map correction, au (R208, R223) -/
  ang : Option Int := none
  deriving DecidableEq, Repr

/-- The map correction at an angle, fx turns (R213). -/
def mapCorrection (map : List (BitVec 16)) (angle : Int) : Int :=
  let pos := fxFrac angle * 256
  let i := (pos / fxOne).toNat % 256
  let f := pos % fxOne
  let a : Int := (map.getD i 0).toInt
  let b : Int := (map.getD ((i + 1) % 256) 0).toInt
  (a * (fxOne - f) + b * f) / 16777216

/-- The turn of a RESOLVER angle that puts it nearest to the position last held (R204). -/
def nearestTurn (held : Bool) (th m : Int) : Int :=
  if held then m + roundDiv (th - m) fxOne * fxOne else fxFrac m

/-- `diff(m, tp)` of R195. -/
def trkDiff (mode : InMode) (m tp : Int) : Int :=
  match mode with
  | .resolver => phaseDiff m tp
  | _ => wrapTurns (m - tp)

/-- `wn`, fx 1/s (R195). -/
def trkWn (ps : ParamMem) (c : Nat) : Int := fxTwoPi * ps.int Pid.trkBw c

/-- The loop angle `th` as an unwrapped position in au, rounded under R10. -/
def thAu (t : Trk) : Int := fxToAu t.th

/-- The position by which direction D of a channel is judged, in counts or au, and the motion against D that must be exceeded
(R212). On a HALL channel D changes at the reversing edge itself (06_tracking_converter.md, Corners): DEDUCED, log entry 94. -/
def dirPosition (ps : ParamMem) (c : Nat) (mode : InMode) (k : Kil) : Int × Int :=
  match mode with
  | .sincos => (k.cnt, 1)
  | .hall => (k.cnt, 0)
  | .ssi => (k.u, 2 ^ (24 - ps.nat Pid.inSsist c))
  | _ => (k.u, 1)

/-- The update of direction D by a kilned value: it changes when the position has moved more than one count against D
from the furthest position reached, differences taken under R8 (R212). -/
def updateDir (pos : Int × Int) (t : Trk) : Trk :=
  match t.extreme with
  | none => { t with extreme := some pos.1 }
  | some x =>
    let moved := if t.dir then diffAu pos.1 x else diffAu x pos.1
    if 0 ≤ moved then { t with extreme := some pos.1 }
    else if moved < -pos.2 then { t with dir := !t.dir, extreme := some pos.1, idxDirChanged := true }
    else t

/-- Takes a value as kilned (R206, R211, R212, R227, R238). -/
def trkKiln (ps : ParamMem) (c : Nat) (mode : InMode) (k : Kil) (t : Trk) : Trk :=
  let t := updateDir (dirPosition ps c mode k) t
  let k : Kil := { k with coasts := t.coasts }
  { t with
    kilBefore := t.kil, kil := some k, kilTick := some k, valid := true, fresh := true, held := true, coast := false
    basis := { u := k.u, v := k.v, st := k.st, coast := false }
    vs := ((k.v, k.st.e) :: t.vs).take 32, kilned := t.kilned + 1 }

/-- The green values of a step that is not kilned (R202, R203, R211). -/
def trkGreen (st : Stamp) (t : Trk) : Trk :=
  { t with coast := true, coasts := t.coasts + 1, held := true, basis := { u := thAu t, v := fxToAu t.v, st := st, coast := true } }

/-- The kilned value of a step (R206). -/
def stepKil (x : StepIn) (st : Stamp) (t : Trk) : Kil :=
  let u := x.u.getD (thAu t)
  { u := u, v := (fxToV40 t.v).toInt, cnt := x.cnt.getD (thAu t), st := st, ang := x.ang.getD u }

/-- Whether a kilned value lies beyond a zero of the corrected angle or of the single-turn part from the one before it: a virtual
index (R223). -/
def virtualIndex (mode : InMode) (before : Option Kil) (k : Kil) : List ChanEvent :=
  match mode, before with
  | .resolver, some b => if b.ang / 16777216 = k.ang / 16777216 then [] else [.index k.cnt k.u k.st]
  | .ssi, some b => if b.ang / 16777216 = k.ang / 16777216 then [] else [.index k.cnt k.u k.st]
  | _, _ => []

/-- The refutation judgement of a clean step (R240): the origin is that of the value refuted. -/
def refuteEvents (ps : ParamMem) (c : Nat) (mode : InMode) (r : Int) (coasting : Bool) (st : Stamp) : List ChanEvent :=
  if ps.int Pid.trkRefute c < r.natAbs then
    [.refuted r (if coasting then 2 else match mode with | .hall => 3 | .ssi => 4 | _ => 1) st]
  else []

/-- Takes |r| of a clean step into B0's record (R238). -/
def pushR (r : Int) (t : Trk) : Trk := { t with rs := (r.natAbs :: t.rs).take 16 }

/-- The elapsed time from the previous sample instant, ns (R195, R619). -/
def trkElapsed (rate : TickRate) (st : Stamp) (t : Trk) : Int :=
  match t.prev with
  | some p => ((st.e - p : Nat) : Int)
  | none => (rate.ns : Int)

/-- The predicted loop angle of a sample instant, θ + v T (R195). -/
def trkPredict (rate : TickRate) (st : Stamp) (t : Trk) : Int := t.th + t.v * trkElapsed rate st t / 1000000000

/-- wn T in fx, for the elapsed time `ns` since the previous sample instant (R195). -/
def trkWnT (ps : ParamMem) (c : Nat) (ns : Int) : Int := trkWn ps c * ns / 1000000000

/-- wn² T, the gain of the velocity, fx 1/s (R195). -/
def trkGainV (ps : ParamMem) (c : Nat) (ns : Int) : Int := fxMul (trkWn ps c) (trkWnT ps c ns)

/-- α = 2 ζ wn T, the gain of the angle (R195, R196). -/
def trkAlpha (ps : ParamMem) (c : Nat) (ns : Int) : Int := fxMul (2 * fxRat (ps.int Pid.trkZeta c) 1000) (trkWnT ps c ns)

/-- The clean step of R195 without its rounding, in turns: α = 2 ζ wn T and β = wn² T² are the gains of R196's closed loop. -/
def loopStep (alpha beta T m th v : Rat) : Rat × Rat :=
  let tp := th + v * T
  let e := m - tp
  (tp + alpha * e, v + beta / T * e)

/-- The tick step of R195 for a sample instant `st`, with acquisition (R202), coasting (R203), re-acquisition (R205)
and the refutation judgement of every clean step (R240; log entry 95 for the first measurement of an acquisition). -/
def trkStep (ps : ParamMem) (c : Nat) (mode : InMode) (rate : TickRate) (x : StepIn) (st : Stamp) (injLot : Bool) (t : Trk) :
    Trk × List ChanEvent :=
  let ns := trkElapsed rate st t
  let tp := trkPredict rate st t
  let turned := if mode = .resolver then nearestTurn t.held t.th x.m else x.m
  let t := { t with prev := some st.e }
  match t.acq with
  | .first =>
    if x.clean then
      (trkGreen st { t with th := turned, v := 0, acq := .counting 0, err := 0 }, [.basis, .anchor])
    else ({ trkGreen st { t with th := tp } with held := t.held }, [.basis])
  | a =>
    if !x.clean then
      let t := { t with th := tp, acq := match a with | .counting _ => .counting 0 | b => b }
      (trkGreen st t, [.basis])
    else
      let e := trkDiff mode x.m tp
      let r := fxToAu e
      let ref := refuteEvents ps c mode r t.coast st
      let t := pushR r { t with err := e }
      if fxRat (ps.int Pid.trkLoterr c) 3600 < e.natAbs then
        (trkGreen st { t with th := turned, acq := .counting 0 },
          ref ++ [.trip .lot 0 injLot, .basis])
      else
        let v := clampI (-(2000 * fxOne)) (2000 * fxOne) (t.v + fxMul (trkGainV ps c ns) e)
        let th := tp + fxMul (trkAlpha ps c ns) e
        let t := { t with th := th, v := v }
        match a with
        | .counting n =>
          let n := if 4 * e.natAbs ≤ fxRat (ps.int Pid.trkLoterr c) 3600 then n + 1 else 0
          let t := { t with acq := .counting n }
          let t := trkGreen st t
          ({ t with due := if 16 ≤ n then some (.acquired st) else t.due }, ref ++ [.basis])
        | _ =>
          let k := stepKil x st t
          (trkKiln ps c mode k t, ref ++ virtualIndex mode t.kil k ++ [.kilned, .basis])

/-- The end of acquisition: the step at which 16 consecutive measurements held yields the first kilned value (R202). A zero that the
angle passed while a re-acquisition ran gives its virtual index (R223). -/
def trkAcquired (ps : ParamMem) (c : Nat) (mode : InMode) (x : StepIn) (st : Stamp) (t : Trk) : Trk × List ChanEvent :=
  let t := { t with acq := .done, due := none }
  let k := stepKil x st t
  (trkKiln ps c mode k t, (if t.valid then virtualIndex mode t.kil k else []) ++ [.kilned, .basis])

/-- Starts tracking: acquisition begins and no kilned value is valid until it ends (R202, R211, R230). -/
def trkStart (t : Trk) : Trk :=
  if t.running then t else
  { t with
    running := true, prev := none, acq := .first, valid := false, fresh := false, coast := false, due := none
    rs := [], vs := [], kilned := 0, losCount := 0, dosCount := 0, settle := 0, settleEnding := false }

/-- `base` au plus `num / den` au, of which the position reported with offset `off` is rounded under R10 as a whole. -/
def addAu (off base num den : Int) : Int :=
  let p := diffAu (base + off) 0
  base + (roundDiv (p * den + num) den - p)

/-- The green position at an elapsed instant, raw au (R211); `hall` gives the bounds of the present sector, of which P_g stops
1 au short of the one it moves toward. -/
def pgRaw (off : Int) (b : Basis) (hall : Option (Int × Int)) (e : Nat) : Int :=
  let p := addAu off b.u (b.v * ((e - b.st.e : Nat) : Int)) 1000000000
  match hall with
  | some (lo, hi) => if 0 < b.v then min p (fxToAu hi - 1) else if b.v < 0 then max p (fxToAu lo + 1) else p
  | none => p

/-- The sector bounds that limit P_g on a HALL channel (R211). -/
def hallBounds (mode : InMode) (h : HallIn) : Option (Int × Int) :=
  match mode, h.sector with
  | .hall, some _ => some (h.lo, h.hi)
  | _, _ => none

/-- The green position of a channel at an elapsed instant, raw au (R211). -/
def frontPg (ps : ParamMem) (c : Nat) (f : Front) (e : Nat) : Int :=
  pgRaw (ps.int Pid.posOffset c) f.trk.basis (if f.trk.running then hallBounds (inMode ps c) f.hall else none) e

/-- Stops tracking: P_g holds the value it had (R211) and the channel keeps its last kilned values (R209). -/
def trkStop (ps : ParamMem) (c : Nat) (e : Nat) (f : Front) : Front :=
  if !f.trk.running then f else
  let b := f.trk.basis
  { f with trk := { f.trk with
      running := false, fresh := false, coast := false, due := none, settle := 0, settleEnding := false
      acq := .first, learn := none
      basis := { b with u := frontPg ps c f e, v := 0 } } }

/-- The largest acceleration A over the latest 16 kilned steps, fx au/s per ns (R238). -/
def maxAccel (vs : List (Int × Nat)) : Int :=
  ((vs.zip (vs.drop 16)).take 16).foldl (fun m p =>
    let dt : Int := ((p.1.2 - p.2.2 : Nat) : Int)
    let a : Int := if dt = 0 then 0 else (p.1.1 - p.2.1).natAbs * fxOne / dt
    if m < a then a else m) 0

/-- The green error bound at an elapsed instant, au (R238). -/
def greenBound (ps : ParamMem) (c : Nat) (mode : InMode) (t : Trk) (e : Nat) : Int :=
  match t.kil with
  | none => 549755813887
  | some k =>
    if !t.valid || decide (t.kilned < 32) then 549755813887 else
    let b0 : Int := (t.rs.foldl max 0 : Nat)
    let s := if mode = .hall then fxRat 16777216 (6 * ps.int Pid.inPoles c) else 0
    let d : Int := if e < k.st.e then ((k.st.e - e : Nat) : Int) else ((e - k.st.e : Nat) : Int)
    let x := b0 * fxOne + s + maxAccel t.vs * d * d / 2000000000
    clampI 0 549755813887 ((x + fxOne - 1) / fxOne)

/-- LOS and DOS judgements of a RESOLVER or SINCOS sample (R217); `counts` is false where the tick does not count.
`S`, `C` and the result's cleanliness are after injection, and `th` is the loop angle predicted for the sample. -/
def trkLevels (ps : ParamMem) (c : Nat) (th s q : Int) (counts : Bool) (inj : ChanInj) (t : Trk) : Trk × Bool × List ChanEvent :=
  let an := aNom ps c
  let m := hypot s q
  let sn := fxSin th
  let cs := fxCos th
  let half := fxOne / 2
  let loaded := decide (t.acq ≠ .first)
  let es := if loaded && decide (half ≤ sn.natAbs) then some (fxDiv s sn) else t.estS
  let ec := if loaded && decide (half ≤ cs.natAbs) then some (fxDiv q cs) else t.estC
  let low := decide (m * 100 < ps.int Pid.trkLoslvl c * an)
  let off := match es, ec with
    | some a, some b => decide (ps.int Pid.trkDoslvl c * an < ((a - b).natAbs : Int) * 100)
    | _, _ => false
  let t := { t with ampl := m, estS := es, estC := ec, losLow := low, dosLow := off }
  if !counts then (t, !low && !off, []) else
  let nl := if low then t.losCount + 1 else 0
  let nd := if off then t.dosCount + 1 else 0
  let ev1 := if low && decide (ps.nat Pid.trkLostime c ≤ nl) then [.trip .los 0 inj.los] else if low then [] else [.cease .los]
  let ev2 := if off && decide (ps.nat Pid.trkDostime c ≤ nd) then [.trip .dos 0 inj.dos] else if off then [] else [.cease .dos]
  ({ t with losCount := nl, dosCount := nd }, !low && !off, ev1 ++ ev2)

/-- The SSI position of a passing field in single-turn bits, continued over wraps of the multi-turn part (R208). -/
def ssiPosition (ps : ParamMem) (c : Nat) (field : Nat) (prev : Option (Int × Nat)) : Int :=
  match prev with
  | none => field
  | some (p, f) =>
    let w : Int := 2 ^ ps.nat Pid.inSsiposw c
    let d := (field - f + w / 2) % w - w / 2
    p + d

/-- The turn-counted position of an SSI word, fx turns: its single-turn part has IN.SSIST bits (R208). -/
def ssiTurns (ps : ParamMem) (c : Nat) (pos : Int) : Int := pos * fxOne / (2 : Int) ^ ps.nat Pid.inSsist c

/-- Adds a residual to a bin (R215). -/
def addBin : List (Int × Nat) → Nat → Int → List (Int × Nat)
  | [], _, _ => []
  | b :: bs, 0, r => (b.1 + r, b.2 + 1) :: bs
  | b :: bs, i + 1, r => b :: addBin bs i r

/-- The residuals of a turn from the straight line in time between its zero crossings, taken into the bins (R215). Bin i
holds the angles from i/256 of a turn up to (i + 1)/256 (DESIGN CHOICE, log entry 120). -/
def learnTurn (t0 t1 a0 : Int) (sgn : Int) : List (Nat × Int) → List (Int × Nat) → List (Int × Nat)
  | [], bins => bins
  | (t, a) :: rest, bins =>
    let line := a0 + sgn * fxDiv ((t : Int) * fxOne - t0) (t1 - t0)
    let i := (fxFrac a * 256 / fxOne).toNat
    learnTurn t0 t1 a0 sgn rest (addBin bins i (a - line))

/-- The map of collected bins: bin averages less their mean, au; none where an entry lies beyond ±32,767 (R215). -/
def learnMap (bins : List (Int × Nat)) : Option (List Int) :=
  let av := bins.map fun b => if b.2 = 0 then (0 : Int) else b.1 / (b.2 : Int)
  let mean := (av.foldl (· + ·) 0) / 256
  let es := av.map fun a => roundDiv (a - mean) 1099511627776
  if es.all fun e => decide (e.natAbs ≤ 32767) then some es else none

/-- Whether the turns' rates agree within 1 % and lie in 0.5 turns/s to F_tick/512 (R215). -/
def learnRatesOk (rate : TickRate) (spans : List Int) : Bool :=
  let n : Int := spans.length
  let total := spans.foldl (· + ·) 0
  -- mean rate n / total; each turn 1 / s: |1/s − n/total| ≤ n/(100 total)
  decide (0 < total) && spans.all (fun s => decide (100 * (total - n * s).natAbs ≤ n * s)) &&
    decide (total ≤ n * 2000000000 * fxOne) && decide (n * 512 * 1000000000 * fxOne ≤ rate.hz * total)

/-- One step of LEARN with the uncorrected angle of a step, unwrapped fx turns (R215). -/
def learnStep (rate : TickRate) (revs : Nat) (e : Nat) (m : Int) (clean dir : Bool) (l : Learn) : Learn :=
  if l.outcome.isSome then l else
  match l.last with
  | none => if clean then { l with last := some (e, m), dir := dir } else l
  | some (e0, m0) =>
    if !clean || dir != l.dir then
      if l.started then { l with outcome := some none } else { l with last := if clean then some (e, m) else none, dir := dir }
    else
      let m := m0 + phaseDiff m m0
      let crossed := decide (m0 / fxOne ≠ m / fxOne)
      if !crossed then
        { l with last := some (e, m), turn := if l.started then (e, m) :: l.turn else [] }
      else
        let sgn : Int := if m0 < m then 1 else -1
        let a0 := (if m0 < m then m / fxOne else m0 / fxOne) * fxOne
        let cr := (e0 : Int) * fxOne + fxDiv ((a0 - m0) * ((e - e0 : Nat) : Int)) (m - m0)
        if !l.started then
          { l with started := true, cross := cr, turn := [(e, m)], last := some (e, m), bins := List.replicate 256 (0, 0) }
        else
          let bins := learnTurn l.cross cr (a0 - sgn * fxOne) sgn l.turn l.bins
          let spans := (cr - l.cross) :: l.spans
          let l := { l with bins := bins, spans := spans, turns := l.turns + 1, cross := cr, turn := [(e, m)], last := some (e, m) }
          if revs ≤ l.turns then
            { l with outcome := some (if learnRatesOk rate spans then learnMap bins else none) }
          else l

/-- The index registers after an index (R223, R224); the deviation is judged by the caller with POS.IDXEN. -/
def takeIndex (cnt u : Int) (t : Trk) : Trk :=
  { t with idxCnt := wI cnt, idxU := some u, idxNum := t.idxNum + 1 }

/-- The deviation of an index from the one before (R224). -/
def indexDev (ps : ParamMem) (c : Nat) (mode : InMode) (old new : Int) (turned : Bool) : Int :=
  let d : Int := ((diff40 (wI new) (wI old)).natAbs : Nat)
  let e : Int := if mode = .hall then 6 * ps.int Pid.inPoles c else 4096 * ps.int Pid.inLines c
  let dev := d - e
  if turned then (if d.natAbs < dev.natAbs then d else dev) else dev

end Sys2Proof.Machine
end

