-- ==== Sys2Proof/Machine/Flags.lean ====
section
/-!
DEFINITION. The status word S40, the value marks VM40 and M8, the position groups of replies, the cyclic record and
CTL.STATE (01_node_and_modes.md R44, R45; 07_green_and_kilned.md R228 to R233; 12_grenrus_line.md R418).
-/
namespace Sys2Proof.Machine

/-- The code of a mode (R44). -/
def Mode.code : Mode → Nat
  | .cask => 0
  | .track => 1
  | .drive => 2
  | .tandem => 3

/-- Whether the loops run: DRIVE or TANDEM (R26, R27). -/
def Node.driving (n : Node) : Bool := n.core.mode == .drive || n.core.mode == .tandem

/-- Whether a slot is running (R293). -/
def Node.slotRunning (n : Node) (c : Ch) : Bool :=
  let s := n.core.slots.get c
  n.up && n.driving && s.enabled && !s.parked

/-- POS.OFFSET of a channel, au (R266). -/
def Node.offset (n : Node) (c : Ch) : Int := n.par Pid.posOffset c.val

/-- A raw position as P40 (R210, R266). -/
def Node.p40 (n : Node) (c : Ch) (u : Int) : Word := wI (u + n.offset c)

/-- A channel that is OFF or unavailable has no value (R230). -/
def Node.noChannel (n : Node) (c : Ch) : Bool := n.mode c == .off || (n.core.fronts.get c).unavailable

/-- An age in units of 5 ns, saturating (R230). -/
def age5 (ns : Int) : Nat := (clampI 0 0xFFFFFFFF (ns / 5)).toNat

/-- A VM40 word (R230): kind 0 KILNED, 1 GREEN. -/
def vm40 (kind : Nat) (coast : Bool) (mark : TimeMark) (origin : Nat) (age : Int) : Word :=
  wN (kind * 2 ^ 38 + flag coast 37 + mark.code * 2 ^ 35 + origin * 2 ^ 32 + age5 age)

/-- The VM40 of kind NONE (R230). -/
def vmNone : Word := 0x8000000000

/-- The channel's kilned value at or before P0 of the tick in progress, where it has one (R230, R231). -/
def Node.kilned (n : Node) (c : Ch) : Option Kil :=
  if n.noChannel c || !(n.core.fronts.get c).trk.valid then none else (n.core.fronts.get c).trk.kilTick

/-- Whether a channel coasts (R203, R230). -/
def Node.coasting (n : Node) (c : Ch) : Bool := (n.core.fronts.get c).trk.running && (n.core.fronts.get c).trk.coast

/-- The kilned group of a channel: P40, V40, CNT40, VM40 (R230, R231). -/
def Node.kilnedGroup (n : Node) (c : Ch) : List Word :=
  match n.kilned c with
  | none => [0, 0, 0, vmNone]
  | some k => [n.p40 c k.u, wI k.v, wI k.cnt,
      vm40 0 (n.coasting c) k.st.mark 0 ((n.time.p0e : Int) - k.st.e)]

/-- Elapsed P3 of the tick in progress (R123). -/
def Node.p3e (n : Node) : Nat := n.time.p0e + n.time.outat

/-- The origin of the green position (R228). -/
def greenOrigin (mode : InMode) (b : Basis) : Nat :=
  if b.coast then 2 else match mode with
  | .hall => 3
  | .ssi => 4
  | _ => 1

/-- The green group of a channel at P3: P40, V40, VM40, bound (R231, R232). -/
def Node.greenGroup (n : Node) (c : Ch) : List Word :=
  let f := n.core.fronts.get c
  match n.kilned c with
  | none => [0, 0, vmNone, 549755813887]
  | some _ =>
    let b := f.trk.basis
    [n.p40 c (frontPg n.core.params c.val f n.p3e), wI b.v,
     vm40 1 b.coast b.st.mark (greenOrigin (n.mode c) b) ((n.p3e : Int) - b.st.e),
     wI (greenBound n.core.params c.val (n.mode c) f.trk n.p3e)]

/-- The mark byte M8 of a channel (R233). -/
def Node.m8 (n : Node) (c : Ch) : Nat :=
  match n.kilned c with
  | none => 0x40
  | some k => flag (n.coasting c) 7 + min 63 ((n.time.p0e - k.st.e) / n.tick)

/-- Whether an instance of F.STEEP stands for a channel (R112). -/
def steepChannel (_ : Core) (scope : Nat) : Option Nat := if scope < 8 then some (scope % 4) else none

/-- Whether an active instance is of a channel's scope (R44, R112). -/
def instOnChannel (k : Core) (c : Nat) (i : FaultInst) : Bool :=
  match i.code with
  | .steep => steepChannel k i.scope == some c
  | _ => i.scope == c

/-- The highest class of the active instances (R500). -/
def Faults.topClass (f : Faults) : Nat := f.insts.foldl (fun a i => max a i.cls) 0

/-- Bits of channels for which a condition holds, from bit `lo` on. -/
def chBits (lo : Nat) (p : Ch → Bool) : Nat := flag (p 0) lo + flag (p 1) (lo + 1) + flag (p 2) (lo + 2) + flag (p 3) (lo + 3)

/-- S40 [23:16] of a channel (R44). -/
def Node.chFault (n : Node) (c : Ch) : Bool :=
  (n.core.fronts.get c).unavailable || n.core.faults.insts.any fun i => instOnChannel n.core c.val i

/-- S40 [15:8] of a channel (R44): no kilned value of the present tick. -/
def Node.chGreen (n : Node) (c : Ch) : Bool :=
  let t := (n.core.fronts.get c).trk
  t.running && !t.fresh && !n.noChannel c

/-- Fault codes of S40 bit 5 (R44, R397). -/
def FaultCode.fanOrAir : FaultCode → Bool
  | .medium => true
  | .fanBlocked => true
  | .tachWire => true
  | .fanStopped => true
  | .ductBlocked => true
  | _ => false

/-- S40 bit 5 (R44). -/
def Node.fanBit (n : Node) : Bool := n.core.faults.insts.any fun i => i.code.fanOrAir

/-- S40 bit 4 (R44, R384). -/
def Node.heatBit (n : Node) : Bool :=
  n.core.faults.insts.any (fun i => i.code == .overtemp) || n.core.sound.rtds.toList.any fun r => r.valid && r.warn

/-- S40 bit 2 (R44, R547). -/
def Node.pendingImage (n : Node) : Bool := n.store.images.a.state == .pending || n.store.images.b.state == .pending

/-- S40 bit 32 (R44): a voltage or time reference outside its warning band. The spec leaves open whether a crystal off the RC arbiter is
such a time reference: the bit stays clear (DESIGN CHOICE, log entry 108). -/
def Node.refWarn (n : Node) : Bool :=
  decide (0 < n.core.faults.refs.band) || n.core.faults.refs.creep || decide (100000 < n.time.devPpb.natAbs)

/-- S40 with the bits 33 and 1 given (R44, R45); in TANDEM the lower member adds its partner's (R483). -/
def Node.s40 (n : Node) (refuted events : Bool) : Word :=
  let pair := n.isLower
  let k := n.lane.pkt
  let cls := if pair then max n.core.faults.topClass k.cls else n.core.faults.topClass
  wN (n.core.mode.code * 2 ^ 38 + flag n.store.caskLocked 37 + flag (bitOf n.steepWord 39) 36 + cls * 2 ^ 34 +
    flag refuted 33 + flag n.refWarn 32 + chBits 24 n.slotRunning + chBits 16 n.chFault + chBits 8 n.chGreen +
    (if pair then k.running * 2 ^ 28 + k.faulted * 2 ^ 20 + k.coasting * 2 ^ 12 else 0) +
    flag (n.line.folded) 7 + flag n.lane.survivor 6 + flag (n.fanBit || (pair && k.fanBit)) 5 +
    flag (n.heatBit || (pair && k.heatBit)) 4 + flag (!n.core.faults.points.isEmpty || (pair && k.pitch)) 3 +
    flag n.pendingImage 2 + flag events 1 + 1)

/-- Events pending for all clients, saturating at 255 (R418). -/
def Node.eventCount (n : Node) : Nat :=
  min 255 (((n.host.replies ++ n.host.overflow).filter fun p => p.opcode == 0xFF).length + (n.stream.filter OutItem.isEvent).length)

/-- Pads or cuts bytes to a length. -/
def padTo (k : Nat) (bs : List Byte) : List Byte := (bs ++ List.replicate k 0#8).take k

/-- The marks and positions of a cyclic record for the channels of a mask (R418). -/
def Node.recordPos (n : Node) (ch : Nat) : List Byte :=
  (maskChs ch).flatMap fun c => bytesBE 1 (n.m8 c) ++ wordBytes ((n.kilned c).elim 0 fun k => n.p40 c k.u)

/-- The velocities of a cyclic record for the channels of a mask (R418). -/
def Node.recordVel (n : Node) (vel : Nat) : List Byte :=
  (maskChs vel).flatMap fun c => wordBytes ((n.kilned c).elim 0 fun k => wI k.v)

/-- The marks and positions of channels without a part (R418, R484). -/
def emptyPos (ch : Nat) : List Byte := (maskChs ch).flatMap fun _ => [0x40#8] ++ List.replicate 5 0#8

/-- The velocities of channels without a part (R418, R484). -/
def emptyVel (vel : Nat) : List Byte := (maskChs vel).flatMap fun _ => List.replicate 5 0#8

/-- The snapshot of the tick in progress for the cyclic record (R14, R418); bit 33 of S40 is set at the cycle start. -/
def Node.snapshot (n : Node) : Snap :=
  { tick := n.time.k48
    head := wordBytes (n.s40 false (decide (0 < n.eventCount))) ++ bytesBE 1 n.eventCount
    pos := n.recordPos n.line.recCh, vel := n.recordVel n.line.recVel }

/-- A snapshot with bit 33 of S40 (R45). -/
def Snap.refuted (x : Snap) : Snap :=
  match x.head with
  | b :: bs => { x with head := (b ||| 2#8) :: bs }
  | [] => x

/-- CTL.STATE (R330). -/
def Slot.stateWord (s : Slot) : Word :=
  wN (flag s.missBit 0 + flag s.parked 1 + flag s.braking 2 + flag s.held 3 + flag s.yLimited 4 + flag s.vcLimited 5 +
    flag s.inPosition 6)

end Sys2Proof.Machine
end

