-- ==== Sys2Proof/Machine/FaultOps.lean ====
section
/-!
DEFINITION. Detectors' verdicts, occurrences and their 10 ms windows, EV.FAULT and the log entries, cessation and
clearing (15_faults_and_pitch_points.md R500, R502, R506, R507, R512, R516, R517), and pitch points (R529 to R531).
-/
namespace Sys2Proof.Machine

/-- The instance of a code and scope. -/
def Node.inst (n : Node) (f : FaultCode) (scope : Nat) : Option FaultInst :=
  n.core.faults.insts.find? fun i => i.code == f && i.scope == scope

/-- Whether an instance of a code and scope is active (R500). -/
def Node.isActive (n : Node) (f : FaultCode) (scope : Nat) : Bool := (n.inst f scope).isSome

/-- Forms an EV.FAULT and its log entry for the occurrences of a window (R516, R517). -/
def Node.formFault (w : FaultWindow) (count : Nat) (n : Node) : Node :=
  let e : LogEntry :=
    { code := w.code, cls := w.cls, scope := w.scope, kind := w.kind.code, raised := w.raised, injected := w.injected
      mark := w.first.mark, lt := w.first.lt, ctx := w.ctx, occurrences := count }
  let n := n.event .fault w.scope w.first
    [wN (w.code.code + w.cls * 2 ^ 16 + w.kind.code * 2 ^ 18 + flag w.raised 20 + flag w.injected 21), w.ctx, wN count]
  n.modFaults fun f => { f with log := f.log ++ [{ entry := e, formed := n.now }] }

/-- One occurrence of a fault (R516): at once where no window of its code and scope is open, else counted. -/
def Node.occur (f : FaultCode) (scope : Nat) (kind : OccKind) (cls : Nat) (raised injected : Bool) (ctx : Word)
    (n : Node) : Node :=
  match n.core.faults.windows.find? fun w => w.code == f && w.scope == scope with
  | none =>
    let w : FaultWindow :=
      { code := f, scope := scope, ends := n.now + 10000000, first := n.stamp, kind := kind, cls := cls, raised := raised
        injected := injected, ctx := ctx }
    let n := n.formFault w 1
    n.modFaults fun x => { x with windows := x.windows ++ [{ w with raised := false, injected := false }] }
  | some w =>
    let w' : FaultWindow :=
      { w with
        count := w.count + 1, first := if w.count = 0 then n.stamp else w.first, kind := kind, cls := cls
        raised := w.raised || raised, injected := w.injected || injected, ctx := ctx }
    n.modFaults fun x => { x with windows := x.windows.map fun v => if v.code == f && v.scope == scope then w' else v }

/-- The end of a window (R516): counted occurrences form one event, which opens the next window. -/
def Node.endWindow (w : FaultWindow) (n : Node) : Node :=
  let rest := n.core.faults.windows.filter fun v => !(v.code == w.code && v.scope == w.scope)
  let n := n.modFaults fun x => { x with windows := rest }
  if w.count = 0 then n else
  let n := n.formFault w w.count
  n.modFaults fun x => { x with windows := x.windows ++ [{ w with ends := n.now + 10000000, count := 0, raised := false, injected := false }] }

/-- Two context words that differ, for the two cases of a fault that its context word tells apart (R150, R181): the spec states
neither (log entry 15). -/
def twoContexts (f : FaultCode) (second : Bool) : Word :=
  let a := Config.faultContext f.code 0 0
  if second then wN (a + 1 + Config.faultContext f.code 1 0 % (2 ^ 40 - 1)) else wN a

/-- A detector's verdict (R502): it waits for the fault manager. A condition already present at this class or a higher
one is not reported again. -/
def Node.trip (f : FaultCode) (cls scope : Nat) (ctx : Word) (injected : Bool) (n : Node) : Node :=
  let ctx := if f.hasContext then ctx else wN (Config.faultContext f.code scope n.now)
  let v : Verdict := { code := f, cls := cls, scope := scope, ctx := ctx, injected := injected, ceased := f.eventLike }
  let known := match n.inst f scope with
    | some i => i.present && decide (cls ≤ i.cls)
    | none => false
  let waiting := n.core.faults.verdicts.any fun x => x.code == f && x.scope == scope && decide (cls ≤ x.cls) && !x.ceased
  if !f.eventLike && (known || waiting) then n
  else n.modFaults fun x => { x with verdicts := x.verdicts ++ [v] }

/-- A condition ceases (R506, R507): a class-1 instance clears by itself, a higher one stays. -/
def Node.cease (f : FaultCode) (scope : Nat) (n : Node) : Node :=
  let n := n.modFaults fun x =>
    { x with verdicts := x.verdicts.map fun v => if v.code == f && v.scope == scope then { v with ceased := true } else v }
  match n.inst f scope with
  | none => n
  | some i =>
    if !i.present then n
    else if i.cls ≤ 1 then
      (n.modFaults fun x => { x with insts := x.insts.filter fun j => !(j.code == f && j.scope == scope) }).occur
        f scope .clear i.cls false false i.ctx
    else
      (n.modFaults fun x => { x with insts := x.insts.map fun j => if j.code == f && j.scope == scope then { j with present := false } else j }).occur
        f scope .cease i.cls false false i.ctx

/-- Several conditions of one scope cease. -/
def Node.ceaseAll (fs : List FaultCode) (scope : Nat) (n : Node) : Node := eachOf fs (fun f m => m.cease f scope) n

/-- Clears an instance (R507, R508). -/
def Node.clearInst (i : FaultInst) (n : Node) : Node :=
  (n.modFaults fun x => { x with insts := x.insts.filter fun j => !(j.code == i.code && j.scope == i.scope) }).occur
    i.code i.scope .clear i.cls false false i.ctx

/-- Updates an instance. -/
def Node.modInst (f : FaultCode) (scope : Nat) (g : FaultInst → FaultInst) (n : Node) : Node :=
  n.modFaults fun x => { x with insts := x.insts.map fun j => if j.code == f && j.scope == scope then g j else j }

/-- The default class of a fault that its chapter leaves to R520. -/
def FaultCode.dfltClass : FaultCode → Nat
  | .inClip => 1
  | .carrierPhase => 1
  | .indexDrift => 1
  | .emuRate => 1
  | .medium => 1
  | .rtdOpen => 1
  | .rtdShort => 1
  | .fanBlocked => 1
  | .tachWire => 1
  | .ductBlocked => 1
  | .lineCrc => 1
  | .watchdog => 3
  | .logWrite => 3
  | _ => 2

/-- The armed point of a code and scope that is due. -/
def Node.point (n : Node) (f : FaultCode) (scope : Nat) : Option PitchPoint :=
  n.core.faults.points.find? fun p => p.code == f && p.scope == scope && kLe p.due n.time.k48

/-- Whether an evaluation of a code and scope is injected (R529, R531). -/
def Node.injecting (n : Node) (f : FaultCode) (scope : Nat) : Bool := (n.point f scope).isSome

/-- A point after one evaluation of a unit that covers `span` evaluations; none when its last unit has been applied (R531). -/
def PitchPoint.use (span : Nat) (p : PitchPoint) : Option PitchPoint :=
  match p.left with
  | none => some p
  | some k =>
    let u := if p.unitLeft = 0 then span else p.unitLeft
    if 1 < u then some { p with unitLeft := u - 1 }
    else if k ≤ 1 then none else some { p with left := some (k - 1), unitLeft := 0 }

/-- Applies one evaluation of an armed point (R531). -/
def Node.useInjection (f : FaultCode) (scope span : Nat) (n : Node) : Node :=
  match n.point f scope with
  | none => n
  | some p =>
    n.modFaults fun x => { x with points := x.points.filterMap fun q => if q.handle = p.handle then q.use span else some q }

/-- Takes what a channel's step asks of the fault manager. -/
def Node.faultEvent (c : Ch) (e : ChanEvent) (n : Node) : Node :=
  match e with
  | .trip f ctx inj => n.trip f f.dfltClass c.val ctx inj
  | .cease f => n.cease f c.val
  | _ => n

end Sys2Proof.Machine
end

