-- ==== Sys2Proof/Machine/Outputs.lean ====
section
/-!
DEFINITION. The registers and pins of the analogue outputs (10_analog_outputs.md R338 to R344, R359 to R365).
-/
namespace Sys2Proof.Machine

/-- DAC.CLRCODE of an output. -/
def Node.clrCode (n : Node) (c : Ch) : BitVec 18 := BitVec.ofNat 18 (n.parN Pid.dacClrcode c.val)

/-- DAC.SRC of an output: 0 LOOP, 1 WAVE, 2 DIRECT. -/
def Node.src (n : Node) (c : Ch) : Nat := n.parN Pid.dacSrc c.val

/-- Whether CASK holds the output at its clear code: from the first P3 after the entry (R40). -/
def Node.caskHolds (n : Node) : Bool := n.core.mode == .cask && !n.core.caskDue

/-- A rank 3 cause of R363 applies to an output. -/
def Node.rank3 (n : Node) (c : Ch) : Bool :=
  let o := n.core.outs.get c
  n.caskHolds || o.parked || o.cleared

/-- What an output's pin shows (R363): high impedance, the clear code, or the output register. -/
def Node.pin (n : Node) (c : Ch) : Option (BitVec 18) :=
  let o := n.core.outs.get c
  if !n.up || o.highZ then none
  else if o.shortOff then none
  else if n.rank3 c then some (n.clrCode c)
  else some o.code

/-- Writes the input register of an output (R339). -/
def writeInput (code : BitVec 18) (o : AOut) : AOut := { o with inreg := code, fresh := true }

/-- The end of a rank 3 cause: the output register takes the clear code, and only a code written from now on is loaded
(R361, R363). -/
def endRank3 (clr : BitVec 18) (o : AOut) : AOut :=
  { o with code := clr, fresh := false, parked := false, cleared := false, atClear := true }

/-- Whether an output is in a strobe group (R342): false A, true B. -/
def Node.inGroup (n : Node) (b : Bool) (c : Ch) : Bool := decide (n.parN Pid.dacGroup c.val = if b then 1 else 0)

/-- Whether a playback's timing is SCHEDULE (R350). -/
def Playback.scheduled (p : Playback) : Bool := match p.timing with
  | .schedule _ => true
  | .tick _ => false

/-- Whether a SCHEDULE run lasts on an output: its group's strobes do not load it (R353). -/
def Node.scheduleRuns (n : Node) (c : Ch) : Bool :=
  n.core.waves.plays.any fun p => p.running && p.scheduled && p.outs.contains c

/-- Whether the output register of an output may take a code now (R338, R359, R363): no clear, park or CASK holds it. -/
def Node.mayLoad (n : Node) (c : Ch) : Bool :=
  !n.rank3 c && !(n.core.mode == .cask) && !(n.core.outs.get c).highZ

/-- The sample that a TICK playback entered on an output has met its strobe (R354); the stamp is the load's, none where a clear kept the
register from it (R358, R361). -/
def waveLoaded (c : Ch) (st : Option Stamp) (p : Playback) : Playback :=
  if p.running && p.unloaded.contains c then
    { p with unloaded := p.unloaded.filter fun d => d != c, lastLoad := st.getD p.lastLoad }
  else p

/-- A strobe on an output (R338, R353, R359, R363): nothing is loaded while a clear or a park holds it, during a SCHEDULE
run, or before a fresh code. A playback advances throughout (R361). -/
def Node.strobeOut (c : Ch) (n : Node) : Node :=
  let loads := (n.core.outs.get c).fresh && n.mayLoad c && !n.scheduleRuns c
  let n := if loads then n.modOut c fun o => { o with code := o.inreg, clearShown := false, atClear := false } else n
  n.modWaves fun w => { w with plays := w.plays.map (waveLoaded c (if loads then some n.stamp else none)) }

/-- A strobe of a group at this instant (R342). -/
def Node.strobeGroup (b : Bool) (n : Node) : Node := eachCh (fun c m => if m.inGroup b c then m.strobeOut c else m) n

/-- The strobe source of a group (R342). -/
def Node.strobeSource (n : Node) (b : Bool) : Nat := n.parN (if b then Pid.dacStbb else Pid.dacStba) 0

/-- The code held by an output: what its pin shows, else the register (R301, R361). -/
def Node.codeHeld (n : Node) (c : Ch) : BitVec 18 := if n.rank3 c then n.clrCode c else (n.core.outs.get c).code

/-- Whether an output is showing its clear code (R362). -/
def Node.showsClear (n : Node) (c : Ch) : Bool :=
  n.rank3 c || (n.core.outs.get c).clearShown || (n.core.outs.get c).atClear

/-- The limit of AVDDH in mV for a range (R331). -/
def rangeAvddh : Nat → Int
  | 2 => 12500
  | 3 => 12500
  | 6 => 15000
  | _ => 12000

/-- The limit of AVSS in mV for a range, where it has one (R331). -/
def rangeAvss : Nat → Option Int
  | 1 => some (-7500)
  | 3 => some (-12500)
  | _ => none

/-- Whether a range drives a current (R331). -/
def rangeCurrent (r : Nat) : Bool := decide (4 ≤ r)

/-- DAC.GAIN of a range (R331, R333). -/
def rangeGain : Nat → Nat
  | 2 => 2
  | 3 => 2
  | 6 => 2
  | _ => 1

/-- The ends X_lo and X_hi of a range (R331), in V of a voltage range and mA of a current range. -/
def rangeEnds : Nat → Int × Int
  | 0 => (0, 5)
  | 1 => (-5, 5)
  | 2 => (0, 10)
  | 3 => (-10, 10)
  | 4 => (0, 20)
  | 5 => (4, 20)
  | _ => (0, 24)

/-- The nominal output X of a code in a range (R331), fx of V or mA, with the selected reference at `refUv` µV: it stands at 2.500 V and
scales in proportion. -/
def rangeOutput (range refUv : Nat) (code : BitVec 18) : Int :=
  let e := rangeEnds range
  (e.1 * 262144 + (e.2 - e.1) * code.toNat) * refUv * fxOne / (262144 * 2500000)

/-- The output at the ball of an output (R331, R363), none at high impedance. -/
def Node.pinOutput (n : Node) (refUv : Nat) (c : Ch) : Option Int :=
  (n.pin c).map (rangeOutput (n.parN Pid.dacRange c.val) refUv)

/-- The largest load of a current range at an AVDDH of `avddh` mV (R331), mΩ: (AVDDH − 2.5 V) / X_hi; beyond it the accuracy is not
guaranteed. -/
def rangeLoad (range : Nat) (avddh : Int) : Int := (avddh - 2500) * 1000 / (rangeEnds range).2

/-- Whether the measured rails suffice for a range (R335): an AVSS above −1.0 V counts as tied to AGND. -/
def railsOk (avddh avss : Int) (r : Nat) : Bool :=
  let vss := if -1000 < avss then 0 else avss
  decide (rangeAvddh r ≤ avddh) && match rangeAvss r with
    | none => true
    | some l => decide (vss ≤ l)

/-- The rails are judged for an output's range (R336): outside its limits the 1 ms of F.SUPPLY runs; inside, its condition
ceases. -/
def Node.judgeRail (c : Ch) (n : Node) : Node :=
  if railsOk n.power.avddh n.power.avss (n.parN Pid.dacRange c.val) then
    (n.modOut c fun o => { o with railAt := none, railShort := false }).cease .supply c.val
  else n.modOut c fun o => { o with railAt := o.railAt.or (some (n.now + 1000000)) }

/-- An output goes high impedance by F.DAC_SHORT (R363 rank 2, R364). -/
def Node.shortOff (c : Ch) (n : Node) : Node :=
  if n.parN Pid.dacShortact c.val = 1 then n.modOut c fun o => { o with shortOff := true } else n

/-- F.DAC_SHORT of an output has cleared (R365): it shows its clear code until its next load. -/
def Node.shortOn (c : Ch) (n : Node) : Node :=
  if (n.core.outs.get c).shortOff then
    n.modOut c fun o => { o with shortOff := false, code := n.clrCode c, fresh := false, atClear := true }
  else n

end Sys2Proof.Machine
end

