-- ==== Sys2Proof/Machine/Emulation.lean ====
section
/-!
DEFINITION. Encoder emulation: the target and output counts, their start, and the levels of ENAn, ENBn and ENZn
(01_node_and_modes.md R21, R29, R40; 07_green_and_kilned.md R237, R244; 08_latch_hop_emulation.md R284 to R288).
-/
namespace Sys2Proof.Machine

/-- `⌈a / b⌉` of a positive divisor. -/
def ceilI (a b : Int) : Int := -((-a) / b)

/-- u and d of R285 for x = num / den. -/
def emuCount (num den : Int) (fwd : Bool) (u : Int) : Int × Bool :=
  let lo := num / den
  let hi := ceilI num den
  if fwd then
    if u < lo then (lo, true) else if num < (u - 1) * den then (hi, false) else (u, true)
  else
    if hi < u then (hi, false) else if (u + 1) * den < num then (lo, true) else (u, false)

/-- The source channel of an emulation (R284). -/
def Node.emuSource (n : Node) (c : Ch) : Ch := Fin.ofNat 4 (n.parN Pid.emuSrc c.val)

/-- x of R284 as numerator and denominator at an elapsed instant. -/
def Node.emuX (n : Node) (c : Ch) (e : Nat) : Int × Int :=
  let s := n.emuSource c
  let pg := frontPg n.core.params s.val (n.core.fronts.get s) e + n.offset s
  (pg * n.par Pid.emuN c.val, max 1 (n.par Pid.emuM c.val))

/-- Brings a running emulation to this instant (R237, R285, R286): the target follows P_g, and the output count moves toward it by
one count in 40 ns. -/
def Node.emuFollow (c : Ch) (n : Node) : Node :=
  let old := (n.core.pos.get c).emu
  if !old.started then n else
  let e := n.now
  let x := n.emuX c e
  let r := emuCount x.1 x.2 old.fwd old.u
  let gap := r.1 + old.k - old.co
  let most : Int := ((e - old.at_ : Nat) : Int) / 40
  let step := clampI (-most) most gap
  let left := (gap - step).natAbs
  let m : Emu := { old with
    u := r.1, fwd := r.2, co := old.co + step, at_ := if left = 0 then e else old.at_ + 40 * step.natAbs
    lagSince := if 64 < left then old.lagSince.or (some e) else none }
  n.modPos c fun p => { p with emu := m }

/-- Encoder emulation takes its shift (R287): the target count equals the present output count, so no edge is emitted. -/
def Node.emuAnchor (c : Ch) (n : Node) : Node :=
  let x := n.emuX c n.now
  n.modPos c fun p =>
    let m := p.emu
    let u := if m.fwd then x.1 / x.2 else ceilI x.1 x.2
    { p with emu := { m with started := true, u := u, k := m.co - u, at_ := n.now, lagSince := none } }

/-- Encoder emulation holds its output count (R21, R287). -/
def Node.emuHold (c : Ch) (n : Node) : Node := n.modPos c fun p => { p with emu := { p.emu with started := false, lagSince := none } }

/-- Emulation at the commit of a write of its items (R287): it starts, takes its shift anew, or ends. -/
def Node.emuWritten (c : Ch) (n : Node) : Node :=
  if n.parN Pid.emuEn c.val = 1 then
    if n.core.mode == .cask && !(n.core.pos.get c).emu.started then n else n.emuAnchor c
  else n.emuHold c

/-- Emulation when the node leaves CASK (R29, R287); the first clean measurement of its source then carries motion that took place in
CASK, for which it emits no edge. -/
def Node.emuLeave (c : Ch) (n : Node) : Node :=
  if n.parN Pid.emuEn c.val = 1 then
    (n.emuAnchor c).modPos c fun p => { p with emu := { p.emu with reseed := true } }
  else n

/-- Every running emulation is brought to this instant. -/
def Node.emuFollowAll (n : Node) : Node := eachCh Node.emuFollow n

/-- The output states of CASK for emulation (R21, R40): it follows its source up to this P3 and then holds. -/
def Node.emuFreeze (n : Node) : Node := eachCh Node.emuHold n.emuFollowAll

/-- The emulations whose source is `c` come to this instant on the basis in force (R237). -/
def Node.emuBasis (c : Ch) (n : Node) : Node :=
  eachCh (fun i m => if m.emuSource i = c then m.emuFollow i else m) n

/-- The running emulations whose source is `c` and that satisfy `f` take their shift anew. -/
def Node.emuReseed (f : Emu → Bool) (c : Ch) (n : Node) : Node :=
  eachCh (fun i m =>
    let e := (m.core.pos.get i).emu
    if m.emuSource i = c && e.started && f e then
      (m.emuAnchor i).modPos i fun p => { p with emu := { p.emu with reseed := false } }
    else m) n

/-- A kilned step of the source ends the wait of R29. -/
def Node.emuSeeded (c : Ch) (n : Node) : Node :=
  eachCh (fun i m =>
    if m.emuSource i = c then m.modPos i fun p => { p with emu := { p.emu with reseed := false } } else m) n

/-- |c_t − c_o| of the emulation that follows a channel, the largest (R244 word 5). -/
def Node.emuCatchUp (n : Node) (c : Ch) : Int :=
  ([0, 1, 2, 3] : List Ch).foldl (fun a i =>
    let m := (n.core.pos.get i).emu
    if m.started && decide (n.emuSource i = c) then
      let x := n.emuX i n.now
      max a ((emuCount x.1 x.2 m.fwd m.u).1 + m.k - m.co).natAbs
    else a) 0

/-- The levels (A, B) of an output count (R285). -/
def emuAB (co : Int) : Bool × Bool :=
  match (co % 4).toNat with
  | 0 => (false, false)
  | 1 => (true, false)
  | 2 => (true, true)
  | _ => (false, true)

/-- The level of ENZn (R288). -/
def Node.emuZ (n : Node) (c : Ch) : Bool :=
  let m := (n.core.pos.get c).emu
  match n.parN Pid.emuZmode c.val with
  | 1 => (m.co - m.k - n.par Pid.emuZphase c.val) % max 1 (n.par Pid.emuZperiod c.val) == 0
  | 2 => (m.co - m.k) % max 1 (16777216 * n.par Pid.emuN c.val / max 1 (n.par Pid.emuM c.val)) == 0
  | _ => false

/-- The levels of ENAn, ENBn and ENZn (R21, R113, R284, R285, R287, R288); none is high impedance: while the core is down, until the
first P3 after Steep, and in CASK with EMU.CASKZ = 1. -/
def Node.emuPins (n : Node) (c : Ch) : Option (Bool × Bool × Bool) :=
  if !n.up || (n.core.outs.get c).highZ || (n.caskHolds && n.parN Pid.emuCaskz c.val == 1) then none
  else
    let ab := emuAB (n.core.pos.get c).emu.co
    let ab := if n.parN Pid.emuSwap c.val = 1 then (ab.2, ab.1) else ab
    some (ab.1, ab.2, n.emuZ c)

end Sys2Proof.Machine
end

