-- ==== Sys2Proof/Machine/Profile.lean ====
section
/-!
DEFINITION. The profile generator: stopping distance, plans of constant-jerk (SCURVE) or constant-acceleration (RAMP)
segments, and their advance (09_control_engine.md R305 to R308, R316 to R320). All values are in fx (2^-64).
A reversal carries deceleration straight on into acceleration in the new direction (R305, R307; log entry 30).
-/
namespace Sys2Proof.Machine

/-- The limits of a slot: SCURVE when `scurve`, and PRF.VMAX, PRF.AMAX, PRF.DMAX, PRF.JMAX in fx. -/
structure Limits where
  scurve : Bool
  vmax : Int
  amax : Int
  dmax : Int
  jmax : Int
  deriving DecidableEq, Repr

/-- The sign of a number. -/
def sgn (x : Int) : Int := if x < 0 then -1 else if x = 0 then 0 else 1

/-- `s0(v)` of R306. -/
def stopFromCruise (l : Limits) (v : Int) : Int :=
  if fxMul v l.jmax < fxMul l.dmax l.dmax then fxMul v (fxSqrt (fxDiv v l.jmax))
  else fxDiv (fxMul v v) (2 * l.dmax) + fxDiv (fxMul v l.dmax) (2 * l.jmax)

/-- The stopping distance of R306, for `v0 ≥ 0` and the acceleration signed along the direction of travel. -/
def stopDistance (l : Limits) (v0 a0 : Int) : Int :=
  if l.scurve then
    let ve := v0 + fxDiv (fxMul a0 a0) (2 * l.jmax)
    stopFromCruise l ve + fxDiv (fxMul v0 a0) l.jmax + fxDiv (fxMul a0 (fxMul a0 a0)) (3 * fxMul l.jmax l.jmax)
  else fxDiv (fxMul v0 v0) (2 * l.dmax)

/-- The setpoint after `t` of a segment. -/
def segAdvance (j t : Int) (s : Setpoint) : Setpoint :=
  let t2 := fxMul t t
  { p := s.p + fxMul s.v t + fxMul s.a t2 / 2 + fxMul j (fxMul t2 t) / 6
    v := s.v + fxMul s.a t + fxMul j t2 / 2
    a := s.a + fxMul j t }

/-- The setpoint with the acceleration a segment takes at its start. -/
def segStart (g : Seg) (s : Setpoint) : Setpoint :=
  match g.acc with
  | some a => { s with a := a }
  | none => s

/-- The setpoint at the end of a list of segments. -/
def segsEnd : List Seg → Setpoint → Setpoint
  | [], s => s
  | g :: gs, s => segsEnd gs (segAdvance g.jerk g.dur (segStart g s))

/-- Segments of a jerk-limited rise of the velocity by `dv`, from acceleration `a` to `b` ≥ 0, under the bound on the acceleration. -/
def riseSegs (j bound a b dv : Int) : List Seg :=
  if bound < a then
    -- the acceleration is beyond the bound: it falls to the bound, then the change goes on
    let t0 := fxDiv (a - bound) j
    let left := dv - fxMul (a + bound) t0 / 2
    let hold := fxDiv (left - fxDiv (fxMul bound bound - fxMul b b) (2 * j)) bound
    [⟨t0, -j, none⟩, ⟨max hold 0, 0, none⟩, ⟨fxDiv (bound - b) j, -j, none⟩]
  else
    let pk2 := fxMul j dv + (fxMul a a + fxMul b b) / 2
    if pk2 ≤ fxMul bound bound then
      let pk := max (fxSqrt pk2) (max a b)
      [⟨fxDiv (pk - a) j, j, none⟩, ⟨fxDiv (pk - b) j, -j, none⟩]
    else
      let hold := fxDiv (dv - fxDiv (2 * fxMul bound bound - fxMul a a - fxMul b b) (2 * j)) bound
      [⟨fxDiv (bound - a) j, j, none⟩, ⟨max hold 0, 0, none⟩, ⟨fxDiv (bound - b) j, -j, none⟩]

/-- Mirrors segments for reverse travel. -/
def mirror (gs : List Seg) : List Seg :=
  gs.map fun g => { g with jerk := -g.jerk, acc := g.acc.map fun a => -a }

/-- Segments in direction `s`. -/
def toward (s : Int) (gs : List Seg) : List Seg := if s < 0 then mirror gs else gs

/-- The velocity reached when the acceleration is brought to zero at PRF.JMAX (R318). -/
def easedVelocity (l : Limits) (v a : Int) : Int := if l.scurve then v + fxDiv (a * a.natAbs / fxOne) (2 * l.jmax) else v

/-- Segments that bring the acceleration to zero (R318). -/
def easeSegs (l : Limits) (a : Int) : List Seg :=
  if l.scurve then [⟨fxDiv a.natAbs l.jmax, -(sgn a) * l.jmax, none⟩] else [⟨0, 0, some 0⟩]

/-- The acceleration that a SCURVE velocity change carries through v_s = 0 (R305): within PRF.DMAX before that instant and PRF.AMAX
after it, reached from velocity `x` at acceleration `a`, and brought back to zero by velocity `y` in the new direction. -/
def crossAccel (l : Limits) (x a y : Int) : Int :=
  let most := min (min l.amax l.dmax) (min (fxSqrt (2 * fxMul l.jmax y)) (fxSqrt (2 * fxMul l.jmax x + fxMul a a)))
  max most (fxSqrt (fxMul a a - 2 * fxMul l.jmax x))

/-- Segments of a velocity change from (v0, a0) to (v1, 0) (R305): PRF.AMAX while |v| grows, PRF.DMAX while it falls. Where the
acceleration points away from the change, it is brought to zero first. -/
def velSegs (l : Limits) (v0 a0 v1 : Int) : List Seg :=
  let vz := easedVelocity l v0 a0
  let s : Int := if v1 < vz then -1 else 1
  let away := l.scurve && decide (s * a0 < 0)
  let x := if away then vz else v0
  if sgn x * sgn v1 < 0 then
    if l.scurve then
      let a := if away then 0 else s * a0
      let b := crossAccel l x.natAbs a v1.natAbs
      (if away then easeSegs l a0 else []) ++
        toward s (riseSegs l.jmax l.dmax a b x.natAbs ++ riseSegs l.jmax l.amax b 0 v1.natAbs)
    else toward s [⟨fxDiv x.natAbs l.dmax, 0, some l.dmax⟩, ⟨fxDiv v1.natAbs l.amax, 0, some l.amax⟩]
  else
    let bound := if x.natAbs < v1.natAbs then l.amax else l.dmax
    if l.scurve then toward s (riseSegs l.jmax bound (s * a0) 0 (s * (v1 - v0)))
    else toward s [⟨fxDiv (v1 - v0).natAbs bound, 0, some bound⟩]

/-- Segments of a braking to rest (R322). -/
def stopSegs (l : Limits) (s : Setpoint) : List Seg := velSegs l s.v s.a 0

/-- The segments of a path that changes to velocity `vp` and then stops. -/
def peakSegs (l : Limits) (v0 a0 vp : Int) : List Seg := velSegs l v0 a0 vp ++ velSegs l vp 0 0

/-- The distance that segments cover from (v0, a0). -/
def segsDistance (v0 a0 : Int) (gs : List Seg) : Int := (segsEnd gs { p := 0, v := v0, a := a0 }).p

/-- Bisection for the largest parameter in [lo, hi] whose path, which grows with it, covers at most `d`. -/
def bisect (dist : Int → Int) (d : Int) : Nat → Int → Int → Int
  | 0, lo, _ => lo
  | n + 1, lo, hi =>
    let m := (lo + hi) / 2
    if dist m ≤ d then bisect dist d n m hi else bisect dist d n lo m

/-- The path over a distance `d` whose peak velocity lies between `lo` and `hi`; at `hi` it cruises over what is left. -/
def peakPath (l : Limits) (v0 a0 d lo hi : Int) : List Seg :=
  let dist := fun (vp : Int) => segsDistance v0 a0 (peakSegs l v0 a0 vp)
  let rest := d - dist hi
  if 0 ≤ rest ∧ hi ≠ 0 then
    velSegs l v0 a0 hi ++ [⟨fxDiv rest hi.natAbs, 0, if l.scurve then none else some 0⟩] ++ velSegs l hi 0 0
  else peakSegs l v0 a0 (bisect dist d 80 lo hi)

/-- The path over a distance `d` that turns back from a velocity of at most `hi` (R317): at −PRF.VMAX it cruises. -/
def turnPath (l : Limits) (v0 a0 d hi : Int) : List Seg :=
  let dist := fun (vp : Int) => segsDistance v0 a0 (peakSegs l v0 a0 vp)
  let rest := dist (-l.vmax) - d
  if 0 ≤ rest then
    velSegs l v0 a0 (-l.vmax) ++ [⟨fxDiv rest l.vmax, 0, if l.scurve then none else some 0⟩] ++ velSegs l (-l.vmax) 0 0
  else peakSegs l v0 a0 (bisect dist d 80 (-l.vmax) hi)

/-- Segments that ease a braking for `t` and then brake to rest. -/
def easedStop (l : Limits) (v0 a0 t : Int) : List Seg :=
  let g : Seg := ⟨t, l.jmax, none⟩
  let s := segAdvance l.jmax t { p := 0, v := v0, a := a0 }
  g :: stopSegs l s

/-- The time-optimal path from (v0, a0) to rest over the signed distance `d` (R307), where the velocity reached with the acceleration at
zero is not against the direction of travel: ahead beyond the stopping distance by a peak velocity; between the
distance of braking at once and that of easing first by easing the braking; short of it by turning back. -/
def forwardPath (l : Limits) (v0 a0 d : Int) : List Seg :=
  let vz := easedVelocity l v0 a0
  if l.vmax < vz then
    if segsDistance v0 a0 (stopSegs l { p := 0, v := v0, a := a0 }) ≤ d then peakPath l v0 a0 d 0 l.vmax else turnPath l v0 a0 d 0
  else if segsDistance v0 a0 (peakSegs l v0 a0 vz) ≤ d then peakPath l v0 a0 d vz l.vmax
  else if l.scurve && decide (a0 < 0) && decide (segsDistance v0 a0 (stopSegs l { p := 0, v := v0, a := a0 }) ≤ d) then
    easedStop l v0 a0 (bisect (fun t => segsDistance v0 a0 (easedStop l v0 a0 t)) d 80 0 (fxDiv (-a0) l.jmax))
  else turnPath l v0 a0 d 0

/-- The time-optimal path from (v0, a0), v0 ≥ 0, to rest over the signed distance `d` (R307). -/
def pathSegs (l : Limits) (v0 a0 d : Int) : List Seg :=
  let vz := easedVelocity l v0 a0
  if 0 ≤ vz then forwardPath l v0 a0 d
  else if d ≤ segsDistance v0 a0 (peakSegs l v0 a0 vz) then turnPath l v0 a0 d vz
  else
    let gs := easeSegs l a0
    gs ++ mirror (forwardPath l (-vz) 0 (segsDistance v0 a0 gs - d))

/-- The direction of travel: the sign of v_s, else of a_s, else none (R316). -/
def travelDir (s : Setpoint) : Int := if s.v ≠ 0 then sgn s.v else sgn s.a

/-- The segments of the time-optimal path to rest over the signed distance `delta` (R307). -/
def planTo (l : Limits) (s : Setpoint) (delta : Int) : List Seg :=
  if s.v = 0 ∧ s.a = 0 ∧ delta = 0 then [] else
  if travelDir s < 0 then mirror (pathSegs l (-s.v) (-s.a) (-delta)) else pathSegs l s.v s.a delta

/-- As `planTo`, to a target ahead that the path reaches without turning back (R319): no nearer than braking at once comes to rest. -/
def planAhead (l : Limits) (s : Setpoint) (delta : Int) : List Seg :=
  let rest := (segsEnd (stopSegs l s) { s with p := 0 }).p
  planTo l s (if travelDir s < 0 then min delta rest else max delta rest)

/-- Consumes `t` of the planned segments; the second result is true when the plan has ended. -/
def planAdvance : List Seg → Int → Setpoint → List Seg × Setpoint × Bool
  | [], _, s => ([], s, true)
  | g :: gs, t, s =>
    let s := segStart g s
    if t < g.dur then
      (⟨g.dur - t, g.jerk, g.acc⟩ :: gs, segAdvance g.jerk t s, false)
    else planAdvance gs (t - g.dur) (segAdvance g.jerk g.dur s)

/-- The advance of a setpoint by `t`: segments, then the end of the plan (R305, R307). -/
def profileAdvance (t : Int) (segs : List Seg) (pe : PlanEnd) (s : Setpoint) : List Seg × Setpoint × Bool :=
  let (gs, s', ended) := planAdvance segs t s
  if !ended then (gs, s', false) else
  match pe with
  | .target p => ([], { p := p, v := 0, a := 0 }, true)
  | .rest => ([], { s' with v := 0, a := 0 }, true)
  | .velocity v =>
    -- what is left of the tick after the plan runs at the held velocity
    let used := segs.foldl (fun x g => x + g.dur) 0
    let e := segsEnd segs s
    ([], { p := e.p + fxMul v (t - used), v := v, a := 0 }, true)

end Sys2Proof.Machine
end

