-- ==== Sys2Proof/Machine/Motion.lean ====
section
/-!
DEFINITION. Loop slots: kinds and groups, start, STOP, PARK, waits for rest, moves and their judgement, and the cycle
budget (09_control_engine.md R291 to R327).
-/
namespace Sys2Proof.Machine

/-- The limits of a slot in force (R305). -/
def Node.limits (n : Node) (c : Ch) : Limits :=
  { scurve := n.parN Pid.prfShape c.val == 0, vmax := auToFx (n.par Pid.prfVmax c.val)
    amax := a40ToFx (wI (n.par Pid.prfAmax c.val)), dmax := a40ToFx (wI (n.par Pid.prfDmax c.val))
    jmax := m40ToFx (wI (n.par Pid.prfJmax c.val)) }

/-- The pair's number of this node's channel (R477): the upper member's channels are 4 to 7. -/
def Node.pairCh (n : Node) (c : Ch) : Nat := if n.isUpper then c.val + 4 else c.val

/-- This node's channel of a pair's number, where it is this node's. -/
def Node.ownCh (n : Node) (i : Nat) : Option Ch :=
  if n.isUpper then (if 4 ≤ i ∧ i < 8 then some (Fin.ofNat 4 (i - 4)) else none)
  else if i < 4 then some (Fin.ofNat 4 i) else none

/-- The kinds a slot runs (R292). -/
inductive LoopKind where
  | velocity
  | position
  | leader
  | follower
  deriving DecidableEq, Repr

/-- The kind of a slot (R292). -/
def Node.kind (n : Node) (c : Ch) : LoopKind :=
  match (n.core.slots.get c).leader with
  | some l => if l = n.pairCh c then .leader else .follower
  | none => if n.parN Pid.ctlKind c.val = 1 then .position else .velocity

/-- CTL.KIND as it reads (R292). -/
def Node.kindCode (n : Node) (c : Ch) : Nat :=
  match n.kind c with
  | .velocity => 0
  | .position => 1
  | _ => 2

/-- Whether a kind has a position loop. -/
def LoopKind.outer : LoopKind → Bool
  | .position => true
  | .leader => true
  | _ => false

/-- Whether a kind has a profile. -/
def LoopKind.profile : LoopKind → Bool
  | .follower => false
  | _ => true

/-- The latest kilned value of a channel at or before P0 of the tick in progress (R15, R182), zero where there is none. -/
def Node.lastKil (n : Node) (c : Ch) : Kil := (n.core.fronts.get c).trk.kilTick.getD { u := 0, v := 0, cnt := 0, st := {} }

/-- Whether a slot's own profile is at rest (R323, R472): it is not running, has no profile (R292), or its setpoint has come to
rest. -/
def Node.ownRest (n : Node) (c : Ch) : Bool :=
  let s := (n.core.slots.get c).sp
  !n.slotRunning c || !(n.kind c).profile || (decide (s.v = 0) && decide (s.a = 0))

/-- Whether a slot is at rest wherever a rule waits for it (R323): a follower rests with its leader, a leader on the
partner as the partner's packets show it. -/
def Node.atRest (n : Node) (c : Ch) : Bool :=
  n.ownRest c && (!n.slotRunning c || match n.kind c with
    | .follower => match (n.core.slots.get c).leader.bind n.ownCh with
      | some l => n.ownRest l
      | none => n.lane.pkt.atRest
    | _ => true)

/-- Plans the braking of a slot (R322). -/
def Slot.planStop (l : Limits) (s : Slot) : Slot :=
  if s.sp.v = 0 ∧ s.sp.a = 0 then { s with segs := [], planEnd := .rest, target := none, braking := false, reached := false }
  else { s with segs := stopSegs l s.sp, planEnd := .rest, target := none, braking := true, reached := false }

/-- Starts a slot (R301) from the code its output holds. -/
def Node.startSlot (c : Ch) (n : Node) : Node :=
  let held := n.codeHeld c
  let n := if n.rank3 c && !n.caskHolds then n.modOut c (endRank3 (n.clrCode c)) else n
  let k := n.lastKil c
  let i := clampI (g40ToFx (wI (n.par Pid.ctlYmin c.val))) (g40ToFx (wI (n.par Pid.ctlYmax c.val)))
    (fxRat ((held.toNat : Int) - n.par Pid.ctlOutzero c.val) (n.par Pid.ctlOutspan c.val))
  let vc := auToFx (n.par Pid.ctlVclamp c.val)
  let j := clampI (-vc) vc (auToFx k.v)
  let kd := n.kind c
  let lim := n.limits c
  n.modSlot c fun s =>
    let s := { s with
      parked := false, i := i, j := j, vc := j, sp := { p := auToFx k.u, v := auToFx k.v, a := 0 }
      ferr := 0, inpos := 0, missRun := 0, reached := false, arrived := false, active := none, restartDue := false
      clrHold := false, target := none }
    match kd with
    | .velocity => { s with segs := [], planEnd := .velocity (auToFx k.v), braking := false }
    | .follower => { s with segs := [], planEnd := .rest, braking := false }
    | _ => s.planStop lim

/-- Ends the unfinished motion command of a slot (R315): a STOP of several slots ends as a whole. -/
def Node.endMotion (c : Ch) (st : Status) (n : Node) : Node :=
  match (n.core.slots.get c).active with
  | none => n
  | some (o, _) =>
    let n := n.modCore fun k =>
      { k with
        slots := k.slots.map fun s => if s.active.any (fun a => a.1 == o) then { s with active := none } else s
        rests := k.rests.filter fun r => !(r.op == some o && r.kind == .stop) }
    n.endOrder o st []

/-- The channel whose profile a STOP of a slot brakes (R324): the leader's; none where the leader is the partner's. -/
def Node.stopTarget (n : Node) (c : Ch) : Option Ch :=
  match n.kind c with
  | .follower => (n.core.slots.get c).leader.bind n.ownCh
  | _ => some c

/-- Runs a STOP on one slot's profile (R322), or asks the partner for it (R489). -/
def Node.stopSlot (c : Ch) (n : Node) : Node :=
  match n.stopTarget c with
  | some l => if n.slotRunning l then n.modSlot l fun s => s.planStop (n.limits l) else n
  | none =>
    match (n.core.slots.get c).leader with
    | some l => n.modLane fun x => { x with stopReq := x.stopReq ||| 2 ^ (l % 4) }
    | none => n

/-- The detectors of a slot stop evaluating (R506). -/
def Node.slotOff (c : Ch) (n : Node) : Node := n.cease .ferr c.val

/-- Parks one slot (R323). -/
def Node.parkOne (c : Ch) (n : Node) : Node :=
  let k := n.lastKil c
  let n := n.modSlot c fun s =>
    { s with
      parked := true, i := 0, j := 0, sp := { p := auToFx k.u, v := 0, a := 0 }, segs := [], planEnd := .rest
      target := none, braking := false, reached := false, arrived := false, held := false, ferr := 0, code := none }
  (n.modOut c fun o => { o with parked := true }).slotOff c

/-- Leaves a cascade group and dissolves it where the leader leaves (R302, R313). -/
def Node.leaveGroup (c : Ch) (n : Node) : Node :=
  let me := n.pairCh c
  match n.kind c with
  | .leader => n.modCore fun k => { k with slots := k.slots.map fun s => if s.leader == some me then { s with leader := none, remote := 0, ratio := 4294967296 } else s }
  | .follower => n.modSlot c fun s => { s with leader := none, ratio := 4294967296 }
  | _ => n

/-- Ends the loop of a channel (R69, R302). -/
def Node.disable (c : Ch) (n : Node) : Node :=
  let n := n.leaveGroup c
  (n.modSlot c fun s => { s with enabled := false, owner := none, segs := [], planEnd := .rest, target := none, braking := false, reached := false, arrived := false }).slotOff c

/-- Loops stop with the mode: every running slot's detector stops evaluating, outputs hold their last codes (R25, R506). -/
def Node.loopsOff (n : Node) : Node :=
  eachCh (fun c m =>
    (m.modSlot c fun s => { s with segs := [], target := none, braking := false, held := false, reached := false, arrived := false, code := none }).slotOff c) n

/-- Completes a wait for rest (R39, R302, R322, R492). -/
def Node.restDone (w : RestWait) (n : Node) : Node :=
  match w.kind with
  | .stop =>
    let n := n.modCore fun k => { k with slots := k.slots.map fun s => if s.active.any (fun a => some a.1 == w.op) then { s with active := none } else s }
    n.endOpt w.op .done []
  | .disable => n.endOpt w.op .done []
  | .toTrack => (n.loopsOff.modCore fun k => { k with mode := .track }).endOpt w.op .done []
  | .survivor => n.loopsOff.modCore fun k => { k with mode := .track }

/-- Judges the waits for rest: channels that have come to rest leave them, a disable ends their loop, and a wait with no
channel left completes (R322, R323). -/
def Node.settleRests (n : Node) : Node :=
  let step := fun (w : RestWait) (m : Node) =>
    let rested := w.chs.filter m.atRest
    let left := w.chs.filter fun c => !m.atRest c
    let m := if w.kind = .disable then eachOf rested Node.disable m else m
    if left.isEmpty then m.restDone w
    else m.modCore fun k => { k with rests := k.rests ++ [{ w with chs := left }] }
  eachOf n.core.rests step (n.modCore fun k => { k with rests := [] })

/-- STOP of a slot by a fault, a session or a mode change (R322): the motion command it ends is ABORTED. -/
def Node.stopBy (c : Ch) (n : Node) : Node :=
  let n := match n.stopTarget c with
    | some l => n.endMotion l .aborted
    | none => n
  n.stopSlot c

/-- PARK of a slot (R323, R324): its unfinished motion command ends, a group's leader runs a STOP. -/
def Node.parkSlot (c : Ch) (n : Node) : Node :=
  let n := n.endMotion c .aborted
  let n := if n.kind c = .follower then n.stopBy c else n
  (n.parkOne c).settleRests

/-! ### Moves -/

/-- 2^40 au as a fixed-point number: the period of P40 (R7). -/
def fxWrap : Int := 1208925819614629174706176

/-- A difference of positions under R8, fx. -/
def wrapDiff (x : Int) : Int := (x + fxWrap / 2) % fxWrap - fxWrap / 2

/-- What the judgement of a target gives (R316 to R320): a plan to an absolute target, with the predicted overshoot of a
reversing one, or TARGET_PASSED. -/
inductive MoveJudge where
  | go (segs : List Seg) (target : Int) (beyond : Option Int)
  | passed
  deriving DecidableEq, Repr

/-- The judgement of an absolute target on a LINEAR axis (R316 to R318), its distance taken under R8. -/
def judgeLinear (l : Limits) (oneway : Bool) (s : Setpoint) (target : Int) : MoveJudge :=
  let delta := wrapDiff (target - s.p)
  let dir := travelDir s
  if dir = 0 then
    if oneway ∧ delta < 0 then .passed else .go (planTo l s delta) (s.p + delta) none
  else
    let d := dir * delta
    let stop := stopDistance l (dir * s.v) (dir * s.a)
    if d < stop then
      if oneway then .passed else .go (planTo l s delta) (s.p + delta) (some (stop - d))
    else .go (planAhead l s delta) (s.p + delta) none

/-- The smallest distance Δ + jM that is no shorter than the stopping distance (R319). -/
def nextLap (m stop d : Int) : Int := if d < stop then d + ((stop - d + m - 1) / m) * m else d

/-- The judgement of a lap position on a MODULO axis (R319, R320): `q` is the lap position of p_s. At rest the shorter way back is a
reversing path too, with its overshoot event (DEDUCED, log entry 100). -/
def judgeLap (l : Limits) (shortest : Bool) (m q lap : Int) (s : Setpoint) : MoveJudge :=
  let dir := travelDir s
  let stop := if dir = 0 then 0 else stopDistance l (dir * s.v) (dir * s.a)
  let d0 := if dir < 0 then (q - lap) % m else (lap - q) % m
  let d := if dir = 0 then d0 else nextLap m stop d0
  let fwd := if dir < 0 then -1 else 1
  let b := if dir < 0 then (lap - (q - stop)) % m else (q + stop - lap) % m
  if shortest ∧ stop + b < d then
    let delta := fwd * (stop - b)
    .go (planTo l s delta) (s.p + delta) (some b)
  else .go (planAhead l s (fwd * d)) (s.p + fwd * d) none

/-- The lap position of the setpoint, fx (R309, R319). -/
def Node.lapOf (n : Node) (c : Ch) : Int :=
  let s := n.core.slots.get c
  let m := auToFx (n.par Pid.prfModulus c.val)
  (auToFx (s.lap.getD 0) + (s.sp.p - auToFx (n.lastKil c).u)) % m

/-- PRF.MODULUS of a slot, au. -/
def Node.modulus (n : Node) (c : Ch) : Int := max 1 (n.par Pid.prfModulus c.val)

/-- The lap position takes a raw position anew: q := P40 mod M, P40 read as signed (R309). -/
def Node.lapSet (c : Ch) (u : Int) (n : Node) : Node :=
  if n.parN Pid.prfAxis c.val = 1 then n.modSlot c fun s => { s with lap := some ((n.p40 c u).toInt % n.modulus c) } else n

/-- A kilned step advances the lap position by the difference of successive positions, modulo M (R309). -/
def Node.lapStep (c : Ch) (n : Node) : Node :=
  let t := (n.core.fronts.get c).trk
  match t.kil, t.kilBefore, (n.core.slots.get c).lap with
  | some k, some a, some q =>
    if n.parN Pid.prfAxis c.val = 1 then n.modSlot c fun s => { s with lap := some ((q + diffAu k.u a.u) % n.modulus c) } else n
  | some k, _, _ => n.lapSet c k.u
  | _, _, _ => n

/-- The judgement of a `MOVE_TO` word (R316 to R320). -/
def Node.judgeMoveTo (n : Node) (c : Ch) (w : Word) : MoveJudge :=
  let s := (n.core.slots.get c).sp
  let l := n.limits c
  if n.parN Pid.prfAxis c.val = 1 then
    judgeLap l (n.parN Pid.prfShortest c.val == 1 && n.parN Pid.prfOneway c.val == 0) (auToFx (n.par Pid.prfModulus c.val))
      (n.lapOf c) (p40ToFx w) s
  else
    judgeLinear l (n.parN Pid.prfOneway c.val == 1) s (p40ToFx w - auToFx (n.offset c))

/-- The absolute target of a `MOVE_BY` (R314). -/
def Node.moveByTarget (n : Node) (c : Ch) (w : Word) : Int :=
  let s := n.core.slots.get c
  (match s.target with
    | some t => if s.active.any (fun a => a.2 == .move) then t else s.sp.p
    | none => s.sp.p) + p40ToFx w

/-- The judgement of a `MOVE_BY` word (R314, R316 to R318). -/
def Node.judgeMoveBy (n : Node) (c : Ch) (w : Word) : MoveJudge :=
  judgeLinear (n.limits c) (n.parN Pid.prfOneway c.val == 1) (n.core.slots.get c).sp (n.moveByTarget c w)

/-- PRF.PASSACT after TARGET_PASSED (R318): STOP, or KEEP. -/
def Node.passAct (c : Ch) (n : Node) : Node :=
  let l := n.limits c
  if n.parN Pid.prfPassact c.val = 0 then n.modSlot c (Slot.planStop l)
  else
    n.modSlot c fun s =>
      let ve := easedVelocity l s.sp.v s.sp.a
      let v := clampI (-l.vmax) l.vmax ve
      let segs := if v = ve then easeSegs l s.sp.a else velSegs l s.sp.v s.sp.a v
      { s with segs := segs, planEnd := .velocity v, target := none, braking := false, reached := false }

/-- Raises EV.OVERSHOOT (R317, R320, R321). -/
def Node.overshoot (c : Ch) (tag : BitVec 12) (client : BitVec 8) (o : Int) (n : Node) : Node :=
  n.event .overshoot c.val n.p0Stamp [satI (fxToAu o), wN (tag.toNat + client.toNat * 4096)]

/-- Installs a plan (R307). -/
def installMove (op : Nat) (segs : List Seg) (target : Int) (s : Slot) : Slot :=
  { s with
    segs := segs, planEnd := .target target, target := some target, active := some (op, .move), braking := false
    reached := false, inpos := 0, arrived := false, inPosition := false }

/-- The judgement of an active move as if it had just been committed (R308): a `MOVE_TO` on a MODULO axis takes the next occurrence
of its lap position anew. -/
def Node.judgeAgain (n : Node) (c : Ch) (op : Option PoolOp) (t : Int) : MoveJudge :=
  let s := (n.core.slots.get c).sp
  let l := n.limits c
  let oneway := n.parN Pid.prfOneway c.val == 1
  if n.parN Pid.prfAxis c.val = 1 && op.any (fun o => o.packet.opcode == 0x40) then
    let m := auToFx (n.par Pid.prfModulus c.val)
    let q := n.lapOf c
    judgeLap l (n.parN Pid.prfShortest c.val == 1 && !oneway) m q ((q + (t - s.p)) % m) s
  else judgeLinear l oneway s t

/-- Judges an active move again after a change of the limits (R308), and plans a jog, a held velocity or a STOP again. -/
def Node.rejudge (c : Ch) (n : Node) : Node :=
  let s := n.core.slots.get c
  let l := n.limits c
  if !n.slotRunning c then n else
  match s.active, s.target with
  | some (o, .move), some t =>
    match n.judgeAgain c (n.opOf o) t with
    | .go segs t' beyond =>
      let n := n.modSlot c (installMove o segs t')
      match beyond, n.opOf o with
      | some x, some op => n.overshoot c op.packet.tag op.packet.client x
      | _, _ => n
    | .passed => (n.endMotion c .targetPassed).passAct c
  | _, _ =>
    match s.planEnd with
    | .velocity v =>
      let v := clampI (-l.vmax) l.vmax v
      n.modSlot c fun s => { s with segs := velSegs l s.sp.v s.sp.a v, planEnd := .velocity v }
    | _ => if s.braking then n.modSlot c fun s => { s with segs := stopSegs l s.sp, planEnd := .rest } else n

/-! ### The cycle budget -/

/-- What admission reads of a slot (R325): whether it is enabled, its kind, CTL.OUTDIV, CTL.OUTPHASE, PRF.SHAPE. -/
structure SlotCost where
  enabled : Bool
  kind : LoopKind
  div : Nat
  phase : Nat
  ramp : Bool
  deriving DecidableEq, Repr

/-- Phase A cycles of enabled slots (R325). -/
def costA (xs : List SlotCost) : Nat :=
  xs.foldl (fun a x => a + (if x.enabled && x.kind.profile then (if x.ramp then 400 else 1000) else 0)) 0

/-- Whether two outer loops fall on one tick of the pattern. -/
def sameTick (x y : SlotCost) : Bool := x.phase % Nat.gcd x.div y.div == y.phase % Nat.gcd x.div y.div

/-- The largest number of outer loops that fall on one tick: subsets that agree pairwise (R327). -/
def worstOuter : List SlotCost → List SlotCost → Nat
  | [], on => on.length
  | x :: xs, on =>
    let without := worstOuter xs on
    if on.all (sameTick x) then max (worstOuter xs (x :: on)) without else without

/-- The worst phase B cycles of enabled slots with `terms` cross-node terms (R325, R327, R488). -/
def costB (xs : List SlotCost) (terms : Nat) : Nat :=
  let e := xs.filter SlotCost.enabled
  850 * e.length + 800 * worstOuter (e.filter fun x => x.kind.outer) [] + 250 * terms

/-- U of a rate (R326). -/
def budgetU : TickRate → Nat
  | .k8 => 21600
  | .k16 => 10800
  | .k32 => 5400

/-- H of a rate (R326). -/
def budgetH : TickRate → Nat
  | .k8 => 3400
  | .k16 => 1700
  | .k32 => 850

/-- L of a rate and an output instant (R326). -/
def budgetL (r : TickRate) (outat : Nat) : Int := (((outat : Int) - 8000) / 5) - budgetH r

/-- What admission reads of the slots now. -/
def Node.slotCosts (n : Node) : List SlotCost :=
  [0, 1, 2, 3].map fun (c : Ch) =>
    { enabled := (n.core.slots.get c).enabled, kind := n.kind c, div := n.parN Pid.ctlOutdiv c.val
      phase := n.parN Pid.ctlOutphase c.val, ramp := n.parN Pid.prfShape c.val == 1 }

/-- Cross-node terms of this member (R488): a leader with followers on the partner, and a follower of the partner's leader. -/
def Node.crossTerms (n : Node) : Nat :=
  (if n.core.slots.toList.any fun s => s.enabled && decide (0 < s.remote) then 1 else 0) +
  (if [0, 1, 2, 3].any (fun (c : Ch) => match (n.core.slots.get c).leader with
      | some l => (n.core.slots.get c).enabled && (n.ownCh l).isNone
      | none => false) then 1 else 0)

/-- Admission of a configuration (R327): none when admitted, else the two budget words. -/
def admission (xs : List SlotCost) (terms : Nat) (r : TickRate) (outat : Nat) : Option (List Word) :=
  let a := costA xs
  let b := costB xs terms
  if a + b ≤ budgetU r ∧ (b : Int) ≤ budgetL r outat then none
  else some [wN (min (a + b) 65535 + budgetU r * 65536), wN (min b 65535 + (budgetL r outat).toNat * 65536)]

/-- CTL.WORST (R330): the worst A + B and the worst B of the slots as they stand. -/
def Node.worstWord (n : Node) : Word :=
  let b := costB n.slotCosts n.crossTerms
  wN (min (costA n.slotCosts + b) 65535 + min b 65535 * 65536)

/-- Admission of the node's slots as they stand. -/
def Node.admissionNow (n : Node) : Option (List Word) := admission n.slotCosts n.crossTerms n.time.rate n.time.outat

end Sys2Proof.Machine
end

