-- ==== Sys2Proof/Machine/PosValues.lean ====
section
/-!
DEFINITION. Kilned values between samples: crossings, interpolation, the stored samples of a channel, and the POS_AT replies formed from
them (07_green_and_kilned.md R232, R234, R241, R245; 08_latch_hop_emulation.md R268, R271, R275). Differences of positions are
taken under R8.
-/
namespace Sys2Proof.Machine

/-! ### Between two samples -/

/-- Whether a crossing of a target from `a` to `b` is one in a direction (R275), positions compared under R8. -/
def crosses (dir : Nat) (target a b : Int) : Bool :=
  let m := diffAu b a
  let g := diffAu target a
  let f := decide (0 < g) && decide (g ≤ m)
  let r := decide (g < 0) && decide (m ≤ g)
  match dir with
  | 0 => f
  | 1 => r
  | _ => f || r

/-- The instant at which a line between two stamped positions reaches a target (R271, R275), rounded to 1 ns. -/
def crossStamp (a b : Kil) (target : Int) : Stamp :=
  let d : Int := diffAu b.u a.u
  let g : Int := diffAu target a.u
  let ns : Int := if d = 0 then 0 else roundDiv ((((b.st.e : Int) - a.st.e) * g) * (if d < 0 then -1 else 1)) d.natAbs
  { a.st.shift ns with mark := b.st.mark }

/-- The kilned value at an instant between two kilned samples (R245, R268): position and velocity interpolated and rounded under R10,
the position as it is reported with POS.OFFSET `off`. -/
def interpolate (off : Int) (a b : Kil) (e : Int) : Int × Int :=
  let t : Int := (b.st.e : Int) - a.st.e
  if t ≤ 0 then (b.u, b.v)
  else
    let x := e - a.st.e
    (addAu off a.u (diffAu b.u a.u * x) t, roundDiv (a.v * t + (b.v - a.v) * x) t)

/-- Whether a coast lies between two kilned samples (R230, R261). -/
def spanCoast (a b : Kil) : Bool := decide (a.coasts ≠ b.coasts)

/-! ### Stored samples -/

/-- The kilned samples the node holds of a channel, newest first: the latest steps and the history (R268). -/
def Node.samples (n : Node) (c : Ch) : List Kil :=
  let t := (n.core.fronts.get c).trk
  let recent := t.kil.toList ++ (t.kilBefore.toList.filter fun b => t.kil.any fun k => decide (b.st.e < k.st.e))
  recent ++ (n.core.pos.get c).hist.filter fun h => recent.all fun k => decide (h.st.e < k.st.e)

/-- The samples that bracket an instant of line time in a list of samples, newest first (R268). -/
def bracket (t : Nat) : List Kil → Option (Kil × Kil)
  | [] => none
  | [a] => if a.st.lt = t then some (a, a) else none
  | b :: a :: rest => if ltLe a.st.lt t && ltLe t b.st.lt then some (a, b) else bracket t (a :: rest)

/-- The value at an instant between two samples (R268): P40, V40 and VM40 of origin 7. -/
def Node.valueAt (n : Node) (c : Ch) (a b : Kil) (t : Nat) : List Word :=
  let x := interpolate (n.offset c) a b ((a.st.e : Int) + ltDiff t a.st.lt)
  [n.p40 c x.1, wI x.2, vm40 0 (spanCoast a b) b.st.mark 7 0]

/-- The kilned samples between which an elapsed instant lies, in samples newest first: the first at or after it and the
one before (R241). -/
def bracketAt (e : Nat) : List Kil → Option (Kil × Kil)
  | [] => none
  | [b] => if e ≤ b.st.e then some (b, b) else none
  | b :: a :: rest => if b.st.e < e then none else if a.st.e < e then some (a, b) else bracketAt e (a :: rest)

/-! ### POS_AT -/

/-- A reply that carries positions of one channel: with GREEN_OK a green group follows (R232). -/
def Node.posReply (n : Node) (p : Packet) (c : Ch) (ws : List Word) : Ans :=
  if p.greenOk then .final .done [ws ++ n.greenGroup c] true else .ok ws

/-- Whether a wait asks for the position at an instant. -/
def ExtrapWait.asksPosition (w : ExtrapWait) : Bool :=
  match w.kind with
  | .posAt _ => true
  | .timeAt .. => false

/-- A wait ends with its reply. -/
def Node.endExtrap (w : ExtrapWait) (ws : List Word) (n : Node) : Node :=
  let n := n.modCore fun k => { k with extraps := k.extraps.filter fun x => x.op != w.op }
  match n.opOf w.op, w.kind with
  | some op, .posAt _ => n.deliver op (n.posReply op.packet w.ch ws)
  | some op, _ => n.deliver op (.ok ws)
  | none, _ => n

/-- A kilned step at or after the instant asked for completes POS_AT (R234). -/
def Node.valueReady (w : ExtrapWait) (n : Node) : Node :=
  match w.kind, (n.core.fronts.get w.ch).trk.kil with
  | .posAt t, some k =>
    if !ltLe t k.st.lt then n else
    let ab := (bracket t (n.samples w.ch)).getD (k, k)
    n.endExtrap w (n.valueAt w.ch ab.1 ab.2 t)
  | _, _ => n

end Sys2Proof.Machine
end

