-- ==== Sys2Proof/Machine/PosOps.lean ====
section
/-!
DEFINITION. Hop entries and compare outputs, wave playbacks, latch captures and waiting EXTRAPOLATEs: what the rows of
the position services share (07_green_and_kilned.md R236 to R245; 08_latch_hop_emulation.md R253 to R283;
10_analog_outputs.md R350 to R358).
-/
namespace Sys2Proof.Machine

/-! ### Wave playbacks -/

/-- The code of sample `i` of a table (R345): wave memory reads zero where nothing is listed. -/
def WaveMem.get (m : WaveMem) (i : Nat) : BitVec 18 := ((m.find? fun e => e.1 == i).map Prod.snd).getD 0

/-- Writes a sample, keeping the canonical form. -/
def WaveMem.put (m : WaveMem) (i : Nat) (v : BitVec 18) : WaveMem :=
  match m with
  | [] => if v = 0 then [] else [(i, v)]
  | e :: es =>
    if i < e.1 then (if v = 0 then e :: es else (i, v) :: e :: es)
    else if i = e.1 then (if v = 0 then es else (i, v) :: es)
    else e :: WaveMem.put es i v

/-- The canonical form of wave memory: strictly rising places, no zero code. -/
def WaveMem.wf (m : WaveMem) : Bool :=
  match m with
  | [] => true
  | e :: es => decide (e.2 ≠ 0) && es.all (fun f => decide (e.1 < f.1)) && WaveMem.wf es

/-- A wave table. -/
def Waves.table (w : Waves) (t : Nat) : WaveTable := (w.tables[t]?).getD {}

/-- Replaces a wave table. -/
def Waves.setTable (t : Nat) (x : WaveTable) (w : Waves) : Waves := { w with tables := listSet w.tables t x }

/-- The code of sample `j`, counted over the passes, of a playback (R355). -/
def Waves.sample (w : Waves) (p : Playback) (j : Nat) : BitVec 18 :=
  let t := w.table p.table
  w.mem.get (t.base + j % max t.len 1)

/-- Changes a playback. -/
def Node.modPlay (op : Nat) (f : Playback → Playback) (n : Node) : Node :=
  n.modWaves fun w => { w with plays := w.plays.map fun p => if p.op == op then f p else p }

/-- Enters sample `j` of a playback into the input registers of its outputs (R339, R354). -/
def Node.waveEnter (p : Playback) (j : Nat) (n : Node) : Node :=
  let code := n.core.waves.sample p j
  eachOf p.outs (fun c m => m.modOut c (writeInput code)) n

/-- A run of a playback starts now (R353, R354): under TICK timing sample 0 enters the input registers, and k0 is the
tick of the group's first strobe after it, or this tick where the group is not on TICK; of several groups the first named output's
counts (DESIGN CHOICE, log entry 122). -/
def Node.waveStart (p : Playback) (n : Node) : Node :=
  match p.timing with
  | .schedule _ => n.modPlay p.op fun q => { q with running := true, next := 0, startDue := false, greenHop := none }
  | .tick _ =>
    let onTick := match p.outs with
      | c :: _ => n.strobeSource (n.inGroup true c) == 0
      | [] => false
    let k0 := if onTick && n.time.outDone then wrapK (n.time.k48 + 1) else n.time.k48
    (n.waveEnter p 0).modPlay p.op fun q =>
      { q with
        running := true, start := n.now, next := 1, k0 := k0, unloaded := p.outs, ignored := 0, startDue := false
        greenHop := none }

/-- Raises EV.WAVE_END (R358): reason 0 RUN_DONE, 1 DONE, 2 ABORTED, 3 DROPPED. -/
def Node.waveEnd (p : Playback) (reason : Nat) (n : Node) : Node :=
  n.event .waveEnd 0xFF p.lastLoad
    [wN (p.table + (p.outs.foldl (fun a c => a + 2 ^ c.val) 0) * 16 + reason * 256 + min p.ignored 65535 * 2048 + p.tag.toNat * 2 ^ 27)]

/-- Ends a playback (R352, R357). -/
def Node.endPlay (p : Playback) (s : Status) (reason : Nat) (n : Node) : Node :=
  let n := n.modWaves fun w => { w with plays := w.plays.filter fun q => q.op != p.op }
  (n.waveEnd p reason).endOrder p.op s []

/-- The playback on an output, running or waiting. -/
def Node.playOn (n : Node) (c : Ch) : Option Playback := n.core.waves.plays.find? fun p => p.outs.contains c

/-- A trigger of playbacks that satisfy `f` (R353, R355): a waiting one starts, a running one counts it. -/
def Node.waveTrigger (f : Playback → Bool) (n : Node) : Node :=
  eachOf (n.core.waves.plays.filter f) (fun p m =>
    if p.running then m.modPlay p.op fun q => { q with ignored := q.ignored + 1 } else m.waveStart p) n

/-! ### Compare outputs and hop entries -/

/-- Opens the record of an instant's actions (R279). -/
def CmpOut.openAt (e : Nat) (o : CmpOut) : CmpOut :=
  if o.instant = some e then o else { o with instant := some e, before := o.active, tog := false, on := false, off := false }

/-- The level after an instant's actions in the order pulse ends, TOGGLE, SET, CLEAR (R279). -/
def CmpOut.settle (o : CmpOut) : CmpOut := { o with active := !o.off && (o.on || (o.before != o.tog)) }

/-- A pulse end at an elapsed instant (R279). -/
def CmpOut.endPulse (e : Nat) (o : CmpOut) : CmpOut :=
  match o.pulseEnd with
  | some p => if p ≤ e then CmpOut.settle { o.openAt e with before := false, pulseEnd := none } else o
  | none => o

/-- The action of a descriptor's word 2 on its output at an elapsed instant (R272, R279). -/
def CmpOut.act (w2 : Word) (e : Nat) (o : CmpOut) : CmpOut :=
  let o := o.openAt e
  match fld w2 34 33 with
  | 0 =>
    let ends := e + 5 * fld w2 27 0
    CmpOut.settle { o with on := true, pulseEnd := some (match o.pulseEnd with
      | some p => max p ends
      | none => ends) }
  | 1 => CmpOut.settle { o with on := true }
  | 2 => CmpOut.settle { o with off := true }
  | _ => CmpOut.settle { o with tog := !o.tog }

/-- Changes a compare output. -/
def Node.modCmp (i : Nat) (f : CmpOut → CmpOut) (n : Node) : Node :=
  n.modCore fun k => { k with cmps := match k.cmps[i]? with
    | some o => listSet k.cmps i (f o)
    | none => k.cmps }

/-- The handle of an entry (R273). -/
def HopEntry.handle (h : HopEntry) : Nat := h.slot + (h.uses % 4096) * 4096

/-- The output of an entry (R272). -/
def HopEntry.output (h : HopEntry) : Nat := fld h.w2 37 35

/-- The direction of an entry (R272): 0 FORWARD, 1 REVERSE, 2 EITHER. -/
def HopEntry.dir (h : HopEntry) : Nat := fld h.w2 39 38

/-- The lead of an entry, ns (R272). -/
def HopEntry.lead (h : HopEntry) : Nat := h.w1.toNat

/-- The live entry of a handle. -/
def Node.hop (n : Node) (handle : Nat) : Option HopEntry := n.core.hops.find? fun h => h.handle == handle

/-- Frees an entry's slot. -/
def Node.dropHop (h : HopEntry) (n : Node) : Node :=
  n.modCore fun k => { k with hops := k.hops.filter fun x => x.handle != h.handle }

/-- An entry ends other than by removal (R281), t_x with its time mark (R3, R56): reason 0 FIRED_KILNED, 1 FIRED_GREEN, 2 EXPIRED, 3 ABORTED. -/
def Node.hopEnd (h : HopEntry) (reason : Nat) (ignored : Bool) (tx : Option Stamp) (n : Node) : Node :=
  (n.dropHop h).event .hopEnd h.ch.val n.stamp
    [wN (h.handle + h.output * 2 ^ 24 + reason * 2 ^ 27 + flag ignored 30), (tx.elim 0 fun s => ltHi s.lt s.mark.code), (tx.elim 0 fun s => ltLo s.lt)]

/-- The wave trigger of an entry that fires (R236, R280, R356): whether it is ignored, and the node after it. -/
def Node.hopWave (h : HopEntry) (green : Bool) (n : Node) : Bool × Node :=
  if !bitOf h.w2 32 then (false, n) else
  let t := fld h.w2 31 28
  let ps := n.core.waves.plays.filter fun p => p.table == t && p.trigger == .hop
  let waiting := ps.any fun p => !p.running
  let ignored := !((n.core.waves.table t).state == .loaded) || !waiting
  let n :=
    if !((n.core.waves.table t).state == .loaded) then n
    else if green then
      n.modWaves fun w => { w with plays := w.plays.map fun p =>
        if p.table == t && p.trigger == .hop then
          if p.running then { p with ignored := p.ignored + 1 }
          else if p.greenHop.isSome || p.startDue then p
          else { p with greenHop := some { ch := h.ch, target := h.target, dir := h.dir } }
        else p }
    else n.waveTrigger fun p => p.table == t && p.trigger == .hop
  (ignored, n)

/-- A hop entry fires (R276, R277, R279 to R281). -/
def Node.fireHop (h : HopEntry) (green : Bool) (tx : Stamp) (n : Node) : Node :=
  let n := n.modCmp h.output (CmpOut.act h.w2 n.now)
  let r := n.hopWave h green
  r.2.hopEnd h (if green then 1 else 0) r.1 (some tx)

/-- D_c of an input kind, ns (R276): `word` is the whole ticks from a word's sample instant to its step. -/
def Node.hopDelay (n : Node) (c : Ch) (word : Nat) : Nat :=
  match n.mode c with
  | .ssi => n.tick + word * n.tick
  | .hall => n.parN Pid.inHallflt c.val * 1000 + 1000
  | _ => n.tick

/-- The crossings that a kilned step confirms (R275, R276): each live entry of the channel that has not been crossed
takes t_x and the elapsed firing instant. -/
def Node.crossHops (c : Ch) (a b : Kil) (word : Nat) (n : Node) : Node :=
  let late := n.now + (match n.mode c with
    | .resolver => 1505
    | .sincos => 1505
    | _ => 5)
  let d := n.hopDelay c word
  n.modCore fun k => { k with hops := k.hops.map fun h =>
    if h.ch == c && h.crossed.isNone && crosses h.dir h.target a.u b.u then
      let tx := if n.mode c = .hall then b.st else crossStamp a b h.target
      { h with crossed := some (tx, max (tx.e + d) late) }
    else h }

/-- The confirmation of green-fired wave triggers by a kilned step (R236). -/
def Node.confirmWaves (c : Ch) (a b : Kil) (n : Node) : Node :=
  n.modWaves fun w => { w with plays := w.plays.map fun p =>
    match p.greenHop with
    | some g => if g.ch == c && crosses g.dir g.target a.u b.u then { p with greenHop := none, startDue := true } else p
    | none => p }

/-! ### Event windows (R244) -/

/-- Raises EV.REFUTED (R244): the refutation of largest magnitude, its count, origin and catch-up; it marks every client's refutation
bit of S40 (R45). -/
def Node.refutedEvent (c : Ch) (w : EvWindow) (count : Nat) (n : Node) : Node :=
  let cs : List ClientRec := n.clients.map fun x => { x with refuted := true }
  let n := { n with clients := cs }
  let n := n.event .refuted c.val w.first [satI w.r, wN (min count 65535 + w.origin * 65536), wN w.catchUp.toNat]
  n.modCore fun k => { k with refutedNow := true }

/-- A refutation of a channel (R240, R241, R244): reported at once, or counted in the window that is open. -/
def Node.refute (c : Ch) (r : Int) (origin : Nat) (st : Stamp) (catchUp : Int) (n : Node) : Node :=
  match (n.core.pos.get c).refuted with
  | none =>
    let w : EvWindow := { ends := n.now + 10000000, first := st, r := r, origin := origin, catchUp := catchUp }
    let w' : EvWindow := { w with r := 0, catchUp := 0 }
    (n.refutedEvent c w 1).modPos c fun p => { p with refuted := some w' }
  | some w =>
    let big := decide (w.r.natAbs < r.natAbs) || w.count == 0
    let w' : EvWindow :=
      { w with
        count := w.count + 1, first := if w.count = 0 then st else w.first, r := if big then r else w.r
        origin := if big then origin else w.origin, catchUp := max w.catchUp catchUp }
    n.modPos c fun p => { p with refuted := some w' }

/-- A lost capture (R260, R244). -/
def Node.latchLost (c : Ch) (st : Stamp) (n : Node) : Node :=
  match (n.core.pos.get c).latchLost with
  | none =>
    (n.event .latchLost c.val st [1]).modPos c fun p => { p with latchLost := some { ends := n.now + 10000000, first := st } }
  | some w =>
    let w' : EvWindow := { w with count := w.count + 1, first := if w.count = 0 then st else w.first }
    n.modPos c fun p => { p with latchLost := some w' }

/-- Raises EV.HOP_MISMATCH (R436). -/
def Node.mismatchEvent (lt : Nat) (mark : TimeMark) (n : Node) : Node :=
  n.event .hopMismatch 0xFF { lt := lt, mark := mark, e := n.now } [wN (n.line.hops.getD 0 + (n.line.lock.elim 0 Prod.fst) * 1024)]

/-- A hop mismatch found (R436), under the window rule of R244. -/
def Node.hopMismatch (n : Node) : Node :=
  match n.line.mismatchWindow with
  | none => (n.mismatchEvent n.lt n.time.mark).modLine fun l => { l with mismatchWindow := some (n.now + 10000000, 0, n.lt, n.time.mark) }
  | some (e, k, lt, m) =>
    n.modLine fun l => { l with mismatchWindow := some (e, k + 1, if k = 0 then n.lt else lt, if k = 0 then n.time.mark else m) }

/-! ### Latches -/

/-- The final words of an arming (R256). -/
def Arming.words (a : Arming) : List Word := [wN (a.captures % 65536 + a.lastSeq.toNat * 65536)]

/-- The arming of an input: LATA (false) or LATB (true). -/
def Latch.arm (l : Latch) (b : Bool) : Option Arming := if b then l.armB else l.armA

/-- Replaces the arming of an input. -/
def Latch.setArm (b : Bool) (a : Option Arming) (l : Latch) : Latch := if b then { l with armB := a } else { l with armA := a }

/-- Ends the arming of an input by a later LATCH_ARM (R257). -/
def Node.endArm (c : Ch) (b : Bool) (n : Node) : Node :=
  match (n.core.pos.get c).latch.arm b with
  | none => n
  | some a =>
    let n := n.modPos c fun p => { p with latch := p.latch.setArm b none }
    n.endOrder a.op (if a.mode = .continuous then .done else .aborted) a.words

/-- Ends the arming of an input at CASK entry (R24). -/
def Node.abortArm (c : Ch) (b : Bool) (n : Node) : Node :=
  match (n.core.pos.get c).latch.arm b with
  | none => n
  | some a => (n.modPos c fun p => { p with latch := p.latch.setArm b none }).endOrder a.op .aborted a.words

/-- The order of captures with equal stamps (R259). -/
def LatchSource.rank : LatchSource → Nat
  | .latA => 0
  | .latB => 1
  | .index => 2

/-- Whether an entry comes after a capture in stamp order (R259). -/
def LatchEntry.after (src : LatchSource) (st : Stamp) (e : LatchEntry) : Bool :=
  decide (st.e < e.st.e) || (decide (st.e = e.st.e) && decide (src.rank < e.source.rank))

/-- The sequence number of a capture (R259): the next one, or that of the first stored entry that comes after it. -/
def Latch.seqFor (src : LatchSource) (st : Stamp) (l : Latch) : BitVec 16 :=
  ((l.fifo.find? (LatchEntry.after src st)).map LatchEntry.seq).getD l.seq

/-- An entry moves up by one number. -/
def LatchEntry.bump (e : LatchEntry) : LatchEntry := { e with seq := e.seq + 1 }

/-- An arming whose last capture moves up by one number. -/
def Arming.bump (later : List LatchEntry) (a : Arming) : Arming :=
  if later.any fun e => e.seq == a.lastSeq then { a with lastSeq := a.lastSeq + 1 } else a

/-- Marks the first entry of a list with lost-before (R260). -/
def markLost : List LatchEntry → List LatchEntry
  | [] => []
  | e :: es => { e with lostBefore := true } :: es

/-- A capture enters the FIFO in stamp order (R259, R260): the sequence number advances, and a full FIFO loses a capture. A virtual
index, known only at its kilned step, moves the entries stamped after it up by one number (log entry 92). -/
def Node.capture (c : Ch) (src : LatchSource) (falling : Bool) (st : Stamp) (n : Node) : Node :=
  let l := (n.core.pos.get c).latch
  let later := l.fifo.filter (LatchEntry.after src st)
  let earlier := l.fifo.filter fun e => !e.after src st
  let last := later.isEmpty
  let e : LatchEntry :=
    { st := st, seq := l.seqFor src st, source := src, falling := falling, reverse := !(n.core.fronts.get c).trk.dir
      lostBefore := l.lostBefore && last }
  let full := decide (64 ≤ l.fifo.length)
  let newest := n.parN Pid.latOvf c.val == 1
  let up := later.map LatchEntry.bump
  let l := { l with seq := l.seq + 1, armA := l.armA.map (Arming.bump later), armB := l.armB.map (Arming.bump later) }
  let l' : Latch :=
    if !full then { l with fifo := earlier ++ e :: up, lostBefore := l.lostBefore && !last }
    else if newest then { l with fifo := (earlier ++ { e with lostBefore := true } :: up).drop 1, lost := l.lost + 1, lostBefore := false }
    else { l with fifo := earlier ++ markLost up, lost := l.lost + 1, lostBefore := l.lostBefore || last }
  let n := n.modPos c fun p => { p with latch := l' }
  if full then n.latchLost c st else n

/-- The words of an entry (R261); in EV.LATCH its LT_HI word carries the time mark too (R3, R56). -/
def Node.latchWords (n : Node) (c : Ch) (event : Bool) (e : LatchEntry) : List Word :=
  let g := match e.group with
    | .value u v coast mark => [n.p40 c u, wI v, vm40 0 coast mark 7 0]
    | _ => [0, 0, vmNone]
  g ++ [ltHi e.st.lt (if event then e.st.mark.code else 0), ltLo e.st.lt,
    wN (e.seq.toNat + e.source.rank * 65536 + flag e.falling 18 +
      flag e.reverse 19 + e.st.mark.code * 2 ^ 20 + flag e.lostBefore 22)]

/-- Whether an entry is readable (R245). -/
def LatchEntry.readable (e : LatchEntry) : Bool := match e.group with
  | .waiting => false
  | _ => true

/-- Gives the waiting entries of a channel their position group (R245) and raises EV.LATCH for each (R263): `a` and `b`
are the latest kilned value before the step and the step's own; entries stamped before `b` become readable. -/
def Node.readyLatches (c : Ch) (n : Node) : Node :=
  let t := (n.core.fronts.get c).trk
  let tracking := t.running
  let fill := fun (e : LatchEntry) =>
    if e.readable then e
    else if !tracking then { e with group := .absent }
    else match t.kil with
      | some b =>
        if e.st.e < b.st.e then
          let a := t.kilBefore.getD b
          let x := interpolate (n.offset c) a b e.st.e
          { e with group := .value x.1 x.2 (spanCoast a b) b.st.mark }
        else e
      | none => e
  let old := (n.core.pos.get c).latch.fifo
  let new := old.map fill
  let n := n.modPos c fun p => { p with latch := { p.latch with fifo := new } }
  let fresh := (old.zip new).filterMap fun e => if !e.1.readable && e.2.readable then some e.2 else none
  eachOf fresh (fun e m => m.event .latch c.val e.st (m.latchWords c true e)) n

/-! ### EXTRAPOLATE -/

/-- A wait for a position of a channel that stops tracking ends (R234): with its value where a kilned step at or after the instant
exists already, else with kind NONE. -/
def Node.stopWait (w : ExtrapWait) (n : Node) : Node :=
  let m := n.valueReady w
  if m.core.extraps.any fun x => x.op == w.op then m.endExtrap w [0, 0, vmNone] else m

/-- Ends the waits for a position of a channel that stops tracking (R234); a TIME_AT waits on for a crossing or its timeout (R271). -/
def Node.extrapolateStop (c : Ch) (n : Node) : Node :=
  eachOf (n.core.extraps.filter fun w => w.ch == c && w.asksPosition) Node.stopWait n

/-- The judgement of a green-fired entry (R241): once, when a kilned sample at or after t_c exists. -/
def Node.judgeFired (handle : Nat) (n : Node) : Node :=
  match n.core.fired.find? fun f => f.handle == handle with
  | none => n
  | some f =>
    match bracketAt f.crossing.e (n.samples f.ch) with
    | none => n
    | some (a, b) =>
      let r := diffAu (interpolate (n.offset f.ch) a b f.crossing.e).1 f.target
      let n := n.modCore fun k => { k with fired := k.fired.filter fun x => x != f }
      if n.par Pid.trkRefute f.ch.val < r.natAbs then
        (n.refute f.ch r 5 b.st (n.emuCatchUp f.ch)).event .firedRefuted f.ch.val f.fired
          [wN (f.handle + f.output * 2 ^ 24), ltHi f.crossing.lt f.crossing.mark.code, ltLo f.crossing.lt, satI r]
      else n

/-- EV.FIRED_REFUTED of an entry that no kilned sample confirms (R242, R244). -/
def Node.unconfirmedEvent (f : FiredEntry) (n : Node) : Node :=
  (n.modCore fun k => { k with fired := k.fired.filter fun x => x != f }).event .firedRefuted f.ch.val f.fired
    [wN (f.handle + f.output * 2 ^ 24 + 2 ^ 27), ltHi f.crossing.lt f.crossing.mark.code, ltLo f.crossing.lt, 0]

/-- Judges the green-fired entries of a channel that stops tracking (R241, R242): one without a kilned sample at or after its
crossing instant is unconfirmed. -/
def Node.unconfirmed (c : Ch) (n : Node) : Node :=
  eachOf (n.core.fired.filter fun f => f.ch == c) (fun f m =>
    let m := m.judgeFired f.handle
    if m.core.fired.contains f then m.unconfirmedEvent f else m) n

/-- What the position services do when a channel stops tracking (R234, R242, R245). -/
def Node.posStop (c : Ch) (n : Node) : Node := ((n.extrapolateStop c).unconfirmed c).readyLatches c

end Sys2Proof.Machine
end

