-- ==== Sys2Proof/Machine/FanOps.lean ====
section
/-!
DEFINITION. The fans' duty in force, tach presence, the duct velocity and the beginning and end of supervision, and the
end of a zero-flow calibration (11_sound_heat_air.md R378, R381, R385 to R391, R394).
-/
namespace Sys2Proof.Machine

/-- The instance number of a fan or path. -/
def idx (b : Bool) : Nat := if b then 1 else 0

/-- Changes a fan. -/
def Node.modFan (b : Bool) (f : FanState → FanState) (n : Node) : Node :=
  n.modSound fun s => { s with fans := s.fans.set b (f (s.fans.get b)) }

/-- A fan. -/
def Node.fan (n : Node) (b : Bool) : FanState := n.core.sound.fans.get b

/-- Applies a function to FAN0, then FAN1. -/
def eachFan (f : Bool → Node → Node) (n : Node) : Node := f true (f false n)

/-- FAN.RPM: tach edges of the latest second over FAN.PPR (R386). -/
def Node.rpm (n : Node) (b : Bool) : Nat :=
  let edges := ((n.fan b).edges.filter fun e => decide (n.now < e + 1000000000)).length
  edges * 60 / max 1 (n.parN Pid.fanPpr (idx b))

/-- Whether a fan's tach is present (R386); F.FAN_BLOCKED's injection masks it (R397). -/
def Node.tachPresent (n : Node) (b : Bool) : Bool :=
  decide (n.parN Pid.fanRpmmin (idx b) ≤ n.rpm b) &&
    ((n.fan b).edges.head?.any fun e => decide (n.now ≤ e + n.parN Pid.fanTachloss (idx b) * 1000000)) &&
    !n.injecting .fanBlocked 0xFF

/-- The path FAN.PATH names, where it names one (R399). -/
def Node.fanPath (n : Node) (b : Bool) : Option Bool :=
  match n.parN Pid.fanPath (idx b) with
  | 0 => some false
  | 1 => some true
  | _ => none

/-- The duct velocity of a fan, fx m/s (R374): none where its path gives no valid velocity. -/
def Node.ductV (n : Node) (b : Bool) : Option Int :=
  match n.fanPath b with
  | none => none
  | some p =>
    let r := n.core.sound.paths.get p
    if n.core.sound.published && r.fitted && r.vOk then some r.v.natAbs else none

/-- FAN.AIRMIN, fx m/s. -/
def Node.airMin (n : Node) (b : Bool) : Int := m40ToFx (n.core.params.get (pidAt Pid.fanAirmin (idx b)))

/-- An item in 0.1 % as fx. -/
def Node.dutyPar (n : Node) (pid : Nat) (b : Bool) : Int := n.par pid (idx b) * fxOne

/-- Whether measuring rounds run (R99, R368). -/
def Node.roundsRun (n : Node) : Bool :=
  !n.core.sound.noRounds && (n.parN Pid.sndPaths 0 != 0 || (List.range 4).any fun i => n.parN Pid.rtdEn i == 1)

/-- The duty of the CURVE source (R387). -/
def Node.curveDuty (n : Node) (b : Bool) : Int :=
  let r := n.core.sound.rtds.get (Fin.ofNat 4 (n.parN Pid.fanCrtd (idx b)))
  let hi := n.dutyPar Pid.fanDhi b
  let lo := n.dutyPar Pid.fanDlo b
  let tlo := m40ToFx (n.core.params.get (pidAt Pid.fanTlo (idx b)))
  let thi := m40ToFx (n.core.params.get (pidAt Pid.fanThi (idx b)))
  if !(r.enabled && r.valid) then hi
  else if r.t ≤ tlo then lo else if thi ≤ r.t then hi
  else lo + (hi - lo) * (r.t - tlo) / (thi - tlo)

/-- The duty a fan's source gives now (R387): AIRFLOW keeps what its latest round gave; a duty held under R394 stays. -/
def Node.sourceDuty (n : Node) (b : Bool) : Int :=
  let f := n.fan b
  if f.held then f.srcDuty
  else if n.core.sound.noRounds then n.dutyPar Pid.fanDuty b
  else match n.parN Pid.fanSrc (idx b) with
    | 0 => n.dutyPar Pid.fanDuty b
    | 1 => n.curveDuty b
    | _ => f.srcDuty

/-- The duty in force, with the overrides of R387: calibration, retry sequence, probe, then CASK (R21), whose duty waits
for P3 (R40). -/
def Node.forceDuty (n : Node) (b : Bool) : Int :=
  let f := n.fan b
  let probed := n.core.sound.probe.any fun p => p.fan == b
  if n.core.sound.cal.isSome then 0 else
  match f.phase with
  | .heldOff => 0
  | .pausing .. => 0
  | .kicking .. => 1000 * fxOne
  | _ =>
    if probed then 0
    else if n.core.mode == .cask then (if n.core.caskDue then f.duty else n.dutyPar Pid.fanCaskduty b)
    else f.srcDuty

/-- Whether a fan is supervised (R378, R389). -/
def Node.supervised (n : Node) (b : Bool) : Bool :=
  n.core.sound.cal.isNone && (decide (n.dutyPar Pid.fanMinduty b ≤ (n.fan b).duty) || match (n.fan b).phase with
    | .kicking .. => true
    | _ => false)

/-- Supervision begins with a start judgement and ends without a verdict (R389, R391): v_0 is the duct velocity of the
moment, 0 where there is none (log entry 31). -/
def Node.supervise (b : Bool) (n : Node) : Node :=
  let f := n.fan b
  let sup := n.supervised b
  match f.phase with
  | .unsupervised =>
    if sup then n.modFan b fun f =>
      { f with phase := .judging ((n.ductV b).getD 0) n.now (n.now + n.parN Pid.fanSpinup (idx b) * 1000000), lowSince := none }
    else n
  | .judging .. => if sup then n else n.modFan b fun f => { f with phase := .unsupervised, lowSince := none }
  | .running => if sup then n else n.modFan b fun f => { f with phase := .unsupervised, watch := none, lowSince := none }
  | .unproven => if sup then n else n.modFan b fun f => { f with phase := .unsupervised, watch := none, lowSince := none }
  | _ => n

/-- Recomputes a fan's duty (R387) and its supervision. -/
def Node.fanRefresh (b : Bool) (n : Node) : Node :=
  let n := n.modFan b fun f => { f with srcDuty := n.sourceDuty b }
  let n := n.modFan b fun f => { f with duty := n.forceDuty b }
  n.supervise b

/-- Recomputes both fans. -/
def Node.fansRefresh (n : Node) : Node := eachFan Node.fanRefresh n

/-- With nothing left to measure the unit's detectors stop evaluating (R368, R506) and no result stands. -/
def Node.soundStopped (n : Node) : Node :=
  let n := n.modSound fun s => { s with paths := ⟨{}, {}⟩, rtds := Quad.all {}, mediumRounds := ⟨0, 0⟩ }
  let n := n.cease .medium 0xFF
  eachOf [0, 1, 2, 3, 0xFF] (fun sc m => m.ceaseAll [.rtdOpen, .rtdShort, .rtdHot] sc) n

/-- Items of the SND, RTD or FAN blocks were written (R387): duties are held between rounds, and follow at once where no
measuring round runs (log entry 32). -/
def Node.fansWritten (n : Node) : Node :=
  if n.roundsRun then eachFan Node.supervise n else n.soundStopped.fansRefresh

/-- A calibration takes both fans to 0 % and suspends supervision (R378): every phase but a fan held off ends. -/
def Node.fansForCal (n : Node) : Node :=
  eachFan (fun b m => (m.modFan b fun f =>
    { f with phase := if f.phase = .heldOff then .heldOff else .unsupervised, watch := none, lowSince := none }).fanRefresh b) n

/-- The end of a calibration (R378 step 4, R381): the fans return to their sources and supervision restarts. -/
def Node.calEnd (st : Status) (ws : List Word) (n : Node) : Node :=
  match n.core.sound.cal with
  | none => n
  | some c => ((n.modSound fun s => { s with cal := none }).fansRefresh).endOrder c.op st ws

/-- A calibration that is not to go on ends ABORTED (R381). -/
def Node.calAbort (n : Node) : Node := n.calEnd .aborted []

end Sys2Proof.Machine
end

