-- ==== Sys2Proof/Machine/Modes.lean ====
section
/-!
DEFINITION. Starting and stopping a channel's excitation and tracking, leaving and entering CASK, and the end of a
fusion by CASK entry (01_node_and_modes.md R21 to R43; 05_resolver_front_end.md R163; 14_tandem.md R490 to R496).
-/
namespace Sys2Proof.Machine

/-- Whether a channel takes part in a mode (R28, R156): its input is not OFF and Steep left it available. -/
def Node.takesPart (n : Node) (c : Ch) : Bool := !n.noChannel c

/-- Starts a channel's excitation and tracking at P0 of the tick in progress (R36, R163). -/
def Node.startChannel (c : Ch) (n : Node) : Node :=
  if !n.takesPart c then n else
  n.modFront c fun f =>
    let f := { f with trk := trkStart f.trk, ssi := if f.trk.running then f.ssi else { errCnt := f.ssi.errCnt, readyAt := f.ssi.readyAt } }
    if n.mode c = .resolver then { f with exc := excRequestStart n.core.params c.val n.time.rate n.time.p0e f.exc } else f

/-- The detectors that stop evaluating when a channel stops tracking (R506); those of the driver and of the samples go on. -/
def trackingFaults : List FaultCode :=
  [.carrierPhase, .sincosRate, .hallInvalid, .ssiTimeout, .ssiCrc, .ssiErrbit, .los, .dos, .indexDrift]

/-- Stops a channel's tracking (R209, R211, R234, R242, R245): a learning map ends CAL_UNSTABLE (R215). -/
def Node.stopTracking (c : Ch) (n : Node) : Node :=
  let f := n.core.fronts.get c
  if !f.trk.running then n else
  let n := match f.trk.learn with
    | some l => n.endOrder l.op .calUnstable []
    | none => n
  let n := n.modFront c (trkStop n.core.params c.val n.now)
  (n.posStop c).ceaseAll trackingFaults c.val

/-- Stops a resolver or SSI channel's excitation, clocking and tracking (R21, R121, R163). -/
def Node.stopChannel (c : Ch) (n : Node) : Node :=
  match n.mode c with
  | .resolver =>
    (n.modFront c fun f => { f with exc := excRequestStop n.time.k48 n.time.rate n.time.p0e n.now f.exc }).stopTracking c
  | .ssi => n.stopTracking c
  | _ => n

/-! ### Leaving CASK -/

/-- The node leaves CASK (R21, R29, R363): every output's register takes its clear code and waits for a fresh code. -/
def Node.leaveCask (n : Node) : Node :=
  eachCh (fun c m => (m.modOut c fun o =>
    let o' := endRank3 (m.clrCode c) o
    { o' with parked := o.parked, cleared := o.cleared }).emuLeave c) n

/-- A resolver channel measures its carrier phase at TRACK entry, also where its excitation runs already (R36, R172). -/
def Node.measureEntry (c : Ch) (n : Node) : Node :=
  if n.takesPart c && n.mode c == .resolver then
    n.modFront c fun f =>
      { f with exc := { f.exc with meas := some { need := measTicks f.exc.freq n.time.rate, since := n.time.p0e }, phCount := 0 } }
  else n

/-- CASK to TRACK at P0 of the tick in progress (R36): excitation and tracking start on every available channel. -/
def Node.enterTrack (op : Option Nat) (n : Node) : Node :=
  let n := n.leaveCask
  let n := (n.modCore fun k => { k with mode := .track, auto := .none, caskDue := false }).fansRefresh
  let n := eachCh (fun c m => (m.measureEntry c).startChannel c) n
  let waiting := ([0, 1, 2, 3] : List Ch).filter fun c => n.takesPart c && !(n.core.fronts.get c).trk.valid
  n.modCore fun k => { k with trackEntry := some { op := op, ends := n.time.p0e + 50000000, waiting := waiting } }

/-! ### CASK entry -/

/-- This node's channels in cascade groups that span both members of a pair (R490), as a mask. -/
def Node.spanning (n : Node) : Nat :=
  chBits 0 fun c =>
    let s := n.core.slots.get c
    match s.leader with
    | some l => (n.ownCh l).isNone || (decide (l = n.pairCh c) && decide (0 < s.remote))
    | none => false

/-- Dissolves the groups that span both members (R493, R495): a follower of the partner's leader and a leader's
followers on the partner lose their bond. -/
def Node.dissolveSpanning (n : Node) : Node :=
  eachCh (fun c m =>
    let s := n.core.slots.get c
    match s.leader with
    | some l =>
      if (n.ownCh l).isNone then m.modSlot c fun s => { s with leader := none, ratio := 4294967296 }
      else m.modSlot c fun s => { s with remote := 0, leader := some (l % 4) }
    | none => m) n

/-- Ends what a member executes for, or has given to, its partner (R493, R494): the lower member ends the commands of
channels 4 to 7 PARTNER_LOST and their hop entries ABORTED, and a command run as two parts goes on with its own part; the
upper member drops the commands, hop entries, playbacks and LEARNs it held, without a reply or an event. Armed F.PARTNER_LOST points
disarm (R533). -/
def Node.endPairOps (n : Node) : Node :=
  let sent := n.core.pool.filter fun o => o.side == .sent
  let both := n.core.pool.filter fun o => o.side == .both
  let gone := n.lane.remoteHops
  let upper := n.isUpper
  let n := n.modCore fun k =>
    let pool := k.pool.filter fun o => o.side != .heldForPair
    { k with
      pool := pool, hops := if upper then [] else k.hops
      waves := if upper then { k.waves with plays := [] } else k.waves
      fronts := if upper then k.fronts.map fun f => { f with trk := { f.trk with learn := none } } else k.fronts
      extraps := k.extraps.filter fun x => pool.any fun o => o.order == x.op
      slots := k.slots.map fun s => if s.active.any (fun a => pool.any fun o => o.order == a.1) then s else { s with active := none } }
  let n := eachOf sent (fun o m => m.endOp o .partnerLost [[]] false) n
  let n := eachOf both (fun o m => match o.part with
    | some (false, s, ws) => m.endOp { o with side := .here } s (inPackets ws) false
    | _ => m.modCore fun k =>
      let pool : List PoolOp := k.pool.map fun x => if x.order == o.order then { x with side := .here, part := none } else x
      { k with pool := pool }) n
  let n := (n.modLane fun l => { l with remoteHops := [] }).modFaults fun f =>
    { f with points := f.points.filter fun p => p.code != .partnerLost }
  eachOf gone (fun h m => m.event .hopEnd (h.2.2.1.val + 4) m.stamp [wN (h.1 + h.2.2.2 * 2 ^ 24 + 3 * 2 ^ 27), 0, 0]) n

/-- The fusion ends with this member's CASK entry (R42, R496): it stops its side-lane tick packets; the partner's silence
is found later. -/
def Node.caskPair (n : Node) : Node :=
  if !(n.core.mode == .tandem) then n else
  let mask := n.spanning
  let n := n.endPairOps
  let n := n.endOpt n.lane.splitOp .partnerLost []
  let n := n.dissolveSpanning
  n.modLane fun l =>
    { l with
      state := .single, sending := false, lossDue := some mask, splitOp := none, splitting := false, leavingAt := none
      stopReq := 0, kMark := n.time.k48 }

/-- TANDEM_FORM in progress ends when the node leaves TRACK (R474 reason 1). -/
def Node.endForming (s : Status) (n : Node) : Node :=
  if !(n.lane.state == .forming) then n else
  (n.endOpt n.lane.formOp s [1]).modLane fun l =>
    { l with state := if l.survivor then .survivor else .single, formOp := none, sending := false, sentReady := false }

/-- Removes every armed hop entry, armed latch and wave playback (R24). -/
def Node.clearArmed (n : Node) : Node :=
  let n := eachOf n.core.hops (fun h m => m.hopEnd h 3 false none) n
  let n := eachCh (fun c m => (m.abortArm c false).abortArm c true) n
  eachOf n.core.waves.plays (fun p m => m.endPlay p .aborted 2) n

/-- Ends the pending mode changes and the motion commands at CASK entry (R41): STOPs are abandoned, a loop being disabled
is disabled. -/
def Node.abandonMotion (n : Node) : Node :=
  let n := eachCh (fun c m => m.endMotion c .aborted) n
  let n := eachOf (n.core.rests.filter fun r => r.kind == .toTrack) (fun r m => m.endOpt r.op .aborted []) n
  let n := n.modCore fun k => { k with rests := k.rests.filter fun r => r.kind == .disable }
  let n := match n.core.trackEntry with
    | some t => (n.endOpt t.op .aborted []).modCore fun k => { k with trackEntry := none }
    | none => n
  n.loopsOff

/-- Entry into CASK (R24, R40 to R42, R381): compare outputs go inactive at once, the output states follow at the next P3. -/
def Node.caskEntry (n : Node) : Node :=
  if n.core.mode == .cask then n.modCore fun k => { k with auto := .none } else
  let n := n.clearArmed
  let n := n.abandonMotion
  let n := (n.endForming .aborted).caskPair
  let n := n.modCore fun k =>
    { k with mode := .cask, caskDue := true, auto := .none, cmps := List.replicate 8 {} }
  let n := n.settleRests.calAbort
  let n := if n.parN Pid.nodeCaskexc 0 = 1 then n else eachCh Node.stopChannel n
  if !n.lane.survivor then n else
  (eachCh (fun c m => m.cease .partnerLost c.val) n).modLane fun l =>
    { l with survivor := false, state := if l.state = .survivor then .single else l.state }

end Sys2Proof.Machine
end

