-- ==== Sys2Proof/Machine/FaultActions.lean ====
section
/-!
DEFINITION. Class actions of faults (15_faults_and_pitch_points.md R503 to R514): which channels a class-2 fault
reaches, what is refused while one is active, and the delivery of verdicts to the fault manager.
-/
namespace Sys2Proof.Machine

/-- A class-2 action (R503). -/
inductive ClassAction where
  | stop
  | park
  deriving DecidableEq, Repr

/-- FLT.ACTION of a channel (R534). -/
def Node.fltAction (n : Node) (c : Ch) : ClassAction := if n.parN Pid.fltAction c.val = 1 then .park else .stop

/-- Channels of a mask with their FLT.ACTION. -/
def Node.reachMask (n : Node) (m : Nat) : List (Ch × ClassAction) := (maskChs m).map fun c => (c, n.fltAction c)

/-- The fans whose FAN.DEPENDS a fan fault reaches: the fan its context word names, and a fan whose condition stands. -/
def Node.reachFans (n : Node) (ctx : Word) (cond : FanState → Bool) : List (Ch × ClassAction) :=
  let on := fun (b : Bool) => bitOf ctx 0 == b || cond (n.core.sound.fans.get b)
  n.reachMask ((if on false then n.parN Pid.fanDepends 0 else 0) ||| (if on true then n.parN Pid.fanDepends 1 else 0))

/-- The channels a class-2 fault reaches, each with its action (R503). -/
def Node.reach (n : Node) (f : FaultCode) (scope : Nat) (ctx : Word) : List (Ch × ClassAction) :=
  match f with
  | .deadline => (maskChs (2 ^ scope)).map fun c => (c, .park)
  | .partnerLost =>
    (maskChs (2 ^ scope)).filterMap fun c =>
      match n.parN Pid.tanWidow c.val with
      | 0 => some (c, .stop)
      | 1 => some (c, .park)
      | _ => none
  | .refV =>
    if n.parN Pid.refAction 0 ≠ 2 then []
    else (([0, 1, 2, 3] : List Ch).filter fun c => match fld ctx 1 0 with
      | 0 => n.parN Pid.dacRef c.val == 0
      | 1 => n.parN Pid.dacRef c.val == 1
      | 2 => false
      | _ => true).map fun c => (c, .park)
  | .refT => n.reachMask (n.parN Pid.refTdepends 0)
  | .fanBlocked => n.reachFans ctx FanState.blocked
  | .fanStopped => n.reachFans ctx FanState.stopped
  | .cycTimeout =>
    match n.parN Pid.lineLossact 0 with
    | 0 => ([0, 1, 2, 3] : List Ch).map fun c => (c, .stop)
    | 1 => ([0, 1, 2, 3] : List Ch).map fun c => (c, .park)
    | _ => []
  | .lineCycle => []
  | .steep => match steepChannel n.core scope with
    | some c => n.reachMask (2 ^ c)
    | none => []
  | _ => if scope < 4 then n.reachMask (2 ^ scope) else []

/-- Whether an active instance of class 2 or 3 refuses motion and loop enables on a channel (R505). -/
def Node.refusesMotion (n : Node) (c : Ch) : Bool :=
  n.core.faults.insts.any fun i => decide (2 ≤ i.cls) && (n.reach i.code i.scope i.ctx).any fun x => x.1 == c

/-- Whether a channel has an active fault of class 2 or 3 (R32): one of its scope, or one whose class action reaches it (R503). -/
def Node.hasClass2 (n : Node) (c : Ch) : Bool :=
  (n.core.faults.insts.any fun i => decide (2 ≤ i.cls) && instOnChannel n.core c.val i) || n.refusesMotion c

/-- Runs a class-2 action on a channel (R504, R513): only on a running slot; a STOP of a braking slot parks it. -/
def Node.runAction (c : Ch) (a : ClassAction) (n : Node) : Node :=
  if !n.slotRunning c then n else
  match a with
  | .park => n.parkSlot c
  | .stop => if (n.core.slots.get c).braking then n.parkSlot c else n.stopBy c

/-- The raise or repeat of one verdict (R500, R512): whether its class action runs, and the node with its instance. A note makes no
instance; one of an active instance is a repeat of it and leaves its condition as it is. -/
def Node.raise (v : Verdict) (n : Node) : Bool × Node :=
  let st := n.stamp
  let reached := decide (v.cls = 2) && !(n.reach v.code v.scope v.ctx).isEmpty
  match n.inst v.code v.scope with
  | none =>
    if v.cls = 0 then (false, n.occur v.code v.scope .raise 0 false v.injected v.ctx) else
    let i : FaultInst :=
      { code := v.code, scope := v.scope, cls := v.cls, present := true, reached := reached, injected := v.injected
        raised := st, ctx := v.ctx }
    (true, (n.modFaults fun x => { x with insts := x.insts ++ [i] }).occur v.code v.scope .raise v.cls false v.injected v.ctx)
  | some i =>
    let up := decide (i.cls < v.cls)
    let n := n.modInst v.code v.scope fun j =>
      { j with
        cls := max j.cls v.cls, present := j.present || v.cls != 0, reached := j.reached || (up && reached), injected := j.injected || v.injected
        ctx := v.ctx, count := j.count + 1 }
    (up, n.occur v.code v.scope (if up then .raise else .repeated) (max i.cls v.cls) up v.injected v.ctx)

/-- Verdicts of one instant in the order of R510: descending class, then ascending code value. -/
def insertVerdict (v : Verdict) : List Verdict → List Verdict
  | [] => [v]
  | w :: ws =>
    if w.cls < v.cls ∨ (w.cls = v.cls ∧ v.code.code < w.code.code) then v :: w :: ws else w :: insertVerdict v ws

/-- The strongest action of a list on each channel (R510). -/
def strongest (c : Ch) (xs : List (Ch × ClassAction)) : Option ClassAction :=
  let mine := xs.filter fun x => x.1 == c
  if mine.any fun x => x.2 == .park then some .park else if mine.isEmpty then none else some .stop

/-- Delivers the waiting verdicts to the fault manager (R502, R510, R511): instances and occurrences, then CASK entry
for a class-3 raise, else the strongest action on each channel; conditions already over cease. A class-3 fault and
F.OVERTEMP end a calibration (R381). -/
def Node.deliverVerdicts (n : Node) : Node :=
  let vs := n.core.faults.verdicts.foldl (fun a v => insertVerdict v a) []
  let n := n.modFaults fun x => { x with verdicts := [] }
  let r := vs.foldl (fun (a : List Verdict × Node) v => let x := a.2.raise v; (if x.1 then a.1 ++ [v] else a.1, x.2)) ([], n)
  let n := r.2
  let acts := (r.1.filter fun v => v.cls == 2).flatMap fun v => n.reach v.code v.scope v.ctx
  let n := if vs.any fun v => v.cls == 3 || (v.code == .overtemp && v.cls != 0) then n.calAbort else n
  let n :=
    if r.1.any fun v => v.cls == 3 then n.caskEntry
    else eachCh (fun c m => match strongest c acts with
      | some a => m.runAction c a
      | none => m) n
  eachOf (vs.filter fun v => v.ceased) (fun v m => m.cease v.code v.scope) n

end Sys2Proof.Machine
end

