-- ==== Sys2Proof/Machine/Params.lean ====
section
/-!
DEFINITION. Parameters: the values of Read only items, the judgement of writes with every item of a packet applied
(17_opcode_reference.md R570 to R572 and the checks the chapters set: R127, R129, R161 to R164, R183, R193, R197, R198,
R210, R288, R289, R327, R330, R334, R335, R340, R369, R418, R422), and the loading of a configuration (R540).
-/
namespace Sys2Proof.Machine

/-! ### Values -/

/-- A shadow as LINE.SHUP and LINE.SHDN read (R440). -/
def shadowWord (s : Option Shadow) : Word :=
  match s with
  | none => 0
  | some x => wN (x.ownerPos.toNat + 1024 + x.generation.toNat % 2 ^ 29 * 2048)

/-- The current stored configuration: the slot of the higher generation (R538, R539). -/
def Store.current (s : Store) : Config := if s.configs.a.generation < s.configs.b.generation then s.configs.b else s.configs.a

/-- The previous stored configuration. -/
def Store.previous (s : Store) : Config := if s.configs.a.generation < s.configs.b.generation then s.configs.a else s.configs.b

/-- The present hop count, 0 before one is known (R440). -/
def Node.hopCount (n : Node) : Nat := n.line.hops.getD 0

/-- The lock state reported: the outcome of the latest roll call, else BLANK where no lock is stored, else LOCKED_OK (R430). -/
def Node.lockState (n : Node) : Nat :=
  match n.line.outcome with
  | some o => o
  | none => if n.line.lock.isSome then 1 else 0

/-- `N` of the latest roll call. -/
def Node.nodeCount (n : Node) : Nat := n.line.count

/-- t_min of R422 for given LINE.OUTLEN and LINE.CMDBYTES, exactly: a numerator in ps and its denominator. t_hop is that of the latest
roll call. -/
def Node.minCycleAt (n : Node) (outlen cmd : Nat) : Nat × Nat :=
  let count := n.nodeCount
  let known := decide (1 < count) && decide (n.line.rollRt0 ≠ 0)
  let den := if known then count - 1 else 1
  let hops := if known then count * n.line.rollRt0 else 2 * count * 480000
  let cars := n.line.roll.foldl (fun a r => a + r.carLen) 0
  let o := 16 + (count - 1) * outlen + cmd
  let f := if cmd = 0 then 3 else 4
  (hops + den * (80000 * (cars + o + 96 * f) + 25000000), den)

/-- The smallest whole number of ns that is no shorter than t_min: what a cycle length is compared with (R422). -/
def Node.minCycle (n : Node) (outlen cmd : Nat) : Nat :=
  let x := n.minCycleAt outlen cmd
  ceilDiv x.1 (1000 * x.2)

/-- t_min of the items in force in units of `unit` ns, rounded (R10, R422, R434). -/
def Node.minCycleIn (n : Node) (unit : Nat) : Nat :=
  let x := n.minCycleAt (n.parN Pid.lineOutlen 0) (n.parN Pid.lineCmdbytes 0)
  (roundDiv (x.1 : Int) (1000 * unit * x.2 : Nat)).toNat

/-- DAC.STATUS of an output (R366). -/
def Node.dacStatus (n : Node) (c : Ch) : Word :=
  let o := n.core.outs.get c
  wN (flag o.currentLimit 0 + flag o.complianceLost 1 + flag (o.cleared || o.clearShown) 2 + flag (n.pin c).isNone 3 +
    flag ((n.playOn c).any fun p => p.running) 4 + flag o.railShort 5)

/-- Wave samples in no table (R366). -/
def Waves.free (w : Waves) : Nat := 16384 - w.tables.foldl (fun a t => if t.state = .free then a else a + t.len) 0

/-- Code of a table state (R366). -/
def TableState.code : TableState → Nat
  | .free => 0
  | .filling => 1
  | .loaded => 2

/-- Whether a table is persisted (R349). -/
def Node.persisted (n : Node) (t : Nat) : Bool := n.store.tables.any fun x => x.table == t

/-- The mask of persisted tables (R349). -/
def Node.persistMask (n : Node) : Nat := ((List.range 16).filter n.persisted).foldl (fun a t => a + 2 ^ t) 0

/-- Free bytes of the receive buffer (R588). -/
def HostPort.rxFree (h : HostPort) : Nat := 4096 - h.rx.foldl (fun a p => a + p.length) 0

/-- Whether the node originates frames: the head, or a heading tail head (R403, R453). -/
def Node.heading (n : Node) : Bool := n.line.role == .head || n.line.heading

/-- Bytes of the line queue in use (R591): destination, length and packet of each entry. -/
def HostPort.lineUsed (h : HostPort) : Nat := h.lineQueue.foldl (fun a e => a + 2 + e.2.length) 0

/-- The value of a Read only item of a channel-like instance; none for an item that is stored. -/
def Node.readOnlyCh (n : Node) (base : Nat) (c : Ch) : Option Word :=
  let f := n.core.fronts.get c
  let s := n.core.slots.get c
  let o := n.core.outs.get c
  let l := (n.core.pos.get c).latch
  if base = Pid.excPhase then some (wI f.exc.phase)
  else if base = Pid.inSsierrcnt then some (wN f.ssi.errCnt)
  else if base = Pid.trkErr then some (fxToP40 f.trk.err)
  else if base = Pid.trkAmpl then some (fxToM40 (fxDiv f.trk.ampl (fxSqrt2 * 1000000)))
  else if base = Pid.trkGbound then some (wI (greenBound n.core.params c.val (n.mode c) f.trk n.p3e))
  else if base = Pid.posIdxcnt then some f.trk.idxCnt
  else if base = Pid.posIdxpos then some (f.trk.idxU.elim 0 (n.p40 c))
  else if base = Pid.posIdxnum then some f.trk.idxNum
  else if base = Pid.posIdxerr then some (satI f.trk.idxErr)
  else if base = Pid.latFill then some (wN (l.fifo.filter LatchEntry.readable).length)
  else if base = Pid.latLost then some l.lost
  else if base = Pid.latReject then some l.reject
  else if base = Pid.hopArmed then some (wN (n.core.hops.filter fun h => h.ch == c).length)
  else if base = Pid.histFill then some (wN (n.core.pos.get c).hist.length)
  else if base = Pid.ctlKind then some (wN (n.kindCode c))
  else if base = Pid.ctlLeader then some (wN (s.leader.getD 255))
  else if base = Pid.ctlRatio then some (if n.kind c = .follower then wI s.ratio else wI 4294967296)
  else if base = Pid.ctlState then some s.stateWord
  else if base = Pid.ctlMisses then some s.misses
  else if base = Pid.ctlFerr then some (fxToP40 s.ep)
  else if base = Pid.ctlY then some (fxToG40 s.y)
  else if base = Pid.prfLappos then some (wI (s.lap.getD 0))
  else if base = Pid.prfSetpos then some (fxToP40 (s.sp.p + auToFx (n.offset c)))
  else if base = Pid.prfSetvel then some (fxToV40 s.sp.v)
  else if base = Pid.prfTarget then some (s.target.elim 0 fun t => fxToP40 (t + auToFx (n.offset c)))
  else if base = Pid.dacGain then some (wN (rangeGain (n.parN Pid.dacRange c.val)))
  else if base = Pid.dacInreg then some (wN o.inreg.toNat)
  else if base = Pid.dacCode then some (wN o.code.toNat)
  else if base = Pid.dacMeas then some o.meas
  else if base = Pid.dacStatus then some (n.dacStatus c)
  else if base = Pid.rtdTemp then some (fxToM40 (n.core.sound.rtds.get c).t)
  else if base = Pid.rtdRes then some (wI (n.core.sound.rtds.get c).r)
  else none

/-- The value of a Read only item of the node; none for an item that is stored. -/
def Node.readOnlyNode (n : Node) (id : Nat) : Option Word :=
  let r := n.core.faults.refs
  let h := r.hist.head?
  let w := n.core.waves
  if id = Pid.nodeCfgfix then some (wN n.core.cfgFix)
  else if id = Pid.refDeva then some (wI (h.elim 0 fun x => x.1))
  else if id = Pid.refDevb then some (wI (h.elim 0 fun x => x.2.1))
  else if id = Pid.refDevab then some (wI (h.elim 0 fun x => x.2.2))
  else if id = Pid.ctlWorst then some n.worstWord
  else if id = Pid.ctlBudget then some (wN (budgetU n.time.rate + (budgetL n.time.rate n.time.outat).toNat * 65536))
  else if id = Pid.dacLdacign then some (wN (n.core.ldacIgn.a % 2 ^ 20 + n.core.ldacIgn.b % 2 ^ 20 * 2 ^ 20))
  else if id = Pid.wavFree then some (wN w.free)
  else if id = Pid.wavPersist then some (wN n.persistMask)
  else if Pid.wavBase0 ≤ id ∧ id < Pid.wavBase0 + 16 then some (wN (w.table (id - Pid.wavBase0)).base)
  else if Pid.wavLen0 ≤ id ∧ id < Pid.wavLen0 + 16 then some (wN (w.table (id - Pid.wavLen0)).len)
  else if Pid.wavState0 ≤ id ∧ id < Pid.wavState0 + 16 then some (wN (w.table (id - Pid.wavState0)).state.code)
  else if id = Pid.fanRpm then some (wN (n.rpm false))
  else if id = pidAt Pid.fanRpm 1 then some (wN (n.rpm true))
  else if id = Pid.lineRole then some (wN n.line.role.code)
  else if id = Pid.lineHops then some (wN n.hopCount)
  else if id = Pid.lineLockpos then some (wN (n.line.lock.elim 0 Prod.fst))
  else if id = Pid.lineLockstate then some (wN n.lockState)
  else if id = Pid.lineMincycle then
    some (if n.line.role = .head then wN (n.minCycleIn 1) else 0)
  else if id = Pid.lineShup then some (shadowWord n.store.shadowUp)
  else if id = Pid.lineShdn then some (shadowWord n.store.shadowDn)
  else if id = Pid.lineCfggen then some (wN n.store.current.generation)
  else if id = Pid.lineFold then
    some (wN (flag n.line.folded 0 + flag n.line.inTail 1 + n.line.tailT % 1024 * 4 + n.line.tailB % 1024 * 4096))
  else if id = Pid.fltTj then some n.core.faults.tj
  else if id = Pid.fltActive then some (wN n.core.faults.insts.length)
  else if id = Pid.fltLogseq then some (wN (n.store.logSeq - 1).toNat)
  else if id = Pid.pitArmed then some (wN (n.core.faults.points.foldl (fun a p => a + 2 ^ p.handle) 0))
  else if id = Pid.tanState then some (wN n.lane.state.code)
  else if id = Pid.tanLanemiss then some (wN n.lane.laneMiss)
  else if id = Pid.tanLanecrc then some (wN n.lane.laneCrc)
  else if id = Pid.hstErrcnt then some (wN n.host.errors.toNat)
  else if id = Pid.hstIrqcause then some (wN ((n.host.causes.toNat / 4) * 4 + flag (!n.host.replies.isEmpty) 0 + flag (!n.host.blocks.isEmpty) 1))
  else if id = Pid.hstIrqmask then some (wN n.host.mask.toNat)
  else if id = Pid.hstRxfree then some (wN n.host.rxFree)
  else if id = Pid.hstReplyfree then some (wN (8192 - replyBytes n.host.replies))
  else if id = Pid.hstLineqfree then some (wN (if n.heading then 16384 - n.host.lineUsed else 0))
  else if id = Pid.hstBlocks then some (wN n.host.blocks.length)
  else none

/-- The value of a defined item (R570): a Read only item from the state it mirrors, every other from the working set. -/
def Node.paramValue (n : Node) (id : Nat) : Word :=
  match n.readOnlyNode id with
  | some w => w
  | none =>
    match (if paramInst id < 4 then n.readOnlyCh (paramBase id) (Fin.ofNat 4 (paramInst id)) else none) with
    | some w => w
    | none => n.core.params.get id

/-! ### Judgement of writes -/

/-- The pair's ID of an item translated to this member (R477): the upper member's channels are instances 4 to 7. -/
def Node.ownId (n : Node) (id : Nat) : Nat := if n.isUpper ∧ 4 ≤ paramInst id then id - 512 else id

/-- Whether an item exists on the channels of the node (R86). -/
def paramOnChannel (id : Nat) : Bool :=
  match paramDesc (paramBase id) with
  | some d => d.count == 4 && !([0x0F, 0x10, 0x11].contains (id / 1024))
  | none => false

/-- The value written to an item as the format gives it: masks and counts are read as signed 40-bit numbers (R86). -/
def rangeOk (id : Nat) (v : Word) : Bool :=
  match paramDesc id with
  | some d => d.range.ok v.toInt
  | none => false

/-- Check 9 of a list of items (R571): the index of the first ID that is undefined, Read only or listed twice. -/
def itemsLayout : List (Nat × Word) → List Nat → Nat → Option Nat
  | [], _, _ => none
  | (id, _) :: rest, seen, i =>
    let ok := match paramDesc id with
      | some d => d.write != .readOnly
      | none => false
    if !ok || seen.contains id then some i else itemsLayout rest (id :: seen) (i + 1)

/-- Check 10 of a list of items (R571): the index of the first value outside its fixed range. -/
def itemsRange : List (Nat × Word) → Nat → Option Nat
  | [], _ => none
  | (id, v) :: rest, i => if rangeOk id v then itemsRange rest (i + 1) else some i

/-- Whether a write rule allows a write now (R129, R192, R330); POS.OFFSET only while the loop does not run (R210). -/
def Node.ruleOk (n : Node) (id : Nat) : Bool :=
  let idle := !n.slotRunning (Fin.ofNat 4 (paramInst id))
  if paramBase id = Pid.posOffset then idle else
  match paramDesc id with
  | none => false
  | some d => match d.write with
    | .any => true
    | .cask => n.core.mode == .cask
    | .caskTrack => n.core.mode == .cask || n.core.mode == .track
    | .idle => idle
    | .readOnly => false

/-- Whether a client may write to a channel (R68, R70). -/
def Node.mayWrite (n : Node) (cl : Client) (c : Ch) : Bool :=
  let s := n.core.slots.get c
  cl.isL || !n.driving || !s.enabled || (match cl with
    | .line i => s.owner == some i
    | .ctxL => true)

/-- The excitation of a channel is consistent (R158, R161, R162). -/
def excOk (ps : ParamMem) (hz c : Nat) : Bool :=
  let a := ps.nat Pid.excAmpl c
  let g := ps.nat Pid.excBufgain c
  ps.nat Pid.excFreq c % (hz / 8) == 0 &&
    (if ps.nat Pid.excBuffer c = 1 then decide (g ≤ a) && decide (a ≤ 25 * g) else decide (a ≤ 40))

/-- IN.NOMAMP lies in the band of the PGA (R164). -/
def pgaOk (ps : ParamMem) (c : Nat) : Bool :=
  let p := ps.nat Pid.inPga c
  let a := ps.nat Pid.inNomamp c
  decide (2000 ≤ a * p) && decide (a * p ≤ 4000)

/-- The SSI layout of a channel is consistent (R183, R193). -/
def ssiOk (ps : ParamMem) (c : Nat) : Bool :=
  let clk := ps.nat Pid.inSsiclk c
  let bits := ps.nat Pid.inSsibits c
  let p := ps.nat Pid.inSsipos c
  let w := ps.nat Pid.inSsiposw c
  let cw := ps.nat Pid.inSsicrcw c
  let cp := ps.nat Pid.inSsicrcpos c
  let e := ps.nat Pid.inSsierrpos c
  let meets := fun (a la b lb : Nat) => decide (a < b + lb) && decide (b < a + la)
  clk != 0 && 100000000 % max clk 1 == 0 && decide (p + w ≤ bits + 1) &&
    (cw == 0 || (decide (cp + cw ≤ bits + 1) && !meets p w cp cw)) &&
    (e == 0 || (decide (e ≤ bits) && !meets p w e 1)) &&
    (cw == 0 || e == 0 || decide (e < cp)) &&
    decide (w ≤ ps.nat Pid.inSsist c + 16) &&
    decide (ps.nat Pid.inSsicrcpoly c < 2 ^ cw) && decide (ps.nat Pid.inSsicrcinit c < 2 ^ cw)

/-- The conditions of R127 and R198 on a tick rate that other items meet. -/
def rateOk (ps : ParamMem) (r : TickRate) : Bool :=
  ps.nat Pid.lineCycle 0 % r.ns == 0 &&
    ([0, 1, 2, 3].all fun c => ps.nat Pid.excFreq c % (r.hz / 8) == 0 && decide (ps.nat Pid.trkBw c * 16 ≤ r.hz)) &&
    decide (ps.nat Pid.tickSyncdly 0 + 5 ≤ r.ns) && decide (ps.nat Pid.tickSyncoutw 0 * 2 ≤ r.ns)

/-- D_r of R369, µs. -/
def roundUs (ps : ParamMem) : Nat :=
  let path := fun (b : Nat) => if b < ps.nat Pid.sndPaths 0 then 2 * ps.nat Pid.sndShots b * ps.nat Pid.sndShotgap b else 0
  path 0 + path 1 + 10000 * ([0, 1, 2, 3].filter fun c => ps.nat Pid.rtdEn c == 1).length

/-- The SND items that depend on each other: D_r, and the order of SND.CMIN and SND.CMAX (R369). -/
def soundOk (ps : ParamMem) : Bool :=
  decide (roundUs ps ≤ ps.nat Pid.sndRound 0 * 1000) && decide (ps.int Pid.sndCmin 0 ≤ ps.int Pid.sndCmax 0)

/-- RTD.WARN does not lie above RTD.TRIP (R384). -/
def rtdOk (ps : ParamMem) (c : Nat) : Bool := decide (ps.int Pid.rtdWarn c ≤ ps.int Pid.rtdTrip c)

/-- Bytes of the content of a cyclic record (R418). -/
def recordBytes (ps : ParamMem) : Nat :=
  6 + 6 * maskCount (ps.nat Pid.lineRecch 0) + 5 * maskCount (ps.nat Pid.lineRecvel 0)

/-- The emulation items of a channel fit each other (R288, R289): a ratio of at most one, a source of this node, a phase inside the
period, and a whole number of counts a turn for TURN. -/
def emuItemsOk (ps : ParamMem) (c : Nat) : Bool :=
  let nn := ps.nat Pid.emuN c
  let m := ps.nat Pid.emuM c
  decide (nn ≤ m) && decide (ps.nat Pid.emuSrc c < 4) && decide (ps.nat Pid.emuZphase c < ps.nat Pid.emuZperiod c) &&
    (ps.nat Pid.emuZmode c != 2 || (16777216 * nn) % max m 1 == 0)

/-- The emulation items of a channel (R288, R289): a source of the other member, numbered from 4, is out of range before its own input
kind could be asked. -/
def Node.emuJudge (n : Node) (ps : ParamMem) (c : Nat) : Option Status :=
  let nn := ps.nat Pid.emuN c
  let m := ps.nat Pid.emuM c
  let src0 := ps.nat Pid.emuSrc c
  let src : Ch := Fin.ofNat 4 src0
  if m < nn ∨ 4 ≤ src0 then some .outOfRange
  else if inMode ps src.val = .off then some .refusedUnsafe
  else if (n.core.fronts.get src).unavailable then some .channelUnavailable
  else if emuItemsOk ps c then none else some .outOfRange

/-- The rates a value must fit: the rate in force, or the one the packet writes, and a pending one (R127). -/
def Node.ratesFor (n : Node) (items : List (Nat × Word)) : List TickRate :=
  match items.find? fun e => e.1 == Pid.tickRate with
  | some e => [TickRate.ofKhz e.2.toNat]
  | none => n.time.rate :: (match n.time.pendingRate with
    | some p => [p.1]
    | none => [])

/-- The output instant for which a packet is judged: the one it writes, the default of a new rate, or the one in force. -/
def Node.outatFor (n : Node) (items : List (Nat × Word)) : Nat :=
  match items.find? fun e => e.1 == Pid.tickOutat with
  | some e => e.2.toNat
  | none => match items.find? fun e => e.1 == Pid.tickRate with
    | some e => (TickRate.ofKhz e.2.toNat).outDefault
    | none => n.time.outat

/-- The slots as admission sees them with the items of a packet applied. -/
def Node.slotCostsWith (n : Node) (ps : ParamMem) : List SlotCost :=
  [0, 1, 2, 3].map fun (c : Ch) =>
    { enabled := (n.core.slots.get c).enabled, div := ps.nat Pid.ctlOutdiv c.val, phase := ps.nat Pid.ctlOutphase c.val
      ramp := ps.nat Pid.prfShape c.val == 1
      kind := match n.kind c with
        | .leader => .leader
        | .follower => .follower
        | _ => if ps.nat Pid.ctlKind c.val = 1 then .position else .velocity }

/-- The checks of one item of a packet that depend on other items or on node state (R571): the status, and the budget
words of R327. -/
def Node.itemJudge (n : Node) (ps : ParamMem) (items : List (Nat × Word)) (id : Nat) (v : Word) :
    Option (Status × List Word) :=
  let base := paramBase id
  let c := paramInst id
  let ch : Ch := Fin.ofNat 4 c
  let range := fun (ok : Bool) => if ok then none else some (Status.outOfRange, ([] : List Word))
  let rates := n.ratesFor items
  let budget :=
    let r := rates.headD n.time.rate
    (admission (n.slotCostsWith ps) n.crossTerms r (n.outatFor items)).map fun w => (Status.overBudget, w)
  let unsafeIf := fun (b : Bool) => if b then some (Status.refusedUnsafe, ([] : List Word)) else none
  let limits := fun (r : TickRate) => decide (n.outatFor items ≤ r.outMax)
  let blk := id / 1024
  if base = Pid.tickRate then
    if n.time.pendingRate.isSome then some (.busy, [])
    else (range (rateOk ps (TickRate.ofKhz v.toNat))).or budget
  else if base = Pid.tickOutat then (range (rates.all limits)).or budget
  else if base = Pid.tickSyncdly then range (rates.all fun r => decide (v.toNat + 5 ≤ r.ns))
  else if base = Pid.tickSyncoutw then range (rates.all fun r => decide (v.toNat * 2 ≤ r.ns))
  else if blk = 0x04 then range (rates.all fun r => excOk ps r.hz c)
  else if base = Pid.inPga ∨ base = Pid.inNomamp then range (pgaOk ps c)
  else if blk = 0x05 then range (ssiOk ps c)
  else if base = Pid.trkBw then range (rates.all fun r => decide (v.toNat * 16 ≤ r.hz))
  else if blk = 0x0A then (n.emuJudge ps c).map fun s => (s, [])
  else if base = Pid.ctlOutphase ∨ base = Pid.ctlOutdiv then
    (range (decide (ps.nat Pid.ctlOutphase c < ps.nat Pid.ctlOutdiv c))).or budget
  else if base = Pid.ctlYmin ∨ base = Pid.ctlYmax then range (decide (ps.int Pid.ctlYmin c ≤ ps.int Pid.ctlYmax c))
  else if base = Pid.ctlKind ∨ base = Pid.prfShape then budget
  else if base = Pid.dacRange then unsafeIf (!railsOk n.power.avddh n.power.avss v.toNat)
  else if base = Pid.dacRef then unsafeIf (v.toNat == 1 && !n.core.faults.refs.fitted)
  else if base = Pid.dacSrc then
    (unsafeIf (n.core.slots.get ch).enabled).or (if (n.playOn ch).isSome then some (.busy, []) else none)
  else if blk = 0x0F ∨ blk = 0x10 then range (soundOk ps && rtdOk ps c)
  else if base = Pid.fanTlo ∨ base = Pid.fanThi then range (decide (ps.int Pid.fanTlo c < ps.int Pid.fanThi c))
  else if base = Pid.lineReclen ∨ base = Pid.lineRecch ∨ base = Pid.lineRecvel then
    range (decide (recordBytes ps ≤ ps.nat Pid.lineReclen 0))
  else if base = Pid.lineCycle ∨ base = Pid.lineOutlen ∨ base = Pid.lineCmdbytes then
    range (n.line.role != .head ||
      decide (n.minCycle (ps.nat Pid.lineOutlen 0) (ps.nat Pid.lineCmdbytes 0) ≤ ps.nat Pid.lineCycle 0))
  else none

/-- Whether a check that failed is one between items, not one of node state (R571). -/
def crossItem (id : Nat) (s : Status) : Bool :=
  !([Pid.dacRange, Pid.dacRef, Pid.dacSrc].contains (paramBase id) || s == .busy || s == .channelUnavailable)

/-- Finds the first item of a packet, with its index, for which a judgement gives something. -/
def firstItem {α : Type} (f : Nat → Word → Option α) : List (Nat × Word) → Nat → Option (Nat × α)
  | [], _ => none
  | (id, v) :: rest, i =>
    match f id v with
    | some x => some (i, x)
    | none => firstItem f rest (i + 1)

/-- The judgement of a packet of items at its commit (R251, R571): none when every check passes, else the status and the
reply words. The Write column comes first, then ownership, then the checks between items. -/
def Node.judgeItems (n : Node) (cl : Client) (items : List (Nat × Word)) : Option (Status × List Word) :=
  let ps := n.core.params.putAll items
  match firstItem (fun id _ => if n.ruleOk id then none else some ()) items 0 with
  | some (i, _) => some (.wrongMode, [wN i])
  | none =>
    match firstItem (fun id _ =>
        if paramOnChannel id && !n.mayWrite cl (Fin.ofNat 4 (paramInst id)) then some () else none) items 0 with
    | some (i, _) => some (.notOwner, [wN i])
    | none =>
      match firstItem (n.itemJudge ps items) items 0 with
      | some (i, s, ws) => some (s, wN (i + (if crossItem ((items.getD i (0, 0)).1) s then 128 else 0)) :: ws)
      | none => none

/-! ### Loading a configuration (R540) -/

/-- The checks between items that a loaded set must pass, in ascending ID order, each with the block instance it
constrains and the block instances it involves besides (R540). -/
def loadChecks (ps : ParamMem) : List (Bool × List (Nat × Nat) × List (Nat × Nat)) :=
  let r := TickRate.ofKhz (ps.nat Pid.tickRate 0)
  let chs := [0, 1, 2, 3]
  [(decide (ps.nat Pid.tickOutat 0 ≤ r.outMax) && decide (ps.nat Pid.tickSyncdly 0 + 5 ≤ r.ns) &&
      decide (ps.nat Pid.tickSyncoutw 0 * 2 ≤ r.ns), [(0x02, 0)], []),
   (soundOk ps, [(0x0F, 0)], [(0x0F, 1), (0x10, 0), (0x10, 1), (0x10, 2), (0x10, 3)]),
   (decide (recordBytes ps ≤ ps.nat Pid.lineReclen 0), [(0x12, 0)], []),
   (ps.nat Pid.lineCycle 0 % r.ns == 0, [(0x12, 0)], [(0x02, 0)])] ++
  chs.map (fun c => (excOk ps r.hz c, [(0x04, c)], [(0x02, 0)])) ++
  chs.map (fun c => (pgaOk ps c && ssiOk ps c, [(0x05, c)], [])) ++
  chs.map (fun c => (decide (ps.nat Pid.trkBw c * 16 ≤ r.hz), [(0x06, c)], [(0x02, 0)])) ++
  chs.map (fun c => (emuItemsOk ps c, [(0x0A, c)], [(0x05, ps.nat Pid.emuSrc c)])) ++
  chs.map (fun c => (decide (ps.nat Pid.ctlOutphase c < ps.nat Pid.ctlOutdiv c) &&
    decide (ps.int Pid.ctlYmin c ≤ ps.int Pid.ctlYmax c), [(0x0B, c)], [])) ++
  chs.map (fun c => (rtdOk ps c, [(0x10, c)], [])) ++
  [0, 1].map (fun c => (decide (ps.int Pid.fanTlo c < ps.int Pid.fanThi c), [(0x11, c)], []))

/-- Gives the items of block instances their After Steep values: an entry of the working set is dropped. -/
def dropBlocks (bs : List (Nat × Nat)) (ps : ParamMem) : ParamMem :=
  ps.filter fun e => !(bs.contains (e.1 / 1024, paramInst e.1))

/-- Judges the checks of a loaded set until none fails (R540): first the constrained instance falls back, then the
others the check involves. The second part lists the instances that fell back. -/
def settleLoad : Nat → ParamMem × List (Nat × Nat) → ParamMem × List (Nat × Nat)
  | 0, x => x
  | f + 1, (ps, gone) =>
    match (loadChecks ps).find? fun x => !x.1 with
    | none => (ps, gone)
    | some (_, own, others) =>
      let p1 := dropBlocks own ps
      settleLoad f (if p1 = ps then (dropBlocks others ps, gone ++ own ++ others) else (p1, gone ++ own))

/-- Loads a configuration's records (R540): the working set, and how many records were skipped or replaced; every record of an instance
that fell back is replaced. -/
def loadRecords (rs : List (Nat × Word)) : ParamMem × Nat :=
  let good := rs.filter fun e => (match paramDesc e.1 with
    | some d => d.write != .readOnly
    | none => false) && rangeOk e.1 e.2
  let ps := ParamMem.putAll [] good
  let r := settleLoad 64 (ps, [])
  (r.1, (rs.length - good.length) + (good.filter fun e => r.2.contains (e.1 / 1024, paramInst e.1)).length)

/-- Every writable item of the node, by ID. -/
def writableIds : List Nat :=
  paramAll.flatMap fun d => if d.write == .readOnly then [] else (List.range d.count).map fun i => pidAt d.id i

/-- The records of a configuration: the value of every writable item on every instance (R538), in ascending ID. -/
def Node.records (n : Node) : List (Nat × Word) :=
  (sortInts (writableIds.map Int.ofNat)).map fun i => (i.toNat, n.core.params.get i.toNat)

end Sys2Proof.Machine
end

