-- ==== Sys2Proof/Machine/Layout.lean ====
section
/-!
DEFINITION. Command packets as bytes, and what the checks on arrival ask of an opcode: its word count (check 8), its
layout (check 9) and its fixed ranges (check 10) (02_commands_and_clients.md R48 to R53, R58; 17_opcode_reference.md
R557 to R578 and the layouts the chapters give).
-/
namespace Sys2Proof.Machine

/-! ### Bytes -/

/-- H0 of a packet (R49). -/
def packetH0 (p : Packet) : Nat :=
  p.opcode.toNat * 2 ^ 32 + p.client.toNat * 2 ^ 24 + p.tag.toNat * 2 ^ 12 + flag p.greenOk 11 + flag p.finalOnly 10 +
    flag p.mac.isSome 9 + flag p.scheduled 8 + p.mask.toNat

/-- H0 and the first three bytes of H1 (R49). -/
def packetHead (p : Packet) : List Byte := bytesBE 5 (packetH0 p) ++ bytesBE 2 p.tick.toNat ++ bytesBE 1 p.words.length

/-- The parameter bytes of a packet (R48). -/
def packetParams (p : Packet) : List Byte := p.words.flatMap wordBytes

/-- The header with its check, and the parameter bytes: what the MAC covers after the nonce (R50, R67). -/
def packetBody (p : Packet) : List Byte :=
  packetHead p ++ bytesBE 2 (crc16 (packetHead p ++ packetParams p)) ++ packetParams p

/-- The bytes of a packet (R48 to R51). -/
def packetBytes (p : Packet) : List Byte := packetBody p ++ (match p.mac with
  | some m => bytesBE 4 m.toNat
  | none => [])

/-- Words of five bytes each, as many as are whole. -/
def unpackWords : Nat → List Byte → List Word
  | 0, _ => []
  | f + 1, bs => if bs.length < 5 then [] else wN (natBE (bs.take 5)) :: unpackWords f (bs.drop 5)

/-- A packet read from bytes with check 1 (R50): none where the check fails or the header is cut; the Boolean says whether
the byte length agrees with the word count and with AUTH (check 2). -/
def packetOfBytes (port : PacketPort) (bs : List Byte) : Option (Packet × Bool) :=
  if bs.length < 10 then none else
  let h0 := natBE (bs.take 5)
  let rest := bs.drop 10
  let auth := h0.testBit 9
  let params := if auth then rest.take (rest.length - 4) else rest
  let count := natBE ((bs.drop 7).take 1)
  if crc16 (bs.take 8 ++ params) ≠ natBE ((bs.drop 8).take 2) then none else
  let ok := decide (count ≤ 250) && decide (params.length = 5 * count) && (!auth || decide (4 ≤ rest.length))
  some
    ({ port := port, opcode := BitVec.ofNat 8 (h0 / 2 ^ 32), client := BitVec.ofNat 8 (h0 / 2 ^ 24)
       tag := BitVec.ofNat 12 (h0 / 2 ^ 12), greenOk := h0.testBit 11, finalOnly := h0.testBit 10, scheduled := h0.testBit 8
       mask := BitVec.ofNat 8 h0, tick := BitVec.ofNat 16 (natBE ((bs.drop 5).take 2)), words := unpackWords count params
       mac := if auth then some (BitVec.ofNat 32 (natBE (rest.drop (rest.length - 4)))) else none }, ok)

/-! ### Operands -/

/-- Word `i` of a packet, 0 where it is not there. -/
def pw (p : Packet) (i : Nat) : Word := p.words.getD i 0

/-- The ID and value pairs of PARAM_WRITE and SOUND_CONFIG (R571). -/
def itemPairs : List Word → List (Nat × Word)
  | a :: b :: rest => (fld a 15 0, b) :: itemPairs rest
  | _ => []

/-- Channels of this node that a packet's mask names: on the upper member of a pair its bits 4 to 7 (R477). -/
def Node.maskOf (n : Node) (p : Packet) : Nat := if n.isUpper then p.mask.toNat / 16 else p.mask.toNat % 16

/-- The channels of this node that a packet names, in ascending order. -/
def Node.chans (n : Node) (p : Packet) : List Ch := maskChs (n.maskOf p)

/-- The channel of a packet that names one. -/
def Node.chan (n : Node) (p : Packet) : Ch := (n.chans p).headD 0

/-- An ID in a pair's numbering is translated to the member that holds it (R86, R477): instances 4 to 7 of per-channel
blocks name the upper member's. -/
def Node.localId (n : Node) (id : Nat) : Nat :=
  if n.core.mode == .tandem && decide (4 ≤ paramInst id) && paramOnChannel (id - 512) then id - 512 else id

/-- Whether an ID names the upper member's channels (R572). -/
def Node.idOfUpper (n : Node) (id : Nat) : Bool := n.localId id != id

/-- Whether an ID passes R86. -/
def Node.idDefined (n : Node) (id : Nat) : Bool := (paramDesc (n.localId id)).isSome

/-! ### Check 8 -/

/-- The word count suits the opcode (R557 and the counts the layouts set). -/
def wordsFit (op : Opcode) (p : Packet) : Bool :=
  let n := p.words.length
  let w := pw p 0
  match op with
  | .ping => n ≤ 250
  | .subscribe => if fld w 1 0 = 3 then n == 1 else decide (1 ≤ n) && decide (n ≤ 250)
  | .keySet => if fld w 0 0 = 0 then n == 5 else n == 1
  | .paramRead => decide (1 ≤ n) && decide (n ≤ 250)
  | .paramWrite | .soundConfig => decide (2 ≤ n) && decide (n ≤ 250) && n % 2 == 0
  | .calibrateAngle => if fld w 1 0 = 1 then n == 129 else n == 1
  | .extrapolate => if fld w 1 0 = 2 then n == 5 else n == 3
  | .historyRead => n == 3
  | .setLimits | .gainSet | .dacConfig => n == 4
  | .cascadeSet => n == 1 + maskCount (fld w 7 0)
  | .hopAdd => n % 4 == 0 && decide (4 ≤ n) && decide (n ≤ 248)
  | .hopRemove => if fld w 1 0 = 0 then decide (1 ≤ n) && decide (n ≤ 250) else n == 1
  | .emuSet => n == 5
  | .dacWrite => n == maskCount p.mask.toNat && decide (1 ≤ n) && decide (n ≤ 4)
  | .waveLoad => if fld w 5 4 = 1 then n == ceilDiv (fld w 36 22) 2 + 1 && decide (n ≤ 250) else n == 1
  | .wavePlay => if bitOf w 29 then n == 4 else n == 2
  | .rollcall => if fld w 1 0 = 1 then n == 2 else n == 1
  | .pitchArm | .storeRead => n == 2
  | .fwBlock => n == 1 + ceilDiv (fld w 29 19) 5 && decide (3 ≤ n) && decide (n ≤ 249)
  | .openSession | .replay | .setMode | .clearFaults | .setPosition | .moveTo | .moveBy | .jog | .loopEnable | .latchArm
  | .latchRead | .dacStrobe | .zeroFlowCal | .fanSet | .relock | .adopt | .unfold | .faultLog | .pitchDisarm | .fwBegin
  | .tandemForm => n == 1
  | .closeSession | .describe | .steepRun | .status | .tickRealign | .paramSave | .paramRestore | .paramDefaults
  | .readPosition | .stop | .park | .hopList | .waveStop | .soundRead | .rtdRead | .fanRead | .fold | .lineStats
  | .timeRead | .faultRead | .refStatus | .tickStats | .fwCommit | .fwActivate | .tandemSplit | .tandemStatus => n == 0

/-! ### Check 9 -/

/-- Opcodes that may name channels of both members (R480). -/
def Opcode.twoParts : Opcode → Bool
  | .stop | .park | .clearFaults => true
  | _ => false

/-- The mask suits the opcode and names channels that exist (R53, R480, R493, R558). -/
def Node.maskFits (n : Node) (op : Opcode) (p : Packet) : Bool :=
  let m := p.mask.toNat
  let hi := decide (16 ≤ m)
  let lo := m % 16 != 0
  let pair := n.core.mode == .tandem || (n.lane.survivor && n.lane.isLower)
  (!hi || pair) && !(hi && lo && !op.twoParts) &&
  match op.maskKind with
  | .node => m == 0
  | .one => maskCount m == 1
  | .many => m != 0
  | .zeroOrMany => true

/-- Bits `[hi:lo]` of a word are zero. -/
def zeros (w : Word) (hi lo : Nat) : Bool := fld w hi lo == 0

/-- Every word after the first `k` satisfies a test. -/
def restAll (p : Packet) (k : Nat) (f : Word → Bool) : Bool := (p.words.drop k).all f

/-- The layout of one hop descriptor (R272). -/
def hopLayout (w2 : Word) : Bool := fld w2 39 38 != 3 && (fld w2 34 33 == 0 || fld w2 27 0 == 0)

/-- The descriptors of HOP_ADD, four words each. -/
def hopWords : List Word → List (Word × Word × Word × Word)
  | a :: b :: c :: d :: rest => (a, b, c, d) :: hopWords rest
  | _ => []

/-- The first ID word that fails (R570): reserved bits, R86, or an ID of the other member than the first's. -/
def Node.idsLayout (n : Node) (upper : Bool) : List Word → Nat → Option Nat
  | [], _ => none
  | w :: ws, i =>
    if zeros w 39 16 && n.idDefined (fld w 15 0) && n.idOfUpper (fld w 15 0) == upper then n.idsLayout upper ws (i + 1) else some i

/-- An item with its value in the numbering of the member that holds it: in TANDEM a source of emulation is named in the pair's
numbering (R53, R289), and here 0 to 3 are the member's own channels and 4 to 7 those of the other member (DESIGN CHOICE, log
entry 109). -/
def Node.localItem (n : Node) (e : Nat × Word) : Nat × Word :=
  if n.isUpper && paramBase e.1 == Pid.emuSrc && decide (e.2.toNat < 8) then (e.1, wN ((e.2.toNat + 4) % 8)) else e

/-- The items of a write in the numbering of the member that holds them. -/
def Node.localItems (n : Node) (p : Packet) : List (Nat × Word) :=
  (itemPairs p.words).map fun e => n.localItem (n.localId e.1, e.2)

/-- The items that check 10 judges by their fixed ranges: in TANDEM a source of either member is in range, and the commit tick judges
which member's it is (R58, R289, R290). -/
def Node.rangeItems (n : Node) (items : List (Nat × Word)) : List (Nat × Word) :=
  items.map fun e =>
    if n.core.mode == .tandem && paramBase e.1 == Pid.emuSrc && decide (e.2.toNat < 8) then (e.1, wN (e.2.toNat % 4)) else e

/-- Whether a value keeps to its layout: the reserved bits of a C18 value, which only DAC.CLRCODE and CTL.OUTZERO have, are zero
(R12), and a value that names channels names channels 4 to 7 only in TANDEM (R53). -/
def valueLayout (pair : Bool) (id : Nat) (v : Word) : Bool :=
  let base := paramBase id
  if base == Pid.dacClrcode || base == Pid.ctlOutzero then zeros v 39 18
  else if base == Pid.emuSrc then pair || !(decide (4 ≤ v.toNat) && decide (v.toNat < 8))
  else if base == Pid.fanDepends || base == Pid.refTdepends then pair || zeros v 7 4
  else true

/-- The first item of a write that fails check 9 (R571, R572). -/
def Node.writeLayout (n : Node) (p : Packet) : Option Nat :=
  let ids := (p.words.zipIdx.filter fun e => e.2 % 2 == 0).map Prod.fst
  let items := n.localItems p
  let a := n.idsLayout (n.idOfUpper (fld (pw p 0) 15 0)) ids 0
  let b := itemsLayout items [] 0
  let c := (items.findIdx? fun e => !valueLayout (n.core.mode == .tandem) e.1 e.2)
  [a, b, c].foldl (fun m x => match m, x with
    | some i, some j => some (min i j)
    | some i, none => some i
    | none, y => y) none

/-- The failure bits of the Steep word (R112). -/
def steepFailureBits : List Nat := [0, 1, 2, 3, 4, 5, 6, 7, 8, 9, 10, 11, 12, 13, 14, 15, 16, 19, 20, 21, 23, 26, 27]

/-- A PITCH_ARM scope suits its code (R53, R530). -/
def scopeFits (pair : Bool) (f : FaultCode) (scope : Nat) : Bool :=
  let ch := decide (scope < 4) || (pair && decide (scope < 8))
  match f with
  | .steep => steepFailureBits.contains scope
  | .rtdOpen | .rtdShort | .rtdHot => ch || scope == 0xFF
  | _ => if f.channelScope then ch else scope == 0xFF

/-- The layout of CALIBRATE_ANGLE to PITCH_DISARM and the other fixed layouts: reserved bits and reserved codes (R12, R58). -/
def Node.wordsLayout (n : Node) (op : Opcode) (p : Packet) : Bool :=
  let w := pw p 0
  let w1 := pw p 1
  let w2 := pw p 2
  let w3 := pw p 3
  let hiCh := n.core.mode == .tandem
  match op with
  | .openSession => zeros w 39 2
  | .subscribe => zeros w 39 2 && restAll p 1 fun x => zeros x 39 16 && (EventCode.ofCode (fld x 15 0)).isSome
  | .replay => zeros w 39 13
  | .keySet => zeros w 39 1 && restAll p 1 fun x => zeros x 39 32
  | .setMode => zeros w 39 2
  | .clearFaults => zeros w 39 17 && (fld w 15 0 == 0 || (FaultCode.ofCode (fld w 15 0)).isSome)
  | .calibrateAngle => zeros w 39 2 && restAll p 1 fun x => zeros x 39 32
  | .extrapolate =>
    fld w 1 0 != 3 && fld w 3 2 != 3 && zeros w 39 4 && zeros w1 39 24 &&
      (fld w 1 0 != 2 || (zeros (pw p 4) 39 19 && decide (fld (pw p 4) 1 0 ≤ 1)))
  | .historyRead => zeros w 39 12 && zeros w1 39 24
  | .loopEnable => zeros w 39 1
  | .cascadeSet => zeros w 39 8 && (hiCh || zeros w 7 4)
  | .latchArm =>
    fld w 2 1 != 3 && zeros w 39 21 && (fld w 4 3 == 2 || zeros w 20 5)
  | .latchRead => zeros w 39 8
  | .hopAdd => (hopWords p.words).all fun e => hopLayout e.2.2.1
  | .hopRemove =>
    match fld w 1 0 with
    | 0 => zeros w 39 2 && p.mask == 0 && restAll p 1 fun x => zeros x 39 24
    | 1 => zeros w 39 2 && p.mask != 0
    | 2 => zeros w 39 5 && p.mask != 0
    | _ => false
  | .emuSet => zeros w 39 8 && (hiCh || decide (fld w 3 1 < 4)) && restAll p 1 fun x => zeros x 39 24
  | .dacConfig =>
    zeros w 39 10 && zeros w1 39 13 && zeros w2 39 18 && zeros w3 39 27 &&
      (bitOf w 0 || zeros w1 2 0) && (bitOf w 1 || zeros w1 3 3) && (bitOf w 2 || zeros w1 5 4) &&
      (bitOf w 3 || zeros w1 6 6) && (bitOf w 4 || zeros w1 7 7) && (bitOf w 5 || zeros w2 17 0) &&
      (bitOf w 6 || zeros w1 8 8) && (bitOf w 7 || zeros w3 16 0) && (bitOf w 8 || zeros w3 26 17) &&
      (bitOf w 9 || zeros w1 12 9)
  | .dacWrite => restAll p 0 fun x => zeros x 39 18
  | .dacStrobe => zeros w 39 2 && fld w 1 0 != 0
  | .waveLoad =>
    zeros w 7 7 && zeros w 39 37 && (fld w 5 4 == 0 || zeros w 6 6) && (decide (fld w 5 4 ≤ 1) || zeros w 36 8) &&
      restAll p 1 (fun x => zeros x 39 36) &&
      (fld w 5 4 != 1 || fld w 36 22 % 2 == 0 || zeros (pw p (p.words.length - 1)) 35 18)
  | .wavePlay =>
    zeros w 39 30 && fld w 5 4 != 3 && fld w 23 22 != 3 && (fld w 5 4 == 2 || zeros w 21 6) &&
      (if bitOf w 29 then zeros w2 39 24 else zeros w1 39 17)
  | .zeroFlowCal => zeros w 39 2
  | .fanSet => zeros w 39 14 && fld w 1 0 != 0
  | .rollcall => zeros w 39 2 && decide (fld w 1 0 ≤ 1) && (fld w 1 0 == 0 || w1 != 0)
  | .relock => zeros w 39 10
  | .adopt => zeros w 39 12 && fld w 11 10 != 3
  | .unfold => zeros w 39 32
  | .faultLog => zeros w 39 26
  | .pitchArm =>
    zeros w 39 26 && fld w 25 24 != 3 && (if fld w 25 24 = 1 then fld w1 15 0 != 0 else zeros w1 15 0) &&
      (match FaultCode.ofCode (fld w 15 0) with
        | none => false
        | some f => scopeFits hiCh f (fld w 23 16))
  | .pitchDisarm => zeros w 39 4
  | .fwBegin => zeros w 39 35
  | .fwBlock => zeros w 39 30
  | .storeRead => zeros w 39 24 && zeros w1 39 11
  | .tandemForm => zeros w 39 10
  | _ => true

/-- Check 9 (R53, R558, R570, R571, R578): none when it passes, else the words of the refusal. -/
def Node.layoutCheck (n : Node) (op : Opcode) (p : Packet) : Option (List Word) :=
  if !n.maskFits op p then some []
  else match op with
  | .paramRead => (n.idsLayout (n.idOfUpper (fld (pw p 0) 15 0)) p.words 0).map fun i => [wN i]
  | .paramWrite => (n.writeLayout p).map fun i => [wN i]
  | .soundConfig =>
    let off := (n.localItems p).findIdx? fun e => !(e.1 / 1024 == 0x0F || e.1 / 1024 == 0x10)
    ((n.writeLayout p).or off).map fun i => [wN i]
  | _ => if n.wordsLayout op p then none else some []

/-! ### Check 10 -/

/-- The items that SET_LIMITS, GAIN_SET, EMU_SET and DAC_CONFIG write on a channel (R303, R308, R576, R577). -/
def opItems (op : Opcode) (p : Packet) (c : Nat) : List (Nat × Word) :=
  let w := pw p 0
  let w1 := pw p 1
  let w2 := pw p 2
  let w3 := pw p 3
  let at_ := fun (id : Nat) (v : Word) => (pidAt id c, v)
  match op with
  | .setLimits => [at_ Pid.prfVmax w, at_ Pid.prfAmax w1, at_ Pid.prfDmax w2, at_ Pid.prfJmax w3]
  | .gainSet => [at_ Pid.ctlKpp w, at_ Pid.ctlKip w1, at_ Pid.ctlKpv w2, at_ Pid.ctlKiv w3]
  | .emuSet =>
    [at_ Pid.emuEn (wN (fld w 0 0)), at_ Pid.emuSrc (wN (fld w 3 1)), at_ Pid.emuZmode (wN (fld w 5 4)), at_ Pid.emuSwap (wN (fld w 6 6)),
     at_ Pid.emuCaskz (wN (fld w 7 7)), at_ Pid.emuN w1, at_ Pid.emuM w2, at_ Pid.emuZperiod w3, at_ Pid.emuZphase (pw p 4)]
  | .dacConfig =>
    let pick := fun (i : Nat) (xs : List (Nat × Word)) => if bitOf w i then xs else []
    pick 0 [at_ Pid.dacRange (wN (fld w1 2 0))] ++ pick 1 [at_ Pid.dacRef (wN (fld w1 3 3))] ++
    pick 2 [at_ Pid.dacSrc (wN (fld w1 5 4))] ++ pick 3 [at_ Pid.dacGroup (wN (fld w1 6 6))] ++
    pick 4 [at_ Pid.dacClren (wN (fld w1 7 7))] ++ pick 5 [at_ Pid.dacClrcode w2] ++ pick 6 [at_ Pid.dacShortact (wN (fld w1 8 8))] ++
    pick 7 [at_ Pid.dacShorttime (wN (fld w3 16 0))] ++ pick 8 [at_ Pid.dacOpentime (wN (fld w3 26 17))] ++
    pick 9 [(Pid.dacStba, wN (fld w1 10 9)), (Pid.dacStbb, wN (fld w1 12 11))]
  | _ => []

/-- The fixed range of one hop descriptor (R272). -/
def hopRange (w1 w2 : Word) : Bool :=
  decide (w1.toNat ≤ 100000000) && w1.toNat % 5 == 0 &&
    (fld w2 34 33 != 0 || (decide (20 ≤ fld w2 27 0) && decide (fld w2 27 0 ≤ 200000000)))

/-- Check 10 less the commit tick (R58): none when every fixed range holds, else the words of the refusal. -/
def Node.rangeCheck (n : Node) (op : Opcode) (p : Packet) : Option (List Word) :=
  let w := pw p 0
  let w1 := pw p 1
  let ok := fun (b : Bool) => if b then none else some ([] : List Word)
  match op with
  | .paramWrite | .soundConfig => (itemsRange (n.rangeItems (n.localItems p)) 0).map fun i => [wN i]
  | .setLimits | .gainSet | .emuSet | .dacConfig => ok ((itemsRange (n.rangeItems (opItems op p 0)) 0).isNone)
  | .extrapolate => ok (fld w 1 0 != 2 || (decide (1 ≤ fld (pw p 4) 18 2) && decide (fld (pw p 4) 18 2 ≤ 60000)))
  | .cascadeSet => ok (restAll p 1 fun x => x != 0 && decide (-(16 * 2 ^ 32) ≤ x.toInt) && decide (x.toInt ≤ 16 * 2 ^ 32))
  | .latchArm => ok (fld w 4 3 != 2 || fld w 20 5 != 0)
  | .latchRead => ok (decide (1 ≤ fld w 6 0) && decide (fld w 6 0 ≤ 64))
  | .hopAdd => ok ((hopWords p.words).all fun e => hopRange e.2.1 e.2.2.1)
  | .waveLoad =>
    ok (match fld w 5 4 with
      | 0 => decide (1 ≤ fld w 36 22) && decide (fld w 36 22 ≤ 16384)
      | 1 => decide (1 ≤ fld w 36 22) && decide (fld w 36 22 ≤ 498)
      | _ => true)
  | .wavePlay =>
    ok ((fld w 5 4 != 2 || decide (2 ≤ fld w 21 6)) &&
      (if bitOf w 29 then decide (2000 ≤ w1.toNat) && decide (w1.toNat ≤ 100000000) && w1.toNat % 5 == 0
       else decide (1 ≤ w1.toNat) && decide (w1.toNat ≤ 65536)))
  | .fanSet => ok (decide (fld w 3 2 ≤ 2) && (fld w 3 2 != 0 || decide (fld w 13 4 ≤ 1000)))
  | .faultLog => ok (decide (1 ≤ fld w 8 0) && decide (fld w 8 0 ≤ 256))
  | .fwBegin => ok (decide (4096 ≤ fld w 18 0) && decide (fld w 18 0 ≤ 262144) && fld w 18 0 % 8 == 0)
  | .fwBlock => ok (fld w 18 0 % 8 == 0 && fld w 29 19 % 8 == 0 && decide (8 ≤ fld w 29 19) && decide (fld w 29 19 ≤ 1240))
  | .storeRead => ok (decide (1 ≤ fld w1 10 0) && decide (fld w1 10 0 ≤ 1240))
  | _ => none

end Sys2Proof.Machine
end

