-- ==== Sys2Proof/Machine/TimeOps.lean ====
section
/-!
DEFINITION. The time base: marks, corrections by slew and step, tick realignments, and the line role that LINE.HEADEN
and the links give (04_frame_tick_and_time.md R130 to R152; 12_grenrus_line.md R403; 18_pins_and_host_port.md R599).
-/
namespace Sys2Proof.Machine

/-- Changes the time base. -/
def Node.modTime (f : TimeBase → TimeBase) (n : Node) : Node := { n with time := f n.time }

/-- Puts a mark in force: every change raises EV.TIME_SOURCE (R618). -/
def Node.setMark (m : TimeMark) (n : Node) : Node :=
  if n.time.mark = m then n else
  let n := n.modTime fun t => { t with mark := m }
  n.event .timeSource 0xFF n.stamp [wN m.code]

/-- A correction to time that lies `off` ns ahead of the time in force (R133, R134): a slew of at most 2,000 ns, else a
step at the next tick multiple. -/
def Node.correct (off : Int) (n : Node) : Node :=
  if off.natAbs ≤ 2000 then
    n.modTime fun t => { t with offsetPs := off * 1000, slewing := decide (5 ≤ off.natAbs), stepDue := none }
  else n.modTime fun t => { t with stepDue := some off, slewing := false, offsetPs := 0 }

/-- The slew of one tick (R133): at most 50 ppm of elapsed time. -/
def slewTick (tickNs : Nat) (off : Int) : Int :=
  let step : Int := tickNs * 1000 * 50 / 1000000
  if off.natAbs ≤ step.natAbs then 0 else if off < 0 then off + step else off - step

/-- The converter as it stood before the step of the tick in progress (R220): the loop, the positions and what they gave. -/
def Trk.undo (b t : Trk) : Trk :=
  { t with
    th := b.th, v := b.v, prev := b.prev, acq := b.acq, held := b.held, coast := b.coast, kil := b.kil, kilBefore := b.kilBefore
    kilTick := b.kil, coasts := b.coasts, valid := b.valid, fresh := false, basis := b.basis
    dir := b.dir, extreme := b.extreme, rs := b.rs, vs := b.vs, kilned := b.kilned, err := b.err, due := none }

/-- The step of a tick whose P0 a realignment has taken coasts in the place of the one that ran there (R219, R220). -/
def coastAgain (ps : ParamMem) (c : Nat) (mode : InMode) (rate : TickRate) (st : Stamp) (f : Front) : Trk :=
  match f.before with
  | some b => if f.trk.running && b.running then (trkStep ps c mode rate { m := 0, clean := false } st false (b.undo f.trk)).1 else f.trk
  | none => f.trk

/-- Restarts the consecutive count of an acquisition (R222). -/
def Acq.restart : Acq → Acq
  | .counting _ => .counting 0
  | a => a

/-- The settle window that a realignment at the instant `now` opens on a channel (R219, R222); where the tick in progress is k0 and
its step has run, `trk` is the converter with that step coasted. -/
def settleFront (mode : InMode) (inTick : Bool) (now : Nat) (mono : Nat) (trk : Trk) (f : Front) : Front :=
  let ended := { f with realignAt := now, sinDec := {}, cosDec := {}, sin := [], cos := [] }
  let t := { trk with acq := trk.acq.restart, due := none }
  match mode with
  | .resolver => { ended with trk := { t with settle := if inTick then 2 else 3, settleEnding := false } }
  | .sincos => { ended with trk := { t with settle := if inTick then 0 else 1, settleEnding := inTick } }
  | .ssi =>
    match f.ssi.reading with
    | some st =>
      if inTick && decide (st.e = now) then ended else
      { ended with ssi := { f.ssi with
          reading := none, readyAt := now + mono, monoAt := none, timedOut := false, skipped := st :: f.ssi.skipped } }
    | none => ended
  | _ => ended

/-- The settle window of a channel at a realignment at this instant (R219 to R222). -/
def Node.settleChannel (inTick : Bool) (c : Ch) (n : Node) : Node :=
  let mode := n.mode c
  let again := inTick && n.core.sampled && (mode == .resolver || mode == .sincos)
  let n := n.emuBasis c
  let n := n.modFront c fun f =>
    let trk := if again then coastAgain n.core.params c.val mode n.time.rate n.p0Stamp f else f.trk
    settleFront mode (inTick && n.core.sampled) n.now (n.parN Pid.inSsimono c.val * 1000) trk f
  n.emuBasis c

/-- The effects of a tick realignment on the counts and the channels (R137, R155, R219): an output instant that has not
run is skipped, unless the realignment is at the P0 of the tick in progress (`inTick`). While the core is down no settle window is added (R141). -/
def Node.realign (inTick : Bool) (n : Node) : Node :=
  let skip := !inTick && !n.time.outDone
  let n := n.modTime fun t =>
    { t with realigns := t.realigns + 1, skipped := if skip then t.skipped + 1 else t.skipped, lastRealign := some n.now }
  if !n.up then n else eachCh (Node.settleChannel inTick) n

/-- The crossing at which a requested stop of the excitation ends it, found anew for the phase taken at a realignment (R160, R163). -/
def Node.restop (c : Ch) (n : Node) : Node :=
  n.modFront c fun f =>
    let stop := f.exc.stopAt.map fun _ => nextCrossing f.exc.freq n.time.k48 n.time.rate n.time.p0e n.now
    { f with exc := { f.exc with stopAt := stop } }

/-- Places a new P0 at this instant with the time in force `lt` (R130, R134, R137, R140, R160). -/
def Node.placeP0 (lt : Nat) (n : Node) : Node :=
  let e := n.now
  let lt := wrapLt lt
  let n := n.modTime fun t =>
    { t with p0e := e, dt := 0, lt := lt, k48 := wrapK (lt / t.rate.ns), placed := true, stepDue := none, alignDue := none }
  eachCh Node.restop n

/-- Scheduled commands that a step has passed end TOO_LATE at the first tick after it (R135): they fall due there and
are refused at commit. `stepped` says that the tick in progress began with a forward step. -/
def PoolOp.passed (o : PoolOp) (stepped : Bool) (k : Nat) : Bool :=
  o.scheduled && o.phase == .waiting && (!kLe k o.due || (stepped && decide (o.due = k)))

/-! ### Host-port causes and the line role -/

/-- The length of a line cycle, ns (R411): LINE.CYCLE at the head, at a heading tail head the length in force at its FOLD,
elsewhere that of the latest frame that passed its check. -/
def Node.cycleLen (n : Node) : Nat :=
  if n.line.role = .head then n.parN Pid.lineCycle 0
  else if n.heading then n.line.cycleNow
  else if n.line.cycleUs = 0 then 4000000 else n.line.cycleUs * 1000

/-- The number of the line cycle in progress (R406). -/
def Node.cycleNo (n : Node) : Nat := n.lt / n.cycleLen % 4294967296

/-- Sets an IRQ cause (R599). -/
def Node.cause (b : Nat) (n : Node) : Node := n.modHost fun h => { h with causes := h.causes ||| BitVec.ofNat 16 (2 ^ b) }

/-- Counts host-port errors (R599). -/
def Node.hostErrors (k : Nat) (n : Node) : Node :=
  if k = 0 then n else (n.modHost fun h => { h with errors := h.errors + BitVec.ofNat 32 k }).cause 3

/-- The causes as they stand: REPLY and CYCLE follow the buffers (R599). -/
def HostPort.causeWord (h : HostPort) : Nat :=
  (h.causes.toNat / 4) * 4 + flag (!h.replies.isEmpty) 0 + flag (!h.blocks.isEmpty) 1

/-- The role of R403. -/
def roleOf (headen up dn : Bool) : LineRole :=
  match headen, up, dn with
  | true, false, _ => .head
  | true, true, false => .tailHead
  | true, true, true => .middle
  | false, true, true => .middle
  | false, true, false => .last
  | false, false, _ => .orphan

/-- The role of the tail segment, whose ports are exchanged (R454): a node without UP link is its turnaround. -/
def Node.roleNow (n : Node) : LineRole :=
  roleOf (n.parN Pid.lineHeaden 0 == 1) n.line.roleUp n.line.roleDn

/-- Takes the role that LINE.HEADEN and the links in force give (R403): a change sets the ROLE cause; a node that becomes
HEAD keeps its time in force, marked LINE (R429); and a node that stops heading empties its line queue, counting each entry (R591). -/
def Node.takeRole (n : Node) : Node :=
  let r := n.roleNow
  if r = n.line.role then n else
  let was := n.heading
  let n := n.modLine fun l =>
    { l with
      role := r, heading := l.heading && decide (r = .tailHead), surveyDue := decide (r = .head)
      hops := if r = .head then some 0 else l.hops }
  let n := n.cause 6
  let n := if r = .head then
      (n.modTime fun t => { t with slewing := false, offsetPs := 0, stepDue := none, returning := false }).setMark .lineTime
    else n
  if was && !n.heading then
    let lost := n.host.lineQueue.length
    (n.modHost fun h => { h with lineQueue := [] }).hostErrors lost
  else n

end Sys2Proof.Machine
end

