-- ==== Sys2Proof/Machine/ParamWrite.lean ====
section
/-!
DEFINITION. What writes of parameters do beyond changing the working set (R121, R128, R148, R194, R266, R287, R308, R337,
R340, R359, R362, R404, R411), and the effect of a rate change.
-/
namespace Sys2Proof.Machine

/-- Removes a channel's old input kind before IN.MODE changes (R156): an excitation that runs ends at its next crossing (R163, R194),
and IN.SSIERRCNT goes on counting (R192). -/
def Node.unplug (c : Ch) (n : Node) : Node :=
  let n := (n.stopTracking c).ceaseAll [.excOpen, .inClip] c.val
  n.modFront c fun f =>
    { exc := excRequestStop n.time.k48 n.time.rate n.time.p0e n.now f.exc, ssi := { errCnt := f.ssi.errCnt, readyAt := f.ssi.readyAt }
      unavailable := f.unavailable, realignAt := f.realignAt, trk := { map := f.trk.map, mapNext := f.trk.mapNext } }

/-- Starts a channel's new input kind in CASK (R21, R121, R209). -/
def Node.plug (c : Ch) (n : Node) : Node :=
  match n.mode c with
  | .off => n
  | .sincos => n.startChannel c
  | .hall => n.startChannel c
  | _ => if n.parN Pid.nodeCaskexc 0 = 1 then n.startChannel c else n

/-- NODE.CASKEXC written in CASK (R121): excitation and SSI clocking start or stop at the commit tick. -/
def Node.caskExcWritten (n : Node) : Node :=
  if !(n.core.mode == .cask) then n
  else if n.parN Pid.nodeCaskexc 0 = 1 then
    eachCh (fun c m => if m.mode c = .resolver ∨ m.mode c = .ssi then m.startChannel c else m) n
  else eachCh Node.stopChannel n

/-- A CASK item written on a channel excited in CASK (R194): its excitation stops at the next crossing and restarts. -/
def Node.caskItemWritten (c : Ch) (n : Node) : Node :=
  if n.core.mode == .cask && n.mode c == .resolver && (n.core.fronts.get c).exc.on then
    n.modFront c fun f =>
      let x := excRequestStop n.time.k48 n.time.rate n.time.p0e n.time.p0e f.exc
      { f with exc := excRequestStart n.core.params c.val n.time.rate n.time.p0e x }
  else n

/-- A change of POS.OFFSET (R266): positions are held raw, so every stored one moves with it; EV.POS_SHIFT is raised. Encoder
emulation takes the shift of R287, since nothing has moved: DEDUCED, log entry 55. -/
def Node.offsetWritten (c : Ch) (old : Word) (n : Node) : Node :=
  (n.event .posShift c.val n.p0Stamp [n.core.params.get (pidAt Pid.posOffset c.val) - old]).emuReseed (fun _ => true) c

/-- REF.TSEL written (R148): LOCAL continues the time without a step; LINE waits for the next SYNC frame to correct it. -/
def Node.tselWritten (n : Node) : Node :=
  if n.parN Pid.refTsel 0 = 1 then
    let n := n.modTime fun t => { t with slewing := false, offsetPs := 0, stepDue := none, returning := false }
    if n.time.mark = .lineTime then n.setMark .localTime else n
  else n

/-- The end of a CLRN clear on an output (R361): it keeps the clear code until a fresh code is loaded; a LOOP slot
restarts at the next P0. -/
def Node.endClear (c : Ch) (n : Node) : Node :=
  if !(n.core.outs.get c).cleared then n else
  let p := (n.core.outs.get c).parked
  let n := n.modOut c fun o =>
    let o' := endRank3 (n.clrCode c) o
    { o' with parked := p, clearShown := true }
  if (n.core.slots.get c).clrHold then n.modSlot c fun s => { s with restartDue := true } else n

/-- The start of a CLRN clear on an output (R359, R360): its running slot holds from the next P0. -/
def Node.startClear (c : Ch) (n : Node) : Node :=
  if (n.core.outs.get c).cleared then n else
  n.modOut c fun o => { o with cleared := true, clearShown := true }

/-- CLRN is low (R359): every output with DAC.CLREN = 1 is cleared. -/
def Node.clearsLow (n : Node) : Node :=
  eachCh (fun c m => if m.parN Pid.dacClren c.val = 1 then m.startClear c else m) n

/-- DAC.RANGE written: the rails are judged for the new range (R336), and the detector of a kind of output that the range no longer is
stops (R364). -/
def Node.rangeWritten (c : Ch) (n : Node) : Node :=
  let n :=
    if rangeCurrent (n.parN Pid.dacRange c.val) then
      (n.modOut c fun o => { o with currentLimit := false, shortAt := none }).cease .dacShort c.val
    else (n.modOut c fun o => { o with complianceLost := false, openAt := none }).cease .dacOpen c.val
  n.judgeRail c

/-- DAC.CLREN written (R359). -/
def Node.clrenWritten (c : Ch) (v : Word) (n : Node) : Node :=
  if v = 0 then n.endClear c else if !n.power.clrn then n.startClear c else n

/-- DAC.CLRCODE written (R362): a register that holds the clear code moves to the new one. -/
def Node.clrcodeWritten (c : Ch) (v : Word) (n : Node) : Node :=
  n.modOut c fun o => if o.atClear || (o.clearShown && !o.cleared) then { o with code := BitVec.ofNat 18 v.toNat } else o

/-- The head's minimum cycle is judged again after a write (R423): the condition of F.LINE_CYCLE ceases when it fits. -/
def Node.headFits (n : Node) : Node :=
  if !n.heading then n else
  let outlen := n.parN Pid.lineOutlen 0
  let cmd := n.parN Pid.lineCmdbytes 0
  let cyc := n.cycleLen
  if n.minCycle outlen cmd ≤ cyc then
    (n.modLine fun l => { l with allow := none, noCycSent := false }).cease .lineCycle 0xFF
  else if cyc < n.minCycle outlen 0 then n.modLine fun l => { l with allow := some 0, noCycSent := true }
  else
    -- the largest allowance that fits: the formula with CMDBYTES > 0 costs 80 ns a byte above its base
    let base := n.minCycle outlen 1
    n.modLine fun l => { l with allow := some (if base ≤ cyc then min cmd (1 + (cyc - base) / 80) else 0), noCycSent := false }

/-- The head's minimum cycle is judged, and F.LINE_CYCLE raised where not even a cycle without a CMD frame fits (R423). -/
def Node.headJudged (n : Node) : Node :=
  let n := n.headFits
  if n.line.noCycSent && n.up then n.trip .lineCycle FaultCode.lineCycle.dfltClass 0xFF 0 false else n

/-- The role that LINE.HEADEN and the links give comes into force (R403); R423 applies to a node that becomes HEAD from its first
cycle (R422). -/
def Node.roleInForce (n : Node) : Node :=
  let m := n.takeRole
  if m.line.role = .head && n.line.role != .head then m.headJudged else m

/-- What a written item does (see the head of this file); `old` is its value before the packet. -/
def Node.itemWritten (id : Nat) (old v : Word) (n : Node) : Node :=
  let base := paramBase id
  let c : Ch := Fin.ofNat 4 (paramInst id)
  if base = Pid.nodeCaskexc then n.caskExcWritten
  else if base = Pid.inMode then if old = v then n.caskItemWritten c else n.plug c
  else if id / 1024 = 0x04 ∨ id / 1024 = 0x05 then
    match paramDesc id with
    | some d => if d.write = .cask then n.caskItemWritten c else n
    | none => n
  else if base = Pid.posOffset then n.offsetWritten c old
  else if id / 1024 = 0x0A then n.emuWritten c
  else if base = Pid.ctlKind then n.leaveGroup c
  else if base = Pid.dacSrc then n.modOut c fun o => { o with fresh := false }
  else if base = Pid.dacRange then n.rangeWritten c
  else if base = Pid.dacShortact then (if n.isActive .dacShort c.val then n.shortOff c else n)
  else if base = Pid.dacClren then n.clrenWritten c v
  else if base = Pid.dacClrcode then n.clrcodeWritten c v
  else if base = Pid.sndPaths then
    Node.fansWritten <| n.modSound fun s =>
      let same := fun (i : Nat) => decide (i < old.toNat) == decide (i < v.toNat)
      { s with level := ⟨if same 0 then s.level.a else none, if same 1 then s.level.b else none⟩ }
  else if id / 1024 = 0x10 ∨ id / 1024 = 0x11 then n.fansWritten
  else if base = Pid.refTsel then n.tselWritten
  else if base = Pid.tickOutat then n.modTime fun t => { t with outat := v.toNat }
  else if base = Pid.lineCycle ∨ base = Pid.lineOutlen ∨ base = Pid.lineCmdbytes then n.headFits
  else if base = Pid.lineHeaden then n.roleInForce
  else n

/-- Whether an item is a limit of a channel's profile (R308). -/
def limitOf (c : Ch) (id : Nat) : Bool :=
  paramInst id == c.val && [Pid.prfVmax, Pid.prfAmax, Pid.prfDmax, Pid.prfJmax].contains (paramBase id)

/-- Writes a packet's items together at P0 of the commit tick (R571): the working set first, then what they do; new limits of a profile
are judged once (R308). -/
def Node.writeItems (items : List (Nat × Word)) (n : Node) : Node :=
  let old := n.core.params
  let changed := items.filter fun e => paramBase e.1 == Pid.inMode && old.get e.1 != e.2
  let n := eachOf changed (fun e m => m.unplug (Fin.ofNat 4 (paramInst e.1))) n
  let moves := items.any fun e => e.1 / 1024 == 0x0A || paramBase e.1 == Pid.posOffset
  let n := (if moves then n.emuFollowAll else n).modCore fun k => { k with params := k.params.putAll items }
  let n := eachOf items (fun e m => m.itemWritten e.1 (old.get e.1) e.2) n
  eachCh (fun c m => if items.any fun e => limitOf c e.1 then m.rejudge c else m) n

/-- Rescales the ticks that waiting things name when the tick counter changes scale (R128). -/
def rescaleDue (k0 k1 due : Nat) : Nat := wrapK (k1 + (if kLe k0 due then kSub due k0 else 0))

/-- A rate change takes effect at this P0 (R128): the output instant, K48, the scheduled commands, EV.TICK_RATE. -/
def Node.rateEffect (r : TickRate) (outat : Option Nat) (n : Node) : Node :=
  let k0 := n.time.k48
  let k1 := wrapK (n.time.lt / r.ns)
  let o := outat.getD r.outDefault
  let n := n.modTime fun t => { t with rate := r, outat := o, k48 := k1, pendingRate := none }
  let n := n.modCore fun k =>
    { k with
      params := (k.params.put Pid.tickRate (wN r.khz)).put Pid.tickOutat (wN o)
      pool := k.pool.map fun x => { x with due := if x.scheduled then x.due else rescaleDue k0 k1 x.due } }
  let n := n.modFaults fun f =>
    let ps : List PitchPoint := f.points.map fun p => { p with due := rescaleDue k0 k1 p.due }
    { f with points := ps }
  let gone := n.core.pool.filter fun x => x.scheduled && x.phase == .waiting
  let n := eachOf gone (fun x m => m.endWhole x .aborted) n
  n.event .tickRate 0xFF n.p0Stamp [wN (match r with | .k8 => 0 | .k16 => 1 | .k32 => 2)]

/-- Accepts a rate change (R128): at once where this P0 is a boundary of both rates, else it waits. The Boolean says
whether it took effect. -/
def Node.acceptRate (r : TickRate) (outat : Option Nat) (op : Nat) (dflt : Bool) (n : Node) : Bool × Node :=
  if n.time.lt % r.ns = 0 ∧ n.time.lt % n.tick = 0 then (true, n.rateEffect r outat)
  else (false, n.modTime fun t => { t with pendingRate := some (r, outat, op, dflt) })

/-- A judged packet of items commits (R128, R571): whether it has completed. -/
def Node.commitItems (op : Nat) (items : List (Nat × Word)) (n : Node) : Bool × Node :=
  match items.find? fun e => e.1 == Pid.tickRate with
  | none => (true, n.writeItems items)
  | some e =>
    let outat := (items.find? fun x => x.1 == Pid.tickOutat).map fun x => x.2.toNat
    let rest := items.filter fun x => !(x.1 == Pid.tickRate || x.1 == Pid.tickOutat)
    (n.writeItems rest).acceptRate (TickRate.ofKhz e.2.toNat) outat op false

/-- Sets every writable item to its After Steep value and clears the maps (R543); LINE.HEADEN only for context L (R404). -/
def Node.setDefaults (headen : Bool) (n : Node) : Node :=
  let items := (n.core.params.filter fun e =>
    (headen || e.1 != Pid.lineHeaden) && e.1 != Pid.tickRate && e.1 != Pid.tickOutat).map fun e => (e.1, paramDefault e.1)
  let n := n.writeItems items
  let n := n.setPar Pid.tickOutat 0 (wN n.time.rate.outDefault)
  eachCh (fun c m => m.modFront c fun f =>
    { f with trk := { f.trk with map := List.replicate 256 0, mapNext := none } })
    (n.modTime fun t => { t with outat := t.rate.outDefault })

end Sys2Proof.Machine
end

