-- ==== Sys2Proof/Machine/Arrival.lean ====
section
/-!
DEFINITION. How an arriving packet is checked and accepted (02_commands_and_clients.md R58 to R84; 14_tandem.md R477 to
R480): checks 1 to 10, the pool, and checks 11 to 13 that are made at the commit tick.
-/
namespace Sys2Proof.Machine

/-- The session of a line client. -/
def Node.session (n : Node) (id : BitVec 8) : Option Session := n.sessions.find? fun s => s.id == id

/-- The rank of the class with which a packet is sent: context L has class MAINTAINER (R63), a line client that of its
session, none without one. -/
def Node.rankOf (n : Node) (p : Packet) : Option Nat :=
  match p.port with
  | .host => some PermClass.maintainer.rank
  | .line => (n.session p.client).map fun s => s.cls.rank

/-- Whether an opcode needs no session (R58 check 3). -/
def Opcode.noSession : Opcode → Bool
  | .ping | .openSession | .describe => true
  | _ => false

/-- Opcodes the upper member answers itself (R478); from context L KEY_SET and SET_MODE to CASK too. -/
def upperAnswers (op : Opcode) (p : Packet) : Bool :=
  match op with
  | .ping | .openSession | .closeSession | .describe | .status | .tandemStatus | .faultRead | .faultLog | .lineStats
  | .timeRead | .storeRead => true
  | .keySet => decide (p.port = .host)
  | .setMode => decide (p.port = .host) && pw p 0 == 0
  | _ => false

/-- The MAC of a packet is correct (R67). Without an open session there is no nonce, and without a key no MAC to compare: it is not
(DESIGN CHOICE for a PING, OPEN_SESSION or DESCRIBE with AUTH set, log entry 118). -/
def Node.macOk (n : Node) (p : Packet) : Bool :=
  match p.mac, n.session p.client, n.store.key with
  | some m, some s, some k => aesCmac k (bytesBE 8 s.nonce.toNat ++ packetBody p) / 2 ^ 96 == m.toNat
  | _, _, _ => false

/-- Check 4 passes (R66): the MAC is judged where it is needed or present, never for context L (R63). -/
def Node.authOk (n : Node) (p : Packet) : Bool :=
  match p.port with
  | .host => true
  | .line =>
    let needed := n.parN Pid.lineAuthreq 0 == 1 && match opcodeOf p with
      | some op => op.needsMac
      | none => false
    if needed || p.mac.isSome then n.macOk p else true

/-- Whether two masks name a common channel; a mask of zero names every channel (R73). -/
def sharesChannel (a b : BitVec 8) : Bool := a == 0 || b == 0 || a &&& b != 0

/-- A command is still uncommitted and of the same client on a shared channel (R73, R74). -/
def PoolOp.before (o : PoolOp) (c : Client) (mask : BitVec 8) : Bool :=
  o.client == c && o.phase == .waiting && sharesChannel o.packet.mask mask

/-- Where a command of a lower member is executed (R479, R480, R572). -/
def Node.sideOf (n : Node) (op : Opcode) (p : Packet) : RelaySide :=
  if !n.isLower then .here else
  let hi := decide (16 ≤ p.mask.toNat)
  let lo := p.mask.toNat % 16 != 0
  match op with
  | .stop | .park => if hi && lo then .both else if hi then .sent else .here
  | .clearFaults => if bitOf (pw p 0) 16 || (hi && lo) then .both else if hi then .sent else .here
  | .paramSave => .both
  | .pitchArm =>
    let sc := fld (pw p 0) 23 16
    if (FaultCode.ofCode (fld (pw p 0) 15 0)) != some .steep && decide (4 ≤ sc) && decide (sc < 8) then .sent else .here
  | .setMode => if pw p 0 = 0 then .both else .here
  | .paramRead | .paramWrite => if n.idOfUpper (fld (pw p 0) 15 0) then .sent else .here
  | _ => if hi then .sent else .here

/-- The tick at which an unscheduled relayed command commits: the first that begins 50 µs from now (R479). -/
def Node.relayTick (n : Node) : Nat := wrapK (n.time.k48 + ceilDiv (n.time.dt + 50000) n.tick)

/-- Commands served by the last 64 slots (R79). -/
def reserved (op : Opcode) (p : Packet) : Bool :=
  match op with
  | .stop | .park | .clearFaults | .closeSession | .hopRemove | .waveStop | .pitchDisarm => true
  | .setMode => pw p 0 == 0
  | _ => false

/-- Space in the pool and the client's quota (R78, R79, R273). -/
def Node.hasRoom (n : Node) (op : Opcode) (p : Packet) : Bool :=
  let k := n.occupied + slotsOf p
  match p.port with
  | .host => decide (k ≤ 4096)
  | .line =>
    if reserved op p then decide (k ≤ 4096)
    else decide (k ≤ 4032) && decide (n.occupiedBy (senderOf p) + slotsOf p ≤ n.parN Pid.sesQuota 0)

/-- What the arrival of a packet comes to. -/
inductive Arrival where
  /-- refused with a status and words; the Boolean says whether the reply enters the cache (R82) -/
  | refuse (s : Status) (ws : List Word) (cache : Bool)
  /-- answered from the cache (R83) -/
  | resend (ps : List ReplyPkt)
  /-- accepted: opcode, commit tick, whether it is scheduled, and where it is executed -/
  | accept (op : Opcode) (due : Nat) (scheduled : Bool) (side : RelaySide)
  deriving DecidableEq, Repr

/-- Check 5: the tag is not 4095, not in use, and not in the replay cache (R82 to R84). -/
def Node.tagCheck (n : Node) (p : Packet) : Option Arrival :=
  let c := senderOf p
  if p.tag = 4095 then some (.refuse .badParam [] true)
  else if n.core.pool.any (fun o => o.client == c && o.packet.tag == p.tag) ||
      (match n.held with
        | some h => h.client == c && h.packet.tag == p.tag
        | none => false) then some (.refuse .tagInUse [] false)
  else match (n.clientRec c).cache.find? fun e => e.tag == p.tag with
    | some e => some (.resend (e.pkts.map fun r => { r with replayed := true }))
    | none => none

/-- Checks 7 to 10 and the pool for a defined opcode (R58, R71, R74, R78). `first` is the tick at which an unscheduled
command commits. -/
def Node.judgeOp (n : Node) (op : Opcode) (p : Packet) (first : Nat) : Arrival :=
  let c := senderOf p
  let side := n.sideOf op p
  let d := (p.tick.toNat + 65536 - n.time.k48 % 65536) % 65536
  let earlier := n.core.pool.filter fun o => o.before c p.mask
  let first := if side = .here then first else n.relayTick
  let due := if p.scheduled then wrapK (n.time.k48 + d) else earlier.foldl (fun a o => kMax a o.due) first
  let fromLine := decide (p.port = .line)
  if op.permClass = .contextL && fromLine then .refuse .notPermitted [] true
  else if (op = .openSession || op = .closeSession) && !fromLine then .refuse .notPermitted [] true
  else if decide (op.permClass ≠ .contextL) && decide ((n.rankOf p).getD 0 < op.permClass.rank) then .refuse .notPermitted [] true
  else if op = .paramWrite && fromLine && (itemPairs p.words).any (fun e => e.1 == Pid.lineHeaden) then
    .refuse .notPermitted [] true
  else if !wordsFit op p then .refuse .badLength [] true
  else match n.layoutCheck op p with
  | some ws => .refuse .badParam ws true
  | none =>
    if !p.scheduled && p.tick ≠ 0 then .refuse .badParam [] true
    else match n.rangeCheck op p with
    | some ws => .refuse .outOfRange ws true
    | none =>
      if p.scheduled && (decide (d = 0) || decide (32768 ≤ d)) then .refuse .tooLate [] true
      else if p.scheduled && side != .here && !kLe n.relayTick due then .refuse .tooLate [] true
      else if p.scheduled && n.core.pool.any (fun o => o.before c p.mask && !kLe o.due due) then .refuse .busy [] true
      else if !n.hasRoom op p then
        .refuse .queueFull [wN (min 8191 (4032 - n.occupied) + n.occupiedBy c * 8192)] true
      else .accept op due p.scheduled side

/-- Checks 2 to 10 of a packet that has passed check 1, with the core up (R58, R108, R478). -/
def Node.judgePacket (n : Node) (p : Packet) (lenOk : Bool) (first : Nat) : Arrival :=
  let op := opcodeOf p
  if !lenOk then .refuse .badLength [] false
  else if (n.rankOf p).isNone && !(match op with
      | some o => o.noSession
      | none => false) then .refuse .notPermitted [] false
  else if !n.authOk p then .refuse .authFail [] false
  else match n.tagCheck p with
  | some a => a
  | none => match op with
    | none => .refuse .badOpcode [] true
    | some o => if n.isUpper && !upperAnswers o p then .refuse .fused [] true else n.judgeOp o p first

/-- The status with which the cellar answers every packet while the core is down or drains (R19, R60, R91, R448). -/
def Node.downStatus (n : Node) : Option Status :=
  match n.core.run with
  | .up => if n.core.drain.isSome then some .updating else none
  | _ => some (if n.restart.updating then .updating else .coreReset)

/-- A packet of a line client has arrived: its session's timeout starts anew (R64). -/
def Node.touchSession (p : Packet) (n : Node) : Node :=
  match p.port with
  | .host => n
  | .line =>
    let ss : List Session := n.sessions.map fun s => if s.id == p.client then { s with lastNs := n.now } else s
    { n with sessions := ss }

/-- The tick at which an unscheduled command commits whose packet comes now (R72): the next one. A packet at P0 itself stands for one
whose checks were complete by that P0 (DESIGN CHOICE, log entry 13). -/
def Node.firstTick (n : Node) : Nat := if n.time.dt = 0 then n.time.k48 else wrapK (n.time.k48 + 1)

/-- A command enters the pool in arrival order; one of context L goes before those of the line that arrived at the same instant (R75). -/
def PoolOp.enter (op : PoolOp) (pool : List PoolOp) : List PoolOp :=
  let tie := fun (o : PoolOp) => op.client.isL && !o.client.isL && o.arrivedAt == op.arrivedAt
  (pool.filter fun o => !tie o) ++ op :: pool.filter tie

/-- Takes an accepted command into the pool (R59, R78); ACCEPTED is sent at once where the command is scheduled, is relayed,
or has completion A (R77, R479, R557), and a relayed command goes to the partner. -/
def Node.poolIn (p : Packet) (due : Nat) (scheduled : Bool) (side : RelaySide) (n : Node) : Nat × Node :=
  let o := n.core.nextOrder
  let op : PoolOp :=
    { slot := n.nextSlot, order := o, client := senderOf p, packet := p, scheduled := scheduled, due := due, phase := .waiting
      side := side, arrivedAt := n.now }
  let n := n.modCore fun k => { k with pool := op.enter k.pool, nextOrder := o + 1, slotUses := bumpUses op.slot k.slotUses }
  let n := if op.acceptedAtOnce then n.accepted p due else n
  let n := if side == .sent || side == .both then n.laneSend n.lane.partnerPort (.relay p due) else n
  (o, n)

/-- The arrival of a packet that has passed check 1 (R58, R60, R72): the order number of the command it becomes, where it
is accepted. -/
def Node.arrive (p : Packet) (lenOk : Bool) (first : Nat) (n : Node) : Option Nat × Node :=
  let n := n.touchSession p
  match n.downStatus with
  | some s => (none, n.answer p s [])
  | none =>
    match n.judgePacket p lenOk first with
    | .refuse s ws cache => (none, if cache then n.finish p s [ws] false n.tick16 else n.answer p s ws)
    | .resend ps => (none, n.emitAll (senderOf p) ps)
    | .accept _ due sch side => let r := n.poolIn p due sch side; (some r.1, r.2)

/-! ### Checks 11 to 13 -/

/-- Check 11 (R58, R493, R530): every named channel is available, and none belongs to a lost partner. -/
def Node.checkChannels (n : Node) (op : Opcode) (p : Packet) : Option Status :=
  let lost := n.lane.survivor && decide (16 ≤ p.mask.toNat)
  if lost then some .partnerLost
  else if (n.chans p).any fun c => (n.core.fronts.get c).unavailable then some .channelUnavailable
  else match op with
    | .pitchArm =>
      let s := fld (pw p 0) 23 16
      let c := if n.isUpper then s - 4 else s
      match FaultCode.ofCode (fld (pw p 0) 15 0) with
      | some .steep => none
      | _ => if decide (c < 4) && (n.core.fronts.get (Fin.ofNat 4 c)).unavailable then some .channelUnavailable else none
    | _ => none

/-- Check 12 (R22, R30, R108, R559): the mode permits the opcode; the conditions its entry cites are judged by the opcode. -/
def Node.checkMode (n : Node) (op : Opcode) (p : Packet) : Option Status :=
  let m := op.modes
  let allowed := match n.core.mode with
    | .cask => m.1
    | .track => m.2.1
    | .drive => m.2.2.1
    | .tandem => m.2.2.2
  if n.core.running == .boot && !op.boot then some .caskLocked
  else if n.store.caskLocked && n.core.mode == .cask && (op == .tandemForm || (op == .setMode && pw p 0 != 0)) then some .caskLocked
  else if op == .latchArm && n.core.mode == .cask &&
      (n.chans p).any (fun c => !(n.core.fronts.get c).trk.running) then some .wrongMode
  else if op == .pitchArm && n.driving && n.parN Pid.nodePitchdrive 0 == 0 then some .wrongMode
  else if allowed then none else some .wrongMode

/-- The channels an opcode writes to (the table before R66): DAC_STROBE every output of its groups (R343). -/
def Node.writtenTo (n : Node) (op : Opcode) (p : Packet) : List Ch :=
  match op with
  | .dacStrobe => ([0, 1, 2, 3] : List Ch).filter fun c =>
      (bitOf (pw p 0) 0 && n.inGroup false c) || (bitOf (pw p 0) 1 && n.inGroup true c)
  | .loopEnable => []
  | .paramWrite => []
  | _ => if op.writes then n.chans p else []

/-- Check 13 (R68, R70); LOOP_ENABLE judges the owner in every mode, and PARAM_WRITE its items (R571). -/
def Node.checkOwner (n : Node) (op : Opcode) (cl : Client) (p : Packet) : Option Status :=
  let owned := (n.writtenTo op p).all fun c => n.mayWrite cl c
  let taken := op == .loopEnable && (n.chans p).any fun c =>
    match cl, (n.core.slots.get c).owner with
    | .line i, some j => i != j
    | _, _ => false
  if owned && !taken then none else some .notOwner

/-- The motion, latch and hop commands (R157). -/
def Opcode.needsInput : Opcode → Bool
  | .moveTo | .moveBy | .jog | .stop | .park | .setLimits | .gainSet | .loopEnable | .cascadeSet | .latchArm | .latchRead
  | .hopAdd | .hopRemove | .hopList => true
  | _ => false

/-- A motion, latch or hop command names a channel that is OFF (R157). -/
def Node.checkOff (n : Node) (op : Opcode) (p : Packet) : Option Status :=
  if op.needsInput && (n.chans p).any (fun c => n.mode c == .off) then some .refusedUnsafe else none

/-- Checks 11 to 13 at the commit tick (R58, R251), and the refusal of R157. -/
def Node.commitChecks (n : Node) (op : Opcode) (cl : Client) (p : Packet) : Option Status :=
  (((n.checkChannels op p).or (n.checkMode op p)).or (n.checkOwner op cl p)).or (n.checkOff op p)

/-- An operation commits (R251): TOO_LATE where a step has passed its tick (R135), else checks 11 to 13, else its effect. The
refusal of TANDEM_FORM outside TRACK carries its reason (R474). -/
def Node.commitOp (f : PoolOp → Node → Ans × Node) (op : PoolOp) (n : Node) : Node :=
  match opcodeOf op.packet with
  | none => n
  | some oc =>
    if op.passed n.time.stepped n.time.k48 then n.endOp op .tooLate [[]] false
    else match n.commitChecks oc op.client op.packet with
    | some s => n.endOp op s [if oc == .tandemForm && s == .wrongMode then [1] else []] false
    | none =>
      let r := f op (n.markCommitted op.order)
      match r.2.opOf op.order with
      | some op => r.2.deliver op r.1
      | none => r.2

/-- A packet: its arrival, and, where it is accepted for the tick in progress, its commit there; any other waits for its tick
(R58, R72; log entry 13). -/
def Node.packetRow (f : PoolOp → Node → Ans × Node) (p : Packet) (n : Node) : Node :=
  n.whenCellar fun n =>
    let r := n.arrive p (decide (p.words.length ≤ 250)) n.firstTick
    match r.1.bind r.2.opOf with
    | none => r.2
    | some op =>
      if op.side = .sent || !kLe op.due n.time.k48 then r.2 else r.2.commitOp f op

/-- A packet with the opcode of its row, and with the bits of word 0 that name the row's operation. -/
def asRow (op : Opcode) (p : Packet) : Packet := { p with opcode := BitVec.ofNat 8 op.code }

/-- Replaces bits `[lo + w - 1 : lo]` of word 0. -/
def withBits (lo w v : Nat) (p : Packet) : Packet :=
  match p.words with
  | [] => p
  | x :: xs => { p with words := wN (x.toNat - (x.toNat / 2 ^ lo % 2 ^ w) * 2 ^ lo + v * 2 ^ lo) :: xs }

end Sys2Proof.Machine
end

