-- ==== Sys2Proof/Machine/StoreOps.lean ====
section
/-!
DEFINITION. The non-volatile store: configurations and their bytes, waiting writes, regions as bytes, image slots
(16_firmware_and_store.md R535 to R555; 01_node_and_modes.md R47).
-/
namespace Sys2Proof.Machine

/-! ### Images -/

/-- A byte of sparse memory: an unlisted byte reads zero. -/
def ByteMem.get (m : ByteMem) (a : Nat) : Byte := ((m.find? fun e => e.1 == a).map Prod.snd).getD 0

/-- Writes a byte, keeping the canonical form. -/
def ByteMem.put (m : ByteMem) (a : Nat) (v : Byte) : ByteMem :=
  match m with
  | [] => if v = 0 then [] else [(a, v)]
  | e :: es =>
    if a < e.1 then (if v = 0 then e :: es else (a, v) :: e :: es)
    else if a = e.1 then (if v = 0 then es else (a, v) :: es)
    else e :: ByteMem.put es a v

/-- Writes bytes from an address on. -/
def ByteMem.putAll (m : ByteMem) : Nat → List Byte → ByteMem
  | _, [] => m
  | a, b :: bs => ByteMem.putAll (m.put a b) (a + 1) bs

/-- The canonical form: strictly rising addresses, no zero byte. -/
def ByteMem.wf (m : ByteMem) : Bool :=
  match m with
  | [] => true
  | e :: es => decide (e.2 ≠ 0) && es.all (fun f => decide (e.1 < f.1)) && ByteMem.wf es

/-- `k` bytes from an address on. -/
def ByteMem.read (m : ByteMem) (a k : Nat) : List Byte := (List.range k).map fun i => m.get (a + i)

/-- The code of a slot state (R547). -/
def SlotState.code : SlotState → Nat
  | .empty => 0
  | .receiving => 1
  | .pending => 2
  | .trial => 3
  | .established => 4
  | .rejected => 5

/-- The version word of an image: major, minor, build (R546). -/
def imageVersion (m : ByteMem) : Nat := natBE (m.read 8 4)

/-- The version running: 0.0.0 under the boot loader (R108). -/
def Node.version (n : Node) : Nat :=
  match n.core.running with
  | .boot => 0
  | .image s => imageVersion (n.store.images.get s).bytes

/-- Checks 2 and 3 of a commit (R546, R551): the header and the silicon revision. -/
def imageHeaderOk (s : ImageSlot) : Bool :=
  s.bytes.read 0 8 == bytesBE 8 0x4158513430465700 && imageVersion s.bytes != 0 &&
    natBE (s.bytes.read 14 4) == s.length && (s.bytes.read 18 46).all (· == 0)

/-- See `imageHeaderOk`. -/
def imageRevisionOk (s : ImageSlot) : Bool :=
  decide ((s.bytes.get 12).toNat ≤ Config.silicon) && decide (Config.silicon ≤ (s.bytes.get 13).toNat)

/-- Changes an image slot. -/
def Node.modImage (b : Bool) (f : ImageSlot → ImageSlot) (n : Node) : Node :=
  n.modStore fun s => { s with images := s.images.set b (f (s.images.get b)) }

/-- The slot a transfer writes: not the running image's; under the boot loader that of lower sequence number (R548). -/
def Node.targetSlot (n : Node) : Bool :=
  match n.core.running with
  | .image s => !s
  | .boot => decide (n.store.images.b.seq < n.store.images.a.seq)

/-- The open transfer closes and its slot becomes EMPTY (R551, R552). -/
def Node.dropTransfer (n : Node) : Node :=
  match n.core.fw with
  | none => n
  | some t => (n.modImage t.slot fun _ => {}).modCore fun k => { k with fw := none, fwCommit := none }

/-- A commit being checked ends with its transfer (R552): it has no slot left to check. -/
def Node.endTransferOf (c : Client) (n : Node) : Node :=
  match n.core.fw with
  | some t => if t.client = c then (n.endOpt n.core.fwCommit .aborted []).dropTransfer else n
  | none => n

/-! ### Configurations -/

/-- The bytes of a map entry list (R538). -/
def mapBytes (m : List (BitVec 16)) : List Byte := m.flatMap fun e => bytesBE 2 e.toNat

/-- The body of a configuration (R538). -/
def configBody (c : Config) : List Byte :=
  c.records.flatMap (fun e => bytesBE 2 e.1 ++ wordBytes e.2) ++
  ([0, 1, 2, 3] : List Ch).flatMap fun i => bytesBE 2 (0xFC00 + i.val) ++ mapBytes (c.maps.get i)

/-- The CRC of a configuration (R538). -/
def configCrc (c : Config) : Nat :=
  let b := configBody c
  crc32c (bytesBE 4 c.generation ++ bytesBE 4 b.length ++ bytesBE 4 c.version ++ List.replicate 16 0 ++ b)

/-- The bytes of a configuration: header and body (R538). -/
def configBytes (c : Config) : List Byte :=
  let b := configBody c
  bytesBE 4 c.generation ++ bytesBE 4 b.length ++ bytesBE 4 (configCrc c) ++ bytesBE 4 c.version ++ List.replicate 16 0 ++ b

/-- Records read from a body (R538). -/
def readRecords : Nat → List Byte → List (Nat × Word)
  | 0, _ => []
  | f + 1, bs =>
    if bs.length < 7 then [] else
    let id := natBE (bs.take 2)
    if 0xFC00 ≤ id then [] else (id, wN (natBE ((bs.drop 2).take 5))) :: readRecords f (bs.drop 7)

/-- Map entries read from bytes. -/
def readMap : Nat → List Byte → List (BitVec 16)
  | 0, _ => []
  | f + 1, bs => BitVec.ofNat 16 (natBE (bs.take 2)) :: readMap f (bs.drop 2)

/-- A configuration read from its bytes; none where its CRC fails (R538). -/
def configOfBytes (bs : List Byte) : Option Config :=
  let len := natBE ((bs.drop 4).take 4)
  let body := (bs.drop 32).take len
  let rs := readRecords len body
  let maps := body.drop (7 * rs.length)
  let m := fun (i : Nat) => readMap 256 ((maps.drop (514 * i + 2)).take 512)
  let c : Config :=
    { generation := natBE (bs.take 4), version := natBE ((bs.drop 12).take 4), records := rs, maps := ⟨m 0, m 1, m 2, m 3⟩ }
  if crc32c (bs.take 8 ++ (bs.drop 12).take 20 ++ body) = natBE ((bs.drop 8).take 4) then some c else none

/-- The slot that is not current (R539). -/
def Store.otherSlot (s : Store) : Bool := !(decide (s.configs.a.generation < s.configs.b.generation))

/-- The working set as a configuration of the next generation (R538, R539). -/
def Node.workingConfig (n : Node) : Config :=
  { generation := n.store.current.generation + 1, version := n.version, records := n.records
    maps := n.core.fronts.map fun f => f.trk.map }

/-- Whether a configuration write is waiting or running (R541). -/
def Store.configBusy (s : Store) : Bool := s.writes.any fun w => match w.kind with
  | .config .. => true
  | .zeroCal _ => true
  | _ => false

/-- Queues a store write. -/
def Node.storeWrite (k : WriteKind) (op : Option Nat) (ws : List Word) (n : Node) : Node :=
  n.modStore fun s => { s with writes := s.writes ++ [{ kind := k, op := op, words := ws }] }

/-- Step 1 of a configuration write (R539): the header of the slot that is not current shows generation 0. -/
def Store.voidOther (s : Store) : Store :=
  let old : Config := s.configs.get s.otherSlot
  { s with configs := s.configs.set s.otherSlot { old with generation := 0 } }

/-- Starts the write of a configuration under R539. -/
def Node.saveConfig (c : Config) (op : Option Nat) (n : Node) : Node :=
  let b := n.store.otherSlot
  let n := n.modStore Store.voidOther
  n.storeWrite (.config b c) op [wN c.generation, wN (configCrc c)]

/-- Starts the write of R380 under R539, behind any configuration write that runs; with no current configuration it has nothing to
write. -/
def Node.saveZero (items : List (Nat × Word)) (n : Node) : Node :=
  let n := if n.store.configBusy || n.store.current.generation == 0 then n else n.modStore Store.voidOther
  n.storeWrite (.zeroCal items) none []

/-- Replaces a record of a configuration. -/
def putRecord (e : Nat × Word) (rs : List (Nat × Word)) : List (Nat × Word) :=
  rs.map fun r => if r.1 == e.1 then e else r

/-- The order in which waiting writes are served (R537). -/
def WriteKind.rank : WriteKind → Nat
  | .nodePage => 1
  | .config .. => 2
  | .zeroCal _ => 2
  | .wave _ => 3
  | .waveDelete _ => 3
  | .shadow .. => 4
  | .fwBlock .. => 5

/-- Takes the write that is served first out of a list. -/
def takeFirst (r : Nat) : List StoreWrite → Option (StoreWrite × List StoreWrite)
  | [] => none
  | w :: ws =>
    if w.kind.rank = r then some (w, ws)
    else (takeFirst r ws).map fun x => (x.1, w :: x.2)

/-- The write served next (R537). -/
def Store.nextWrite (s : Store) : Option (StoreWrite × List StoreWrite) :=
  (((((takeFirst 1 s.writes).or (takeFirst 2 s.writes)).or (takeFirst 3 s.writes)).or (takeFirst 4 s.writes)).or (takeFirst 5 s.writes))

/-- A write of R380 that waited for another configuration write begins when that has ended (R539). -/
def Store.nextConfig (s : Store) : Store :=
  if s.configBusy && s.current.generation != 0 then s.voidOther else s

/-- What a finished write leaves in the store. -/
def WriteKind.apply (k : WriteKind) (s : Store) : Store :=
  match k with
  | .nodePage => s
  | .config b c => Store.nextConfig { s with configs := s.configs.set b c, cfgBad := s.cfgBad.set b false }
  | .zeroCal items =>
    let cur := s.current
    if cur.generation = 0 then s else
    let rs : List (Nat × Word) := items.foldl (fun r e => putRecord e r) cur.records
    let c : Config := { cur with generation := cur.generation + 1, records := rs }
    Store.nextConfig { s with configs := s.configs.set s.otherSlot c, cfgBad := s.cfgBad.set s.otherSlot false }
  | .wave t => { s with tables := s.tables.filter (fun x => x.table != t.table) ++ [t] }
  | .waveDelete t => { s with tables := s.tables.filter fun x => x.table != t }
  | .shadow up x => if up then { s with shadowUp := some x } else { s with shadowDn := some x }
  | .fwBlock .. => s

/-! ### The fault log -/

/-- Writes the `k` oldest formed entries to the log, each with the next sequence number (R517): 256 places. -/
def Node.writeLog (k : Nat) (n : Node) : Node :=
  let xs := n.core.faults.log.take k
  let n := eachOf xs (fun x m => m.modStore fun s =>
    { s with log := lastN 256 (s.log ++ [{ x.entry with seq := s.logSeq }]), logSeq := s.logSeq + 1 }) n
  n.modFaults fun f => { f with log := f.log.drop k }

/-! ### Regions as bytes -/

/-- The sizes of the regions (R535). -/
def regionSize : Nat → Nat
  | 0 | 1 => 262144
  | 2 | 3 | 4 | 5 => 32768
  | 6 => 53248
  | 7 => 8192
  | 8 | 9 => 4096
  | _ => 0

/-- The node page's bytes 0 to 35 (R544), with the key or with zeroes in bytes 16 to 31. -/
def nodePageFields (s : Store) (key : Nat) : List Byte :=
  bytesBE 4 s.images.a.seq ++ bytesBE 4 s.images.b.seq ++ bytesBE 1 s.images.a.state.code ++ bytesBE 1 s.images.b.state.code ++
  bytesBE 1 s.images.a.failed ++ bytesBE 1 s.images.b.failed ++ bytesBE 1 (flag s.caskLocked 0) ++
  bytesBE 1 (flag s.key.isSome 0) ++ [0, 0] ++ bytesBE 16 key

/-- See `nodePageFields`. -/
def nodePage (s : Store) : List Byte :=
  nodePageFields s 0 ++ bytesBE 4 (crc32c (nodePageFields s (s.key.elim 0 BitVec.toNat)))

/-- The lock page's bytes 0 to 11 (R544). -/
def lockPage (l : Option (Nat × Word)) : List Byte :=
  let f := match l with
    | some (p, s) => bytesBE 2 (p % 1024 + 32768) ++ wordBytes s
    | none => List.replicate 7 0
  f ++ [0] ++ bytesBE 4 (crc32c f)

/-- A byte of a persisted sample at its wave-memory place (R535): three bytes a sample behind the 4 KiB of descriptors; the most
significant first is the model's reading (DEDUCED from R545, log entry 12). -/
def waveByte (ts : List SavedTable) (off : Nat) : Option Byte :=
  if off < 4096 then none else
  let place := (off - 4096) / 3
  let t := ts.find? fun t => decide (t.base ≤ place) && decide (place < t.base + t.samples.length)
  t.map fun t => BitVec.ofNat 8 ((t.samples.getD (place - t.base) 0).toNat / 256 ^ (2 - (off - 4096) % 3))

/-- A byte of a region (R535, R544, R545): what the spec lays out, else an open value (log entry 12). -/
def Node.storeByte (n : Node) (region off : Nat) : Byte :=
  let rest := Config.storeByte region off n.free
  match region with
  | 0 => n.store.images.a.bytes.get off
  | 1 => n.store.images.b.bytes.get off
  | 2 => (configBytes n.store.configs.a).getD off rest
  | 3 => (configBytes n.store.configs.b).getD off rest
  | 6 => (waveByte n.store.tables off).getD rest
  | 8 => (nodePage n.store).getD off rest
  | 9 => if off = 7 then rest else (lockPage n.line.lock).getD off rest
  | _ => rest

end Sys2Proof.Machine
end

