-- ==== Sys2Proof/Machine/LineOps.lean ====
section
/-!
DEFINITION. Frames of the Grenrus Line: their direction and check, the header fields a node takes, forwarding, addressing
of CMD entries, cars and RC cars (12_grenrus_line.md R400 to R420, R430 to R438; 07_green_and_kilned.md R246 to R249;
13_line_failures.md R454 to R457; 14_tandem.md R484).
-/
namespace Sys2Proof.Machine

/-! ### Frames as bytes -/

/-- The 16 header bytes of a frame (R406). -/
def TxFrame.header (f : TxFrame) : List Byte :=
  let h := f.hdr
  [f.typ] ++ bytesBE 1 (flag h.ret 0 + flag h.fromTail 1 + flag h.folded 2 + flag h.tailPresent 3) ++ bytesBE 2 h.hop.toNat ++
    bytesBE 3 f.payload.length ++ bytesBE 4 h.cycle.toNat ++ bytesBE 3 h.cycleUs.toNat ++ [0, 0]

/-- The bytes between the delimiters of a frame that passes its check: the CRC-32C least significant byte first (R407). -/
def TxFrame.bytes (f : TxFrame) : List Byte :=
  let b := f.header ++ f.payload
  b ++ (bytesBE 4 (crc32c b)).reverse

/-! ### Position and lock -/

/-- The locked position, 0 without a lock. -/
def Node.lockPos (n : Node) : Nat := n.line.lock.elim 0 Prod.fst

/-- Whether the lock state is LOCKED_OK, or a lock is stored and no roll call has given an outcome (R413, R430). -/
def Node.lockedOk (n : Node) : Bool := n.lockState == 1

/-- The position that the hop count stands for (R455): on the tail segment, T less the tail hop count. -/
def Node.posOfHop (n : Node) (hop : Nat) : Nat := if n.line.inTail then (n.line.tailT + 1024 - hop) % 1024 else hop

/-- The outcome of R430 for a frame's signature. -/
def Node.lockOutcome (n : Node) (hop : Nat) (sig : Word) : Nat :=
  match n.line.lock with
  | none => 0
  | some (p, s) => if p = n.posOfHop hop ∧ (s = sig ∨ sig = 0) then 1 else 2

/-- The judgement of R118 that waits for a lock outcome takes it. -/
def Node.lockKnown (o : Nat) (n : Node) : Node :=
  let n := n.modLine fun l => { l with outcome := some o }
  n.modCore fun k => { k with auto := if k.auto = .waiting then (if o = 2 then .none else .due) else k.auto }

/-! ### Receiving -/

/-- How the node takes a frame (R403, R405, R454, R457): not at all, as an outbound frame (false) or as a returning one
(true). A tail-segment node takes nothing of the head's; a frozen last node takes nothing on DN, and an orphan nothing at all. -/
def Node.frameDir (n : Node) (h : FrameHdr) : Option Bool :=
  let l := n.line
  if h.fromTail then
    if h.ret then (if h.port = .up && l.roleUp && l.inTail then some true else none)
    else if h.port = .dn && l.roleDn && !n.heading then some false else none
  else if l.inTail then none
  else if h.ret then (if h.port = .dn && l.roleDn && l.hops != some 1023 && (l.roleUp || n.heading) then some true else none)
  else if h.port = .up && l.roleUp && !n.heading then some false else none

/-- The check failures of a hop within 1,000 consecutive cycles (R438). -/
def recentFails (cur : Nat) (xs : List Nat) : List Nat := xs.filter fun c => decide ((cur + 4294967296 - c) % 4294967296 < 1000)

/-- The judgement of F.LINE_CRC (R438). -/
def Node.judgeCrc (inj : Bool) (n : Node) : Node :=
  let n := n.modLine fun l => { l with failUp := recentFails l.cycle l.failUp, failDn := recentFails l.cycle l.failDn }
  let most := n.parN Pid.lineCrcmax 0
  let up := decide (most < n.line.failUp.length)
  let dn := decide (most < n.line.failDn.length)
  if !n.up then n
  else if up || dn then n.trip .lineCrc FaultCode.lineCrc.dfltClass 0xFF (if up then 0 else 1) inj
  else n.cease .lineCrc 0xFF

/-- The check of a received frame (R247 to R249): the ending it leaves with, and the counts. F.LINE_CRC's injection corrupts
the next outbound frame (R438). -/
def Node.checkFrame (h : FrameHdr) (ret : Bool) (n : Node) : FrameEnd × Node :=
  let inj := !ret && n.up && n.injecting .lineCrc 0xFF
  let n := if inj then n.useInjection .lineCrc 0xFF 1 else n
  let e : FrameEnd := if h.ending = .good ∧ inj then .badCrc else h.ending
  match e with
  | .good => (.good, if ret then n else n.modLine fun l => { l with framesOk := l.framesOk + 1 })
  | .badCrc =>
    let n := n.modLine fun l =>
      if ret then { l with crcDn := l.crcDn + 1, failDn := l.cycle :: l.failDn }
      else { l with crcUp := l.crcUp + 1, failUp := l.cycle :: l.failUp }
    (.badCrc, n.judgeCrc inj)
  | .other => (.other, n.modLine fun l => { l with corrupted := l.corrupted + 1 })

/-- What a node takes from the header of a frame that passed its check (R405, R411, R436, R454): the cycle and its length,
and from an outbound frame the hop count; a first frame of the tail head puts it into the tail segment and discards D. -/
def Node.takeHeader (h : FrameHdr) (ret : Bool) (n : Node) : Node :=
  let enters := !ret && h.fromTail && !n.line.inTail
  let n := n.modLine fun l =>
    { l with
      cycle := h.cycle.toNat, cycleUs := h.cycleUs.toNat, tailPresent := h.tailPresent, folded := l.folded || h.folded
      hops := if ret then l.hops else some (min 1023 (h.hop.toNat + 1))
      inTail := l.inTail || enters, delay := if enters then none else l.delay, rejectRun := if enters then 0 else l.rejectRun }
  let n := n.judgeCrc false
  if !ret && n.lockedOk && !n.line.folded && n.hopCount != n.lockPos then
    let n := n.modLine fun l => { l with mismatch := true }
    if n.up then n.hopMismatch else n
  else n

/-- Whether the node turns outbound frames around (R403, R405, R454, R457). -/
def Node.turns (n : Node) (h : FrameHdr) : Bool :=
  decide (1022 ≤ h.hop.toNat) || (if h.fromTail then !n.line.roleUp else !n.line.roleDn)

/-- The other port. -/
def otherPort : LinePort → LinePort
  | .up => .dn
  | .dn => .up

/-- The header a frame leaves with (R406, R408, R409): the hop field increased outbound; sent back at the turnaround. -/
def Node.fwdHdr (n : Node) (h : FrameHdr) (ret : Bool) (e : FrameEnd) : FrameHdr :=
  let e : FrameEnd := match e with
    | .good => .good
    | _ => .other
  if ret then { h with port := otherPort h.port, ending := e }
  else if n.turns h then { h with ret := true, ending := e }
  else { h with port := otherPort h.port, hop := h.hop + 1, ending := e }

/-- Sends frames: `line.sent` holds what the latest command sent. -/
def Node.send (fs : List TxFrame) (n : Node) : Node := n.modLine fun l => { l with sent := fs }

/-- The part of a frame's receipt that every type shares (R246 to R249, R405, R408, R411): `f` is what an outbound (false) or
returning (true) frame that passed its check does, with the frames the node sends on. What returns to a heading node ends there. -/
def Node.receive (h : FrameHdr) (typ : Byte) (payload : List Byte) (f : Bool → Node → Node) (n : Node) : Node :=
  match n.frameDir h with
  | none => n.send []
  | some ret =>
    let r := n.checkFrame h ret
    let plain : TxFrame := { typ := typ, hdr := r.2.fwdHdr h ret r.1, payload := payload }
    match r.1 with
    | .good => f ret ((r.2.takeHeader h ret).send [plain])
    | _ => r.2.send (if ret && n.heading then [] else [plain])

/-! ### CMD entries -/

/-- The entries of a CMD payload: destination and packet bytes (R412); a cut entry ends the list. -/
def cmdEntries : Nat → List Byte → List (Nat × List Byte)
  | 0, _ => []
  | f + 1, bs =>
    let len := natBE ((bs.drop 2).take 2)
    if bs.length < 4 + len then [] else (natBE (bs.take 2), (bs.drop 4).take len) :: cmdEntries f (bs.drop (4 + len))

/-- Whether an entry is addressed to the node (R412, R413, R455). -/
def Node.addressed (n : Node) (dest : Nat) : Bool :=
  let v := dest % 1024
  let hop := n.hopCount
  if dest / 4096 ≠ 0 then false else
  match dest / 1024 % 4 with
  | 0 =>
    n.lockedOk && decide (v = n.lockPos) &&
      (if n.line.inTail then decide (n.posOfHop hop = v) else n.line.folded || decide (hop = v))
  | 1 => decide (v = hop)
  | 2 => n.lockState != 2
  | _ => false

/-- A packet's bytes arrive in a CMD frame (R50, R58, R413): one that fails its check is discarded and counted with the check failures
of the port on which an outbound frame arrives, LINE_STATS word 1 (R439; DESIGN CHOICE, log entry 111). -/
def Node.lineArrive (bs : List Byte) (n : Node) : Node :=
  match packetOfBytes .line bs with
  | none => n.modLine fun l => { l with crcUp := l.crcUp + 1 }
  | some (p, ok) => (n.arrive p ok (wrapK (n.time.k48 + 1))).2

/-- Acts on the entries of a CMD frame (R413). -/
def Node.takeEntries (payload : List Byte) (n : Node) : Node :=
  eachOf (cmdEntries payload.length payload) (fun e m => if m.addressed e.1 then m.lineArrive e.2 else m) n

/-! ### Cars -/

/-- What a fragment takes from the stream (R419): its bytes, the index of the first packet that begins in it, and the items
and the count of bytes sent of the first that stay. -/
def takeStream : List OutItem → Nat → Nat → Nat → Option Nat → List Byte × Option Nat × List OutItem × Nat
  | [], _, _, _, first => ([], first, [], 0)
  | x :: xs, sent, room, at_, first =>
    if room = 0 then ([], first, x :: xs, sent) else
    let bs := x.pkt.bytes.drop sent
    let first := if sent = 0 && first.isNone then some at_ else first
    if bs.length ≤ room then
      let r := takeStream xs 0 (room - bs.length) (at_ + bs.length) first
      (bs ++ r.1, r.2.1, r.2.2.1, r.2.2.2)
    else (bs.take room, first, x :: xs, sent + room)

/-- The reply fragment of a car (R419), and the node without the bytes it took. -/
def Node.fragment (n : Node) : List Byte × Node :=
  let cap := n.line.replyQ - 2
  let r := takeStream n.stream n.streamSent cap 0 none
  (padTo n.line.replyQ (bytesBE 1 r.1.length ++ bytesBE 1 (r.2.1.getD 255) ++ r.1),
   { n with stream := r.2.2.1, streamSent := r.2.2.2 })

/-- Whether the cellar makes the cyclic record (R20, R418): the core is down, or was at the cycle start. -/
def Node.standIn (n : Node) : Bool := !n.up || n.line.recSnap.isNone

/-- The pair's part of the record for the partner's channels (R484): empty where it has not arrived for the snapshot. -/
def Node.partnerPart (n : Node) : List Byte × List Byte :=
  let l := n.lane
  let tick := n.line.recSnap.elim 0 Snap.tick
  match l.record with
  | some r =>
    if r.tick.toNat = tick then (r.positions, r.velocities) else (emptyPos l.pairRecCh, emptyVel l.pairRecVel)
  | none => (emptyPos l.pairRecCh, emptyVel l.pairRecVel)

/-- Bytes of the cyclic record in the layout in force (R417, R484): none for the upper member of a pair. -/
def Node.recordLen (n : Node) : Nat :=
  if !n.lane.pairLayout then n.line.recLen
  else if !n.lane.isLower then 0 else n.line.recLen + n.lane.pairRecLen

/-- The cyclic record of a car (R418, R484). -/
def Node.carRecord (n : Node) : List Byte :=
  let l := n.line
  let s : Snap := match (if n.standIn then none else l.recSnap) with
    | some s => s
    | none => { tick := 0, head := List.replicate 6 0, pos := emptyPos l.recCh, vel := emptyVel l.recVel }
  let p : List Byte × List Byte := if n.lane.pairLayout && n.lane.isLower then n.partnerPart else ([], [])
  padTo n.recordLen (s.head ++ s.pos ++ p.1 ++ s.vel ++ p.2)

/-- The node's car (R416, R417), and the node that has appended it. -/
def Node.car (turnaround : Bool) (n : Node) : List Byte × Node :=
  let down := n.standIn
  let ok := n.lockedOk
  let rec_ := n.carRecord
  let mis := n.line.mismatch
  let beyond := decide (n.hopCount = 1023)
  let pos := if ok then n.lockPos else n.hopCount
  let r := n.fragment
  let w := pos % 1024 + flag down 10 + flag (!ok) 11 + flag mis 12 + flag (!r.2.stream.isEmpty) 13 + flag beyond 14 + flag turnaround 15
  (bytesBE 2 w ++ rec_ ++ r.1, r.2.modLine fun l => { l with mismatch := false })

/-- The code of a tick rate (R154, R433). -/
def TickRate.code : TickRate → Nat
  | .k8 => 0
  | .k16 => 1
  | .k32 => 2

/-- The node's RC car (R433), built by the cellar. -/
def Node.rcCar (n : Node) : List Byte :=
  let dn := if n.line.inTail then n.line.linkUp else n.line.linkDn
  bytesBE 2 (n.hopCount % 1024 + flag (!n.up) 10 + flag (n.parN Pid.lineHeaden 0 == 1) 11 + flag dn 12 + flag n.line.rcKept 13) ++
    bytesBE 1 (n.line.outcome.getD 0) ++ bytesBE 2 (n.lockPos % 1024) ++ bytesBE 1 n.recordLen ++ bytesBE 1 n.line.replyQ ++
    bytesBE 1 (n.time.rate.code + n.core.mode.code * 4) ++ bytesBE 4 n.version

/-- A roll call's RC payload reaches the node (R430 to R432, R420): ASSIGN stores the lock on a node in CASK or with its core
down. -/
def Node.takeRollCall (mode : Nat) (sig : Word) (n : Node) : Node :=
  let hop := n.hopCount
  let assign := decide (mode = 1)
  let stores := assign && (!n.up || n.core.mode == .cask)
  let n := if stores then n.modLine fun l => { l with lock := some (n.posOfHop hop, sig) } else n
  let o := if stores then 1 else n.lockOutcome hop sig
  let n := n.modLine fun l => { l with rcSig := some sig, rcHops := hop, rcKept := assign && !stores, rollCycle := true }
  (n.lockKnown o).layoutInForce

end Sys2Proof.Machine
end

