-- ==== Sys2Proof/Machine/FrameRows.lean ====
section
/-!
DEFINITION. The frames of the Grenrus Line at a node: SYNC and line time, CMD, CYC, RET, RC, MNT and unlisted types
(12_grenrus_line.md R409, R413 to R421, R424 to R427, R432 to R434; 04_frame_tick_and_time.md R133, R134, R147, R149;
13_line_failures.md R450, R459; 16_firmware_and_store.md R550; 18_pins_and_host_port.md R594, R595).
-/
namespace Sys2Proof.Machine

/-! ### SYNC -/

/-- Bytes of a SYNC payload (R424). -/
def syncBytes (lt rt0 : Nat) (acc : Int) : List Byte :=
  bytesBE 8 lt ++ bytesBE 4 rt0 ++ bytesBE 4 (acc % 4294967296).toNat

/-- The delay update of R426: `fx` is D_new, ps in fx. -/
def Node.delayUpdate (fx : Int) (n : Node) : Node :=
  n.modLine fun l =>
    match l.delay with
    | none => { l with delay := some fx, rejectRun := 0 }
    | some d =>
      if 100000 * fxOne < (fx - d).natAbs then
        if 2 ≤ l.rejectRun then { l with delay := some fx, rejectRun := 0 }
        else { l with rejectRun := l.rejectRun + 1, rejected := l.rejected + 1 }
      else { l with delay := some (d + (fx - d) / n.parN Pid.lineTfilt 0), rejectRun := 0 }

/-- Line time lies `off` ns ahead of the time in force (R133, R134, R147, R148, R152). -/
def Node.followLine (off : Int) (n : Node) : Node :=
  let n := n.modTime fun t => { t with measuredOffset := -off }
  if n.parN Pid.refTsel 0 = 1 ∨ n.time.fallback ∨ n.time.fallbackDue then n else
  match n.time.mark with
  | .localEpoch => n.modTime fun t => { t with stepDue := some off, slewing := false, offsetPs := 0 }
  | .lineTime => n.correct off
  | .localTime =>
    let n := (n.modTime fun t => { t with returning := true }).correct off
    if n.time.slewing || n.time.stepDue.isSome then n
    else (n.modTime fun t => { t with returning := false }).setMark .lineTime

/-- An outbound SYNC frame that passed its check, stamped now (R425 to R427, R146, R149): the first D after a gain of UP
comes at the second frame; with D, line time is LT64 + D. -/
def Node.takeSync (h : FrameHdr) (x : SyncPayload) (n : Node) : Node :=
  let n := n.modLine fun l => { l with syncs := l.syncs + 1 }
  let n := n.modTime fun t => { t with lastSync := some n.now }
  let fresh := match n.line.rt with
    | some (rt, c) => if (c + 1) % 4294967296 = h.cycle.toNat then some rt else none
    | none => none
  let skew := n.par Pid.lineSkew 0
  let n := match fresh with
    | some rt => n.delayUpdate (((x.rt0.toNat : Int) - rt - 2 * x.acc - skew) * (fxOne / 2))
    | none => n
  match n.line.delay with
  | none => n
  | some d =>
    let line := wrapLt (x.lt.toNat + roundDiv d (1000 * fxOne))
    let n := n.modTime fun t => { t with lineAt := some (line, n.now), windowOpen := t.windowOpen.or (some (line, n.now)) }
    n.followLine (ltDiff line n.lt)

/-- SYNC_FRAME (R424 to R427): `t` is the stamped arrival; the accumulator grows by α, rounded to its ps (R10), as the frame is
forwarded. -/
def execSyncFrame (h : FrameHdr) (x : SyncPayload) (t : Nat) (s : State) : Host.Outcome State Fault Refusal :=
  s.upd fun n => n.whenCellar fun n =>
    let n := n.atT t
    let alpha := roundDiv (x.fRet - x.fOut + n.par Pid.lineSkew 0) 2
    let acc := if n.turns h then x.acc else x.acc + alpha
    n.receive h 0x01 (syncBytes x.lt.toNat x.rt0.toNat acc) fun ret n => if ret then n else n.takeSync h x

/-- Whether a returning frame is one that this node has itself turned around (R403, R405, R409). -/
def Node.turnedHere (n : Node) (h : FrameHdr) : Bool :=
  let out : FrameHdr := { h with ret := false, port := if h.fromTail then .dn else .up }
  n.frameDir out == some false && n.turns out

/-- SYNC_RETURN (R425): `rtPs` is the round trip measured between the departures and arrivals of R425. The turnaround node
stamps the departure of the frame it has sent back; on every other node the returning frame is received and forwarded. -/
def execSyncReturn (h : FrameHdr) (rtPs t : Nat) (s : State) : Host.Outcome State Fault Refusal :=
  s.upd fun n => n.whenCellar fun n =>
    let n := n.atT t
    if n.turnedHere h then (n.send []).modLine fun l => { l with rt := some (rtPs, h.cycle.toNat) } else
    n.receive h 0x01 [] fun ret n =>
      if !ret then n
      else if n.heading then (n.modLine fun l => { l with rt0 := rtPs, rt := some (rtPs, h.cycle.toNat) }).send []
      else n.modLine fun l => { l with rt := some (rtPs, h.cycle.toNat) }

/-! ### CMD and MNT -/

/-- CMD_FRAME (R413). -/
def execCmdFrame (h : FrameHdr) (payload : List Byte) (t : Nat) (s : State) : Host.Outcome State Fault Refusal :=
  s.upd fun n => n.whenCellar fun n =>
    (n.atT t).receive h 0x03 payload fun ret n =>
      if ret then (if n.heading then n.send [] else n) else n.takeEntries payload

/-- MNT_UNFOLD_NOTICE (R459). -/
def execMntUnfoldNotice (h : FrameHdr) (payload : List Byte) (t : Nat) (s : State) : Host.Outcome State Fault Refusal :=
  s.upd fun n => n.whenCellar fun n =>
    (n.atT t).receive h 0x05 payload fun ret n =>
      if ret then (if n.heading then n.send [] else n)
      else if natBE (payload.take 1) = 2 ∧ 5 ≤ payload.length then
        n.modLine fun l => { l with notice := some (natBE ((payload.drop 1).take 4)) }
      else n

/-- An image block of a broadcast (R549, R550). -/
def Node.broadcastBlock (payload : List Byte) (n : Node) : Node :=
  let id := natBE ((payload.drop 1).take 2)
  let off := natBE ((payload.drop 3).take 3)
  let count := natBE ((payload.drop 6).take 2)
  match n.core.fw with
  | some t =>
    if natBE (payload.take 1) = 0x20 ∧ id ≠ 0 ∧ t.id = id ∧ off % 8 = 0 ∧ count % 8 = 0 ∧ 0 < count ∧ off + count ≤ t.length ∧
        payload.length = 8 + count then n.storeWrite (.fwBlock off (payload.drop 8)) none []
    else n
  | none => n

/-- MNT_IMAGE_BLOCK (R550): a node whose core is down ignores the block. -/
def execMntImageBlock (h : FrameHdr) (payload : List Byte) (t : Nat) (s : State) : Host.Outcome State Fault Refusal :=
  s.upd fun n => n.whenCellar fun n =>
    (n.atT t).receive h 0x05 payload fun ret n =>
      if ret then (if n.heading then n.send [] else n) else if n.up then n.broadcastBlock payload else n

/-- UNKNOWN_FRAME (R409). -/
def execUnknownFrame (typ : Byte) (h : FrameHdr) (payload : List Byte) (t : Nat) (s : State) : Host.Outcome State Fault Refusal :=
  s.upd fun n => n.whenCellar fun n =>
    (n.atT t).receive h typ payload fun ret n =>
      let n := n.modLine fun l => { l with unknown := l.unknown + 1 }
      if ret && n.heading then n.send [] else n

/-! ### CYC and the return train -/

/-- The node's outbound slot in a CYC payload (R415): the slot length follows from the payload length and the node count of
the latest roll call, or at the turnaround from the hop count (log entry 35). -/
def Node.slotOf (n : Node) (turn : Bool) (payload : List Byte) : Option (List Byte) :=
  let hop := n.hopCount
  let k := if turn then hop else n.line.count - 1
  if hop = 0 ∨ k = 0 ∨ k < hop then none
  else
    let s := payload.length / k
    some ((payload.drop ((hop - 1) * s)).take s)

/-- A CYC frame that passed its check (R415, R438, R450): the count of cycles without one ends, and the slot goes to the host
while the core is up. -/
def Node.takeCyc (h : FrameHdr) (turn : Bool) (payload : List Byte) (n : Node) : Node :=
  let n := n.modLine fun l => { l with cycSeen := true, cycMiss := 0, cycInjected := false }
  let n := if n.up then n.cease .cycTimeout 0xFF else n
  match n.slotOf turn payload with
  | some slot => if n.up then n.modHost fun x => { x with blocks := [bytesBE 4 h.cycle.toNat ++ slot] } else n
  | none => n

/-- The RET frame of a turnaround node, with its own car (R416). -/
def Node.startRet (h : FrameHdr) (n : Node) : Node :=
  let r := n.car true
  r.2.send [{ typ := 0x06, hdr := { h with ret := true, ending := .good }, payload := r.1 }]

/-- CYC_FRAME (R415, R416): an injection of F.CYC_TIMEOUT discards the frame (R438). -/
def execCycFrame (h : FrameHdr) (payload : List Byte) (t : Nat) (s : State) : Host.Outcome State Fault Refusal :=
  s.upd fun n => n.whenCellar fun n =>
    let n := n.atT t
    if n.up && n.injecting .cycTimeout 0xFF then
      ((n.useInjection .cycTimeout 0xFF (n.parN Pid.lineCycto 0)).modLine fun l => { l with cycInjected := true }).send []
    else
    let turn := n.turns h
    let n := n.receive h 0x02 payload fun ret n => if ret then n.send [] else
      let n := n.takeCyc h turn payload
      if turn then n.startRet h else n
    if turn then n.modLine fun l => { l with sent := l.sent.filter fun f => f.typ == 0x06 } else n

/-- The cars of a return train by hop, from hop 1 on, read from the end of the payload with the car lengths of the latest roll
call (R416, R433); the first argument lists those lengths from hop 1 on. -/
def carsOf : List Nat → List Byte → List (List Byte)
  | [], _ => []
  | c :: cs, bs => if c = 0 || decide (bs.length < c) then [] else (bs.drop (bs.length - c)) :: carsOf cs (bs.take (bs.length - c))

/-- Sets the bits of a list of positions in a map of 128 bytes (R594). -/
def mapOf (ps : List Nat) : List Byte :=
  (List.range 128).map fun i => BitVec.ofNat 8 (([0, 1, 2, 3, 4, 5, 6, 7] : List Nat).foldl (fun a b => a + flag (ps.contains (8 * i + b)) b) 0)

/-- A cycle block becomes ready (R594): the node holds two, the oldest going first. `cars` are the arrived cars by hop from
hop 1 on. -/
def Node.cycleBlock (cycle : Nat) (missed : Bool) (cars : List (List Byte)) (n : Node) : Node :=
  let hops := (List.range (n.line.count - 1)).map (· + 1)
  let gone := (hops.drop cars.length).map n.posOfHop
  let own := n.car false
  let records := cars.reverse ++ [own.1]
  let block := bytesBE 4 cycle ++ bytesBE 2 records.length ++
    bytesBE 1 (flag missed 0 + flag n.line.folded 1 + flag n.line.inTail 2) ++ [0] ++ mapOf gone ++
    records.flatMap fun r => bytesBE 2 r.length ++ r
  own.2.modHost fun h =>
    let bs := h.blocks ++ [block]
    { h with blocks := lastN 2 bs, overrun := h.overrun || decide (2 < bs.length) }

/-- The lengths of the cars of the latest roll call, from hop 1 on. -/
def Line.carLens (l : Line) : List Nat := ((l.roll.filter fun r => r.hop != 0).map RollNode.carLen)

/-- Whether a car shows a DN link that the latest roll call did not (R435): a node that then turned frames around no longer
does. -/
def Line.newLink (l : Line) (cars : List (List Byte)) : Bool :=
  (cars.zip (l.roll.filter fun r => r.hop != 0)).any fun x => !x.2.dnLink && !(natBE (x.1.take 2)).testBit 15

/-- RET_FRAME (R416, R421, R594): the node appends its car; a heading node takes the train for its host. -/
def execRetFrame (h : FrameHdr) (payload : List Byte) (t : Nat) (s : State) : Host.Outcome State Fault Refusal :=
  s.upd fun n => n.whenCellar fun n =>
    (n.atT t).receive h 0x06 payload fun ret n =>
      if !ret then n.send []
      else if n.heading then
        let cars := carsOf n.line.carLens payload
        let n := n.modLine fun l => { l with retCame := true, surveyDue := l.surveyDue || l.newLink cars }
        (n.cycleBlock h.cycle.toNat false cars).send []
      else
        let r := n.car false
        r.2.send [{ typ := 0x06, hdr := r.2.fwdHdr h true .good, payload := payload ++ r.1 }]

/-! ### Roll call at a node -/

/-- RC_FRAME (R432): the node takes the roll call; the turnaround sends it back with its RC car (R409). -/
def execRcFrame (h : FrameHdr) (payload : List Byte) (t : Nat) (s : State) : Host.Outcome State Fault Refusal :=
  s.upd fun n => n.whenCellar fun n =>
    (n.atT t).receive h 0x04 payload fun ret n =>
      if ret then n else
      let n := n.modLine fun l => { l with tailT := if h.fromTail then natBE ((payload.drop 6).take 2) % 1024 else l.tailT }
      let n := n.takeRollCall (natBE (payload.take 1)) (wN (natBE ((payload.drop 1).take 5)))
      if n.turns h then
        let n := n.modLine fun l => { l with count := n.hopCount + 1 }
        n.send [{ typ := 0x04, hdr := n.fwdHdr h false .good, payload := payload ++ n.rcCar }]
      else n

/-- RC_RETURN (R433): the node appends its RC car; the cars before it and its hop count give the node count. -/
def execRcReturn (h : FrameHdr) (payload : List Byte) (t : Nat) (s : State) : Host.Outcome State Fault Refusal :=
  s.upd fun n => n.whenCellar fun n =>
    (n.atT t).receive h 0x04 payload fun ret n =>
      if !ret || n.heading then n.send [] else
      let n := n.modLine fun l => { l with count := n.hopCount + 1 + (payload.length - 8) / 12 }
      n.send [{ typ := 0x04, hdr := n.fwdHdr h true .good, payload := payload ++ n.rcCar }]

end Sys2Proof.Machine
end

