-- ==== Sys2Proof/Machine/HeadRows.lean ====
section
/-!
DEFINITION. The line cycle at a heading node, roll calls, folding and unfolding, links and roles, the timeout of CYC frames,
and LINE_STATS, ROLLCALL, RELOCK, FOLD and UNFOLD (12_grenrus_line.md R401, R403, R410, R411, R414, R415, R421, R423, R424,
R431 to R439; 13_line_failures.md R449 to R459; 18_pins_and_host_port.md R591 to R594, R599).
-/
namespace Sys2Proof.Machine

/-! ### Commands -/

/-- Adds a roll call to those waiting (R431). -/
def Node.addRoll (k : RollKind) (ops : List Nat) (n : Node) : Node :=
  n.modLine fun l => { l with rolls := l.rolls ++ [{ kind := k, ops := ops }] }

/-- ROLLCALL with SURVEY (R431): accepted where frames are originated. -/
def cmdRollcallSurvey (op : PoolOp) (n : Node) : Ans × Node :=
  if !n.heading then (.fail .refusedUnsafe, n) else (.wait, n.addRoll .survey [op.order])

/-- ROLLCALL with ASSIGN (R431, R455). -/
def cmdRollcallAssign (op : PoolOp) (n : Node) : Ans × Node :=
  if !n.heading || n.line.folded then (.fail .refusedUnsafe, n) else (.wait, n.addRoll (.assign (pw op.packet 1)) [op.order])

/-- RELOCK (R437, R455). -/
def cmdRelock (op : PoolOp) (n : Node) : Ans × Node :=
  if fld (pw op.packet 0) 9 0 ≠ n.hopCount then (.fail .refusedUnsafe, n)
  else (.ok [], n.modLine fun l => { l with lock := some (n.posOfHop n.hopCount, n.line.rcSig.getD 0), outcome := some 1 })

/-- FOLD (R451): at a head or tail head of an unfolded line it waits for the next cycle start. -/
def cmdFold (op : PoolOp) (n : Node) : Ans × Node :=
  if n.line.role ≠ .head ∧ n.line.role ≠ .tailHead then (.fail .refusedUnsafe, n)
  else if n.line.folded then (.ok [], n)
  else (.wait, n.modLine fun l => { l with foldOps := l.foldOps ++ [op.order] })

/-- UNFOLD (R458). -/
def cmdUnfold (op : PoolOp) (n : Node) : Ans × Node :=
  let c := fld (pw op.packet 0) 31 0
  let d := (c + 4294967296 - n.cycleNo) % 4294967296
  if !(n.heading && n.line.folded) then (.fail .refusedUnsafe, n)
  else if d < 2 ∨ 65535 < d then (.fail .outOfRange, n)
  else (.wait, n.modLine fun l => { l with unfoldAt := some (c, (l.unfoldAt.elim [] Prod.snd) ++ [op.order]) })

/-- LINE_STATS (R439). -/
def cmdLineStats (_ : PoolOp) (n : Node) : Ans × Node :=
  let l := n.line
  let d := l.delay.elim 0 fun d => roundDiv d fxOne
  (.ok [wN l.framesOk, wN l.crcUp, wN l.crcDn, wN l.corrupted, wN l.noCyc, wN (l.lossUp % 1048576 + l.lossDn % 1048576 * 1048576),
        wI d, wN (l.rt.elim 0 Prod.fst), wN l.rejected, wN l.missed], n)

/-! ### The cycle of a heading node -/

/-- Whether a destination is the heading node's own (R414, R453). -/
def Node.selfEntry (n : Node) (dest : Nat) : Bool :=
  (dest / 1024 == 0 && dest % 1024 == n.posOfHop 0) || dest == 1024

/-- Takes entries of the line queue in order into a CMD payload with `room` bytes left (R414): the heading node's own are
executed, those to every node are both sent and executed, and the first that does not fit waits with what follows. -/
def Node.fillCmd : List (BitVec 16 × List Byte) → Nat → List Byte → Node → List Byte × List (BitVec 16 × List Byte) × Node
  | [], _, acc, n => (acc, [], n)
  | e :: es, room, acc, n =>
    let bs := bytesBE 2 e.1.toNat ++ bytesBE 2 e.2.length ++ e.2
    if n.selfEntry e.1.toNat then fillCmd es room acc (n.lineArrive e.2)
    else if bs.length ≤ room then
      fillCmd es (room - bs.length) (acc ++ bs) (if e.1.toNat / 1024 = 2 && n.addressed e.1.toNat then n.lineArrive e.2 else n)
    else (acc, e :: es, n)

/-- The line queue falls below half after having been above it (R599). -/
def Node.lineqCause (n : Node) : Node :=
  if n.host.lineqHigh && decide (n.host.lineUsed < 8192) then (n.modHost fun h => { h with lineqHigh := false }).cause 5 else n

/-- The payload of the CYC frame (R415, R593): the slots written at least 10 µs before, else zero slots. -/
def Node.cycPayload (n : Node) : List Byte :=
  let len := (n.line.count - 1) * n.parN Pid.lineOutlen 0
  let bs := match n.host.slots with
    | some (e, bs) => if e + 10000 ≤ n.now then bs else n.host.slotsOld
    | none => []
  if bs.length = len then bs else List.replicate len 0

/-- The header of a frame that the node originates (R406, R452, R453). -/
def Node.ownHdr (n : Node) : FrameHdr :=
  let tail := n.line.role != .head
  { port := if tail then .up else .dn, ending := .good, ret := false, fromTail := tail, folded := n.line.folded
    tailPresent := n.line.tailPresent, hop := 0, cycle := BitVec.ofNat 32 n.line.cycle, cycleUs := BitVec.ofNat 24 n.line.cycleUs }

/-- A return train that has not arrived by the next cycle start is a missed cycle (R421, R594). -/
def Node.judgeReturn (n : Node) : Node :=
  if n.line.cyclesSent && !n.line.retCame then
    (n.modLine fun l => { l with missed := l.missed + 1 }).cycleBlock n.line.cycle true []
  else n

/-- The RC frame of a roll call, which the heading node takes part in itself (R431, R432, R453). -/
def Node.sendRoll (r : RollCall) (sync : TxFrame) (n : Node) : Node :=
  let (mode, sig) : Nat × Word := match r.kind with
    | .assign sig => (1, sig)
    | _ => (0, n.line.lock.elim 0 Prod.snd)
  let n := n.takeRollCall mode sig
  let n := n.modLine fun l =>
    { l with rolls := { r with sent := true } :: l.rolls.drop 1, cyclesSent := false, retCame := true }
  let t := if n.line.role = .head then 0 else n.line.tailT
  let payload := bytesBE 1 mode ++ wordBytes sig ++ bytesBE 2 t
  n.send [sync, { typ := 0x04, hdr := n.ownHdr, payload := payload }]

/-- The heading node's own open transfer takes a broadcast block (R550). -/
def Node.broadcastSelf (p : List Byte) (n : Node) : Node := if n.up then n.broadcastBlock p else n

/-- The frame that goes with SYNC and CYC (R410, R414, R459, R592): an unfold notice, a queued MNT payload, or a CMD frame. -/
def Node.sendExtra (n : Node) : List TxFrame × Node :=
  let hdr := n.ownHdr
  match n.line.unfoldAt with
  | some (c, _) => ([{ typ := 0x05, hdr := hdr, payload := bytesBE 1 2 ++ bytesBE 4 c }], n)
  | none =>
    match n.host.mntQueue with
    | p :: ps => ([{ typ := 0x05, hdr := hdr, payload := p }], (n.modHost fun h => { h with mntQueue := ps }).broadcastSelf p)
    | [] =>
      let r := Node.fillCmd n.host.lineQueue (n.line.allow.getD (n.parN Pid.lineCmdbytes 0)) [] n
      let n := (r.2.2.modHost fun h => { h with lineQueue := r.2.1 }).lineqCause
      (if r.1.isEmpty then [] else [{ typ := 0x03, hdr := hdr, payload := r.1 }], n)

/-- A line-cycle start at a heading node (R410, R411, R421, R435): a new cycle length comes into force where a cycle of it
starts at or after the end of the cycle in progress. -/
def Node.cycleStart (n : Node) : Node :=
  let len := n.cycleLen
  let early := n.line.cycStart.any fun e => decide (ltSub n.lt e < n.line.cycleNow)
  if !n.heading || n.lt % len != 0 || early then n else
  let n := n.judgeReturn
  let n := (n.modLine fun l =>
    { l with cycStart := some n.lt, cycleNow := len, cycle := n.cycleNo, cycleUs := len / 1000 }).cause 2
  let n := if n.line.surveyDue then
      let n := n.modLine fun l => { l with surveyDue := false }
      if n.parN Pid.lineRcauto 0 = 1 ∧ n.line.rolls.isEmpty then n.addRoll .survey [] else n
    else n
  let sync : TxFrame := { typ := 0x01, hdr := n.ownHdr, payload := syncBytes n.lt n.line.rt0 0 }
  match n.line.rolls with
  | r :: _ => n.sendRoll r sync
  | [] =>
    let n := n.modLine fun l => { l with rollCycle := false }
    let x := n.sendExtra
    let n := x.2
    if n.line.noCycSent then (n.modLine fun l => { l with cyclesSent := false, retCame := true }).send (sync :: x.1)
    else (n.modLine fun l => { l with cyclesSent := true, retCame := false }).send
      (sync :: x.1 ++ [{ typ := 0x02, hdr := n.ownHdr, payload := n.cycPayload }])

/-! ### The end of a roll call -/

/-- A node as its RC car shows it (R433). -/
def rollNodeOf (bs : List Byte) : RollNode :=
  let w := natBE (bs.take 2)
  { hop := w % 1024, coreDown := w.testBit 10, headen := w.testBit 11, dnLink := w.testBit 12, kept := w.testBit 13
    outcome := natBE ((bs.drop 2).take 1) % 4, stored := natBE ((bs.drop 3).take 2) % 1024
    carLen := 2 + natBE ((bs.drop 5).take 1) + natBE ((bs.drop 6).take 1) }

/-- The RC cars of a payload in the order they were appended (R433). -/
def rcCars : Nat → List Byte → List RollNode
  | 0, _ => []
  | f + 1, bs => if bs.length < 12 then [] else rollNodeOf bs :: rcCars f (bs.drop 12)

/-- The word of a node in the reply of ROLLCALL (R434). -/
def RollNode.word (r : RollNode) : Word :=
  wN (r.hop + r.outcome * 2 ^ 10 + r.stored * 2 ^ 12 + flag r.coreDown 22 + flag r.kept 23)

/-- Ends several commands with one outcome. -/
def Node.endOrders (os : List Nat) (s : Status) (ws : List Word) (n : Node) : Node := eachOf os (fun o m => m.endOrder o s ws) n

/-- The RC frame has returned to the heading node (R422, R423, R434, R452, R453, R459, R593). -/
def Node.rollComplete (payload : List Byte) (n : Node) : Node :=
  match n.line.rolls with
  | [] => n
  | r :: rest =>
    if !r.sent then n else
    let own := { rollNodeOf n.rcCar with carLen := 0 }
    let nodes := own :: (rcCars payload.length (payload.drop 8)).reverse
    let count := nodes.length
    let same := decide (count = n.line.count)
    let n := n.modLine fun l =>
      { l with
        roll := nodes, count := count, rolls := rest, rollRt0 := l.rt0
        tailPresent := if l.role = .head then decide (1 < count) && (nodes.getLast?.elim false RollNode.headen) else l.tailPresent
        tailB := if l.role = .head then l.tailB else (l.tailT + 1024 - count) % 1024 }
    let n := if same then n else n.modHost fun h => { h with slots := none, slotsOld := [] }
    let n := n.headJudged
    let ok := (nodes.filter fun x => x.outcome == 1).length
    let bad := (nodes.filter fun x => x.outcome == 2).length
    let ws := match r.kind with
      | .fold => [if n.line.role = .head then wN count else wN (n.line.tailB + count * 1024)]
      | .unfold => [wN count]
      | _ => [wN (count + ok * 2 ^ 11 + bad * 2 ^ 22), wN (n.minCycleIn 1000)] ++ nodes.map RollNode.word
    n.endOrders r.ops .done ws

/-! ### Links and roles -/

/-- A line port gains or loses link (R401, R427, R439): the role follows at the next cycle start. -/
def Node.linkChange (q : LinePort) (on : Bool) (n : Node) : Node :=
  let was := match q with | .up => n.line.linkUp | .dn => n.line.linkDn
  if was = on then n else
  n.modLine fun l =>
    match q with
    | .up =>
      if on then { l with linkUp := true, syncs := 0, delay := none, rt := none, rejectRun := 0 }
      else { l with linkUp := false, lossUp := l.lossUp + 1 }
    | .dn =>
      let l := if on && l.inTail then { l with syncs := 0, delay := none, rt := none, rejectRun := 0 } else l
      if on then { l with linkDn := true } else { l with linkDn := false, lossDn := l.lossDn + 1 }

/-- EV.TOPOLOGY for a change on a port (R449): on the tail segment the ports are exchanged. -/
def Node.topologyEvent (q : LinePort) (on : Bool) (n : Node) : Node :=
  let pos := n.lockPos
  let brk := match q with
    | .dn => (pos + 1) % 1024
    | .up => (pos + 1023) % 1024
  let dnSide := if n.line.inTail then q == .up else q == .dn
  let kind := (if dnSide then 0 else 2) + (if on then 1 else 0)
  if n.up then n.event .topology 0xFF n.stamp [wN (brk + kind * 2 ^ 10 + pos * 2 ^ 12 + flag n.line.folded 22)] else n

/-- A change of link is applied at a cycle start (R401, R403, R449, R457): while the line is folded, the last node of the
head segment and the turnaround of the tail segment keep turning frames around. -/
def Node.topologyChange (n : Node) : Node :=
  let l := n.line
  let n := if l.linkUp != l.seenUp then (n.topologyEvent .up l.linkUp).modLine fun l => { l with seenUp := l.linkUp } else n
  let n := if l.linkDn != l.seenDn then (n.topologyEvent .dn l.linkDn).modLine fun l => { l with seenDn := l.linkDn } else n
  let n := n.modLine fun l =>
    { l with
      roleUp := if l.folded && l.inTail && l.linkUp then l.roleUp else l.linkUp
      roleDn := if l.folded && !l.inTail && l.linkDn then l.roleDn else l.linkDn }
  n.roleInForce

/-- No CYC frame has passed its check for LINE.CYCTO cycles (R438, R450). -/
def Node.cycTimeout (n : Node) : Node :=
  if !n.heading && decide (n.parN Pid.lineCycto 0 ≤ n.line.cycMiss) then
    n.trip .cycTimeout FaultCode.cycTimeout.dfltClass 0xFF 0 n.line.cycInjected
  else n

/-! ### Folding -/

/-- A FOLD takes effect (R452, R453, R456): the roll call of the segment comes first. -/
def Node.foldEffect (n : Node) : Node :=
  if n.line.foldOps.isEmpty then n else
  let r : RollCall := { kind := .fold, ops := n.line.foldOps }
  let n := n.modLine fun l => { l with foldOps := [], folded := true, rolls := r :: l.rolls }
  if n.line.role = .head then n
  else
    let len := if n.line.cycleUs = 0 then 4000000 else n.line.cycleUs * 1000
    let n := n.modLine fun l =>
      { l with heading := true, inTail := true, tailT := n.lockPos, hops := some 0, cycleNow := len, cycStart := none, delay := none }
    (n.modTime fun t => { t with slewing := false, offsetPs := 0, stepDue := none, returning := false }).setMark .lineTime

/-- A node stops heading (R459, R591). -/
def Node.stopHeading (n : Node) : Node :=
  let lost := n.host.lineQueue.length
  let n := n.modLine fun l => { l with heading := false, cycStart := none, cyclesSent := false, rolls := [] }
  ((n.modHost fun h => { h with lineQueue := [], lineqHigh := false }).hostErrors lost).cause 6

/-- Cycle c of an unfolding starts (R459). -/
def Node.unfoldCycle (n : Node) : Node :=
  let now := n.cycleNo
  let told := n.line.unfoldAt.any fun x => decide (x.1 = now)
  let noticed := n.line.notice == some now
  if !told && !noticed then n else
  let ops := if told then n.line.unfoldAt.elim [] Prod.snd else []
  let tailHead := n.heading && n.line.role != .head
  let n := n.modLine fun l =>
    { l with
      unfoldAt := none, notice := none, folded := false, roleUp := l.linkUp, roleDn := l.linkDn
      delay := if l.inTail then none else l.delay, rt := if l.inTail then none else l.rt, inTail := false, tailT := 0, tailB := 0 }
  if tailHead then n.stopHeading.roleInForce.endOrders ops .done []
  else
    let n := n.roleInForce
    if told then n.addRoll .unfold ops else n

/-! ### Rows -/

/-- ROLLCALL_SURVEY. -/
def execRollcallSurvey (p : Packet) (s : State) : Host.Outcome State Fault Refusal :=
  s.upd (Node.packetRow cmdRollcallSurvey (withBits 0 2 0 (asRow .rollcall p)))

/-- ROLLCALL_ASSIGN. -/
def execRollcallAssign (p : Packet) (s : State) : Host.Outcome State Fault Refusal :=
  s.upd (Node.packetRow cmdRollcallAssign (withBits 0 2 1 (asRow .rollcall p)))

/-- RELOCK. -/
def execRelock (p : Packet) (s : State) : Host.Outcome State Fault Refusal := s.upd (Node.packetRow cmdRelock (asRow .relock p))

/-- FOLD. -/
def execFold (p : Packet) (s : State) : Host.Outcome State Fault Refusal := s.upd (Node.packetRow cmdFold (asRow .fold p))

/-- UNFOLD. -/
def execUnfold (p : Packet) (s : State) : Host.Outcome State Fault Refusal := s.upd (Node.packetRow cmdUnfold (asRow .unfold p))

/-- LINE_STATS. -/
def execLineStats (p : Packet) (s : State) : Host.Outcome State Fault Refusal :=
  s.upd (Node.packetRow cmdLineStats (asRow .lineStats p))

/-- CYCLE_START. -/
def execCycleStart (t : Nat) (s : State) : Host.Outcome State Fault Refusal :=
  s.upd fun n => n.whenCellar fun n => ((n.atT t).send []).cycleStart

/-- ROLLCALL_COMPLETE. -/
def execRollcallComplete (h : FrameHdr) (payload : List Byte) (t : Nat) (s : State) : Host.Outcome State Fault Refusal :=
  s.upd fun n => n.whenCellar fun n =>
    (n.atT t).receive h 0x04 payload fun ret n => if ret && n.heading then (n.send []).rollComplete payload else n

/-- LINK_GAIN. -/
def execLinkGain (q : LinePort) (t : Nat) (s : State) : Host.Outcome State Fault Refusal :=
  s.upd fun n => n.whenCellar fun n => (n.atT t).linkChange q true

/-- LINK_LOSS. -/
def execLinkLoss (q : LinePort) (t : Nat) (s : State) : Host.Outcome State Fault Refusal :=
  s.upd fun n => n.whenCellar fun n => (n.atT t).linkChange q false

/-- TOPOLOGY_CHANGE. -/
def execTopologyChange (t : Nat) (s : State) : Host.Outcome State Fault Refusal :=
  s.upd fun n => n.whenCellar fun n => (n.atT t).topologyChange

/-- CYC_TIMEOUT. -/
def execCycTimeout (t : Nat) (s : State) : Host.Outcome State Fault Refusal :=
  s.upd fun n => n.whenUp fun n => (n.atT t).cycTimeout

/-- FOLD_TAKE_EFFECT. -/
def execFoldTakeEffect (t : Nat) (s : State) : Host.Outcome State Fault Refusal :=
  s.upd fun n => n.whenUp fun n => (n.atT t).foldEffect

/-- UNFOLD_CYCLE. -/
def execUnfoldCycle (t : Nat) (s : State) : Host.Outcome State Fault Refusal :=
  s.upd fun n => n.whenCellar fun n => (n.atT t).unfoldCycle

end Sys2Proof.Machine
end

