-- ==== Sys2Proof/Machine/RefRows.lean ====
section
/-!
DEFINITION. The voltage-reference monitor: its windows, blame, creep, the switch of outputs, and REF_STATUS
(15_faults_and_pitch_points.md R522 to R528).
-/
namespace Sys2Proof.Machine

/-- The three pairs' deviations. -/
abbrev Devs := Int × Int × Int

/-- Whether a pair lies beyond a limit. -/
def beyond (h : Int) (d : Int) : Bool := decide (h < d.natAbs)

/-- Whether some pair lies beyond a limit. -/
def Devs.any (h : Int) (d : Devs) : Bool := beyond h d.1 || beyond h d.2.1 || beyond h d.2.2

/-- The reference whose two pairs both exceed `h` while the third does not (R524): 0 REF_A, 1 REF_B, 2 REF_M, 3 none. -/
def blame (h : Int) (d : Devs) : Nat :=
  match beyond h d.1, beyond h d.2.1, beyond h d.2.2 with
  | true, false, true => 0
  | false, true, true => 1
  | true, true, false => 2
  | _, _, _ => 3

/-- The deviation of largest magnitude (R523). -/
def Devs.largest (d : Devs) : Int :=
  let x := if d.1.natAbs < d.2.1.natAbs then d.2.1 else d.1
  if x.natAbs < d.2.2.natAbs then d.2.2 else x

/-- The sum of the ten windows from the `i`-th latest on, less that of the ten ending 60 windows earlier (R525): ten times
the creep rate in ppm per minute. -/
def creepSum (f : Devs → Int) (hist : List Devs) : Int :=
  ((hist.take 10).foldl (fun a d => a + f d) 0) - (((hist.drop 60).take 10).foldl (fun a d => a + f d) 0)

/-- Ten times the creep rates of the three pairs (R525). -/
def creepSums (hist : List Devs) : Devs := (creepSum (·.1) hist, creepSum (·.2.1) hist, creepSum (·.2.2) hist)

/-- What a window comes to (R523, R524): band, creep, blamed reference. -/
structure RefVerdict where
  band : Nat
  creep : Bool
  blamed : Nat
  deriving DecidableEq, Repr

/-- The judgement of a window (R523, R524): `fault` says that this is the second consecutive window beyond the fault band. -/
def judgeRefs (fitted fault : Bool) (closed : Nat) (hist : List Devs) (d : Devs) : RefVerdict :=
  let creeps := creepSums hist
  let warn := d.any 2500
  let creep := !warn && decide (70 ≤ closed) && creeps.any 5000
  let who := fun (h : Int) (x : Devs) => if fitted then blame h x else 3
  if fault then { band := 2, creep := false, blamed := who 3750 d }
  else if warn then { band := 1, creep := false, blamed := who 1250 d }
  else if creep then { band := 0, creep := true, blamed := who 5000 creeps }
  else { band := 0, creep := false, blamed := 3 }

/-- The rank of a verdict's kind: none, creep, warning, fault. -/
def RefVerdict.rank (v : RefVerdict) : Nat := if v.band = 2 then 3 else if v.band = 1 then 2 else if v.creep then 1 else 0

/-- The context word of F.REF_V (R523): bits [39:16] the deviation of largest magnitude, signed. -/
def refCtx (v : RefVerdict) (d : Devs) : Word :=
  wN (v.blamed + v.band * 4 + ((d.largest + 2 ^ 24) % 2 ^ 24).toNat * 65536)

/-- The response of SWITCH (R526): where REF_A or REF_B is blamed and the other lies inside the warning band against
REF_M, every output on the blamed reference is to change. -/
def Node.refRespond (v : RefVerdict) (d : Devs) (n : Node) : Node :=
  let other := if v.blamed = 0 then d.2.1 else d.1
  if v.band = 2 && n.parN Pid.refAction 0 == 1 && decide (v.blamed < 2) && !beyond 2500 other then
    eachCh (fun c m =>
      if m.parN Pid.dacRef c.val = v.blamed then
        m.modFaults fun f => { f with refs := { f.refs with switchTo := f.refs.switchTo.set c (some (v.blamed == 0)) } }
      else m) n
  else n

/-- The class of F.REF_V (R523, R526): 2 only in the fault band with REF.ACTION PARK and REF_M not blamed. -/
def Node.refClass (n : Node) (v : RefVerdict) : Nat :=
  if v.band = 2 ∧ n.parN Pid.refAction 0 = 2 ∧ v.blamed ≠ 2 then 2 else 1

/-- Reports F.REF_V (R506, R523): at its first kind, and again when a window shows a higher kind than the one before it. -/
def Node.refReport (v : RefVerdict) (was : Nat) (ctx : Word) (inj : Bool) (n : Node) : Node :=
  if v.rank = 0 then n.cease .refV 0xFF
  else if was < v.rank then
    n.modFaults fun f => { f with verdicts := f.verdicts ++ [{ code := .refV, cls := n.refClass v, scope := 0xFF, ctx := ctx, injected := inj }] }
  else n.trip .refV (n.refClass v) 0xFF ctx inj

/-- F.REF_V at the CASK entry after a failed cross-check (R100): judged in the fault band, as R523 to R526 set. -/
def Node.steepRefs (r : SteepResults) (inj : Bool) (n : Node) : Node :=
  let d : Devs := if r.refBFitted then r.refDevs else (r.refDevs.1, 0, 0)
  let v : RefVerdict := { band := 2, creep := false, blamed := if r.refBFitted then blame 3750 d else 3 }
  (n.trip .refV (n.refClass v) 0xFF (refCtx v d) inj).refRespond v d

/-- REF_WINDOW_CLOSE (R522 to R526): the deviations of the window in ppm; without REF_B only the first exists. -/
def execRefWindowClose (dAM dBM dAB : Int) (t : Nat) (s : State) : Host.Outcome State Fault Refusal :=
  s.upd fun n => n.whenUp fun n =>
    let n := n.atT t
    let r := n.core.faults.refs
    let inj := n.injecting .refV 0xFF
    let add : Int := if inj then 8000 else 0
    let d : Devs := if r.fitted then (dAM + add, dBM, dAB + add) else (dAM + add, 0, 0)
    let hist := (d :: r.hist).take 70
    let faults := if d.any 7500 then r.faultWindows + 1 else 0
    let v := judgeRefs r.fitted (decide (2 ≤ faults)) (r.closed + 1) hist d
    let was := (RefVerdict.mk r.band r.creep r.blamed).rank
    let n := (n.useInjection .refV 0xFF 1).modFaults fun f =>
      { f with refs := { r with
          hist := hist, closed := r.closed + 1, faultWindows := faults, blamed := v.blamed, band := v.band, creep := v.creep } }
    (n.refReport v was (refCtx v d) inj).refRespond v d

/-- REF_SWITCH (R526): at its group's strobe an output changes to the other reference; its code is unchanged. -/
def execRefSwitch (grpB : Bool) (t : Nat) (s : State) : Host.Outcome State Fault Refusal :=
  s.upd fun n => n.whenUp fun n =>
    eachCh (fun c m =>
      match m.core.faults.refs.switchTo.get c with
      | none => m
      | some b =>
        if !m.inGroup grpB c then m else
        let m := (m.setPar Pid.dacRef c.val (wN (flag b 0))).modOut c fun o => { o with switched := true }
        m.modFaults fun f => { f with refs := { f.refs with switchTo := f.refs.switchTo.set c none } }) (n.atT t)

/-- The creep rate of a pair as REF_STATUS shows it (R525, R528). -/
def creepWord (x : Int) : Word := wI (roundDiv x 10)

/-- The creep rates as REF_STATUS shows them: before 70 windows have closed the spec states no value (log entry 37). -/
def Node.creepWords (n : Node) : List Word × Node :=
  let r := n.core.faults.refs
  let c := creepSums r.hist
  if 70 ≤ r.closed then ([creepWord c.1, creepWord c.2.1, creepWord c.2.2], n) else
  let a := n.drawFree
  let b := a.2.drawFree
  let x := b.2.drawFree
  if r.fitted then ([wN a.1, wN b.1, wN x.1], x.2) else ([wN a.1, 0, 0], a.2)

/-- REF_STATUS (R528). -/
def cmdRefStatus (_ : PoolOp) (n : Node) : Ans × Node :=
  let r := n.core.faults.refs
  let d := r.hist.headD (0, 0, 0)
  let moved := chBits 6 fun c => (n.core.outs.get c).switched
  let c := n.creepWords
  (.ok ([wI d.1, wI d.2.1, wI d.2.2] ++ c.1 ++
    [wN (r.blamed + r.band * 4 + flag r.creep 4 + flag r.fitted 5 + moved), wI n.time.devPpb]), c.2)

/-- REF_STATUS. -/
def execRefStatus (p : Packet) (s : State) : Host.Outcome State Fault Refusal :=
  s.upd (Node.packetRow cmdRefStatus (asRow .refStatus p))

end Sys2Proof.Machine
end

