-- ==== Sys2Proof/Machine/Session.lean ====
section
/-!
DEFINITION. The session commands: PING, OPEN_SESSION, CLOSE_SESSION, SUBSCRIBE, REPLAY, DESCRIBE, KEY_SET, and the
session timeout (02_commands_and_clients.md R61 to R70, R81 to R84; 17_opcode_reference.md R562 to R567; R47).
-/
namespace Sys2Proof.Machine

/-- PING (R562). -/
def cmdPing (op : PoolOp) (n : Node) : Ans × Node := (.ok op.packet.words, n)

/-- The class of an OPEN_SESSION code (R563). -/
def classOf : Nat → PermClass
  | 0 => .observer
  | 1 => .operator
  | 2 => .engineer
  | _ => .maintainer

/-- OPEN_SESSION (R61, R62, R563): a fresh nonce, no subscriptions, the replay cache as it stands. -/
def cmdOpenSession (op : PoolOp) (n : Node) : Ans × Node :=
  let id := op.packet.client
  if (n.session id).isSome then (.fail .busy, n) else
  let nonce := Config.nonce n.nonces
  let new : Session := { id := id, cls := classOf (fld (pw op.packet 0) 1 0), nonce := nonce, lastNs := n.now }
  let n : Node := { n with nonces := n.nonces + 1, sessions := n.sessions ++ [new] }
  (.ok [wN (nonce.toNat / 2 ^ 32), wN (nonce.toNat % 2 ^ 32)], n.setClient { n.clientRec (.line id) with subs := [] })

/-- Discards a client's undelivered events (R564); an event already partly sent goes out whole. -/
def Node.dropEvents (c : Client) (n : Node) : Node :=
  let keep := fun (x : OutItem) => !(x.isEvent && x.dest == c)
  match n.stream with
  | [] => n
  | x :: xs => if 0 < n.streamSent then { n with stream := x :: xs.filter keep } else { n with stream := (x :: xs).filter keep }

/-- Releases the channels a client owns (R64, R69): in DRIVE each stops and then holds, its loop enabled and unowned. -/
def Node.releaseChannels (id : BitVec 8) (n : Node) : Node :=
  eachCh (fun c m =>
    if (m.core.slots.get c).owner = some id then
      (if m.slotRunning c then m.stopBy c else m).modSlot c fun s => { s with owner := none }
    else m) n

/-- The packet by which the lower member tells its partner that a client's session has closed (DESIGN CHOICE, log entry 110). -/
def closePacket (id : BitVec 8) : Packet :=
  asRow .closeSession
    { port := .line, opcode := 0, client := id, tag := 4095, greenOk := false, finalOnly := true, scheduled := false, mask := 0
      tick := 0, words := [], mac := none }

/-- A client's commands that have not committed (R64); of one relayed to the partner, its commit tick has not come (R479). -/
def Node.uncommitted (n : Node) (c : Client) : List PoolOp :=
  n.core.pool.filter fun o =>
    o.client == c && o.phase == .waiting && o.side != .heldForPair && !(o.side == .sent && kLe o.due n.time.k48)

/-- The channels of a closing session (R64, R69): sessions and ownership of a pair are held at the lower member (R477), so the upper
one releases none by itself, and the lower one has its partner release channels 4 to 7 (log entry 110). -/
def Node.releasePair (id : BitVec 8) (n : Node) : Node :=
  if n.isUpper then n
  else
    let n := n.releaseChannels id
    if n.isLower then n.laneSend n.lane.partnerPort (.relay (closePacket id) (wrapK (n.time.k48 + 1))) else n

/-- The upper member learns that a session of the pair has closed (R64, R477): the client's commands that still wait end with no
result, since the lower member has ended them, and its channels are released. -/
def Node.pairClosed (id : BitVec 8) (n : Node) : Node :=
  let open_ := n.core.pool.filter fun o => o.client == .line id && o.phase == .waiting && o.side == .heldForPair
  (eachOf open_ (fun o m => m.dropOp o.order) n).releaseChannels id

/-- A line session closes (R64, R552, R564). -/
def Node.closeSession (id : BitVec 8) (n : Node) : Node :=
  let c := Client.line id
  let n := eachOf (n.uncommitted c) (fun o m => m.endWhole o .aborted) n
  let n := (n.releasePair id).endTransferOf c
  let n := { n with sessions := n.sessions.filter fun s => s.id != id }
  (n.setClient { n.clientRec c with subs := [] }).dropEvents c

/-- CLOSE_SESSION (R64, R564). -/
def cmdCloseSession (op : PoolOp) (n : Node) : Ans × Node := (.ok [], n.closeSession op.packet.client)

/-- The event codes a SUBSCRIBE lists, without repeats. -/
def listedCodes (p : Packet) : List EventCode := ((p.words.drop 1).filterMap fun w => EventCode.ofCode (fld w 15 0)).eraseDups

/-- The subscriptions after a SUBSCRIBE (R565). -/
def subscribed (p : Packet) (old : List EventCode) : List EventCode :=
  match fld (pw p 0) 1 0 with
  | 0 => listedCodes p
  | 1 => old ++ (listedCodes p).filter fun e => !old.contains e
  | 2 => old.filter fun e => !(listedCodes p).contains e
  | _ => EventCode.all

/-- SUBSCRIBE (R565). -/
def cmdSubscribe (op : PoolOp) (n : Node) : Ans × Node :=
  let r := n.clientRec op.client
  let s := subscribed op.packet r.subs
  (.ok [wN s.length], n.setClient { r with subs := s })

/-- A place of the replay cache as REPLAY lists it (R566). -/
def cacheWord (c : CachedReply) : Word :=
  let r := c.pkts.getLast?
  wN (c.tag.toNat + (r.elim 0 ReplyPkt.opcode) * 2 ^ 12 + (r.elim 0 ReplyPkt.status) * 2 ^ 20 + 2 ^ 28)

/-- REPLAY (R566): the cached reply again, then DONE; with LIST the 16 places, newest first. -/
def cmdReplay (op : PoolOp) (n : Node) : Ans × Node :=
  let w := pw op.packet 0
  let cache := (n.clientRec op.client).cache
  if bitOf w 12 then (.ok (((cache.map cacheWord) ++ List.replicate 16 0).take 16), n) else
  let tag := fld w 11 0
  match cache.find? fun e => e.tag.toNat == tag with
  | some e => (.ok [1], n.emitAll op.client (e.pkts.map fun r => { r with replayed := true }))
  | none => (.ok [wN (flag (n.core.pool.any fun o => o.client == op.client && o.packet.tag.toNat == tag) 1)], n)

/-- The words of DESCRIBE (R47). -/
def Node.describeWords (n : Node) : List Word :=
  let l := n.line.lock
  [wN 0x4158513430, wN (Config.silicon * 2 ^ 32 + n.version),
   wN (l.elim 0 Prod.fst + n.lockState * 2 ^ 10 + n.line.rcHops % 1024 * 2 ^ 12), l.elim 0 Prod.snd]

/-- DESCRIBE (R47). -/
def cmdDescribe (_ : PoolOp) (n : Node) : Ans × Node := (.ok n.describeWords, n)

/-- KEY_SET (R567): the key is in force from the commit tick; DONE follows when the node page has been written. -/
def cmdKeySet (op : PoolOp) (n : Node) : Ans × Node :=
  let p := op.packet
  let k := (((pw p 1).toNat * 2 ^ 32 + (pw p 2).toNat) * 2 ^ 32 + (pw p 3).toNat) * 2 ^ 32 + (pw p 4).toNat
  let n := n.modStore fun s => { s with key := if fld (pw p 0) 0 0 = 0 then some (BitVec.ofNat 128 k) else none }
  (.wait, n.storeWrite .nodePage (some op.order) [])

/-! ### Rows -/

/-- PING. -/
def execPing (p : Packet) (s : State) : Host.Outcome State Fault Refusal := s.upd (Node.packetRow cmdPing (asRow .ping p))

/-- OPEN_SESSION. -/
def execOpenSession (p : Packet) (s : State) : Host.Outcome State Fault Refusal :=
  s.upd (Node.packetRow cmdOpenSession (asRow .openSession p))

/-- CLOSE_SESSION. -/
def execCloseSession (p : Packet) (s : State) : Host.Outcome State Fault Refusal :=
  s.upd (Node.packetRow cmdCloseSession (asRow .closeSession p))

/-- SUBSCRIBE, operation SET. -/
def execSubscribeSet (p : Packet) (s : State) : Host.Outcome State Fault Refusal :=
  s.upd (Node.packetRow cmdSubscribe (withBits 0 2 0 (asRow .subscribe p)))

/-- SUBSCRIBE, operation ADD. -/
def execSubscribeAdd (p : Packet) (s : State) : Host.Outcome State Fault Refusal :=
  s.upd (Node.packetRow cmdSubscribe (withBits 0 2 1 (asRow .subscribe p)))

/-- SUBSCRIBE, operation REMOVE. -/
def execSubscribeRemove (p : Packet) (s : State) : Host.Outcome State Fault Refusal :=
  s.upd (Node.packetRow cmdSubscribe (withBits 0 2 2 (asRow .subscribe p)))

/-- SUBSCRIBE, operation ALL. -/
def execSubscribeAll (p : Packet) (s : State) : Host.Outcome State Fault Refusal :=
  s.upd (Node.packetRow cmdSubscribe (withBits 0 2 3 (asRow .subscribe p)))

/-- REPLAY without LIST. -/
def execReplay (p : Packet) (s : State) : Host.Outcome State Fault Refusal :=
  s.upd (Node.packetRow cmdReplay (withBits 12 1 0 (asRow .replay p)))

/-- REPLAY with LIST. -/
def execReplayList (p : Packet) (s : State) : Host.Outcome State Fault Refusal :=
  s.upd (Node.packetRow cmdReplay (withBits 12 1 1 (asRow .replay p)))

/-- DESCRIBE. -/
def execDescribe (p : Packet) (s : State) : Host.Outcome State Fault Refusal :=
  s.upd (Node.packetRow cmdDescribe (asRow .describe p))

/-- KEY_SET, operation SET. -/
def execKeySet (p : Packet) (s : State) : Host.Outcome State Fault Refusal :=
  s.upd (Node.packetRow cmdKeySet (withBits 0 1 0 (asRow .keySet p)))

/-- KEY_SET, operation ERASE. -/
def execKeySetErase (p : Packet) (s : State) : Host.Outcome State Fault Refusal :=
  s.upd (Node.packetRow cmdKeySet (withBits 0 1 1 (asRow .keySet p)))

/-- SESSION_TIMEOUT (R64): a session with no packet for SES.TIMEOUT closes. -/
def execSessionTimeout (client : BitVec 8) (t : Nat) (s : State) : Host.Outcome State Fault Refusal :=
  s.upd fun n => n.whenCellar fun n =>
    let n := n.atT t
    let lim := n.parN Pid.sesTimeout 0
    match n.session client with
    | some x => if lim ≠ 0 ∧ x.lastNs + lim * 1000000 ≤ n.now then n.closeSession client else n
    | none => n

end Sys2Proof.Machine
end

