-- ==== Sys2Proof/Machine/Restart.lean ====
section
/-!
DEFINITION. Core resets, the runs of Steep and the CASK entry that ends them (03_steep_and_cask.md R88 to R120;
13_line_failures.md R441 to R446; 15_faults_and_pitch_points.md R509, R533; 16_firmware_and_store.md R540, R552 to R555).
-/
namespace Sys2Proof.Machine

/-! ### Core reset -/

/-- The code of a drop cause (R442). -/
def DropCause.code : DropCause → Nat
  | .coreReset => 0
  | .drain => 1
  | .steepRun => 2

/-- The code of a Steep trigger (R89). -/
def SteepTrigger.code : SteepTrigger → Nat
  | .powerUp => 0
  | .coreReset => 1
  | .steepRun => 2
  | .activation => 3

/-- The DROPPED reply of an operation (R442). -/
def Node.droppedReply (cause : DropCause) (op : PoolOp) (n : Node) : ReplyPkt :=
  { opcode := op.packet.opcode.toNat, client := op.packet.client, tag := op.packet.tag.toNat, status := Status.dropped.code
    tick := n.tick16, words := [wN cause.code] }

/-- Counts an operation ended for a client (R445). -/
def bumpCount (c : Client) (tagged hops : Nat) : List (Client × Nat × Nat) → List (Client × Nat × Nat)
  | [] => [(c, tagged, hops)]
  | e :: es => if e.1 = c then (c, e.2.1 + tagged, e.2.2 + hops) :: es else e :: bumpCount c tagged hops es

/-- Forms the DROPPED replies of a reset (R442): cached at once, held for the CASK entry, and counted per client. A playback so ended
raises EV.WAVE_END with reason DROPPED (R352, R358). -/
def Node.dropPool (cause : DropCause) (n : Node) : Node :=
  let n := eachOf n.core.waves.plays (fun p m => m.waveEnd p 3) n
  let ops := n.core.pool.filter fun o => o.side != .heldForPair && (n.held.map HeldTag.order) != some o.order
  let n := eachOf ops (fun o m =>
    let r := m.droppedReply cause o
    let m := { m with restart := { m.restart with
      dropped := m.restart.dropped ++ [{ dest := o.client, isEvent := false, pkt := r }]
      counts := bumpCount o.client 1 0 m.restart.counts } }
    if o.client.isL then m else m.cacheReply o.client o.packet.tag [r]) n
  eachOf n.core.hops (fun h m => { m with restart := { m.restart with counts := bumpCount h.client 0 1 m.restart.counts } }) n

/-- Inserts by ascending client id, a client's items in order, context L last (R443). -/
def insertDropped (x : OutItem) : List OutItem → List OutItem
  | [] => [x]
  | y :: ys =>
    let key := fun (c : Client) => match c with
      | .line i => i.toNat
      | .ctxL => 256
    if key x.dest < key y.dest then x :: y :: ys else y :: insertDropped x ys

/-- Sends the held DROPPED replies (R443, R448). -/
def Node.sendDropped (n : Node) : Node :=
  let xs := n.restart.dropped.foldl (fun a x => insertDropped x a) []
  let n := { n with restart := { n.restart with dropped := [] } }
  eachOf xs (fun x m => m.emit x.dest false x.pkt) n

/-- Forms the EV.FAULT of each window that holds counted occurrences (R509). -/
def Node.closeWindows (n : Node) : Node :=
  eachOf (n.core.faults.windows.filter fun w => 0 < w.count) (fun w m => m.formFault w w.count) n

/-- A core reset (R442, R509, R533, R552, R555): the pool's operations end, windows report, the transfer closes, and the
core starts anew with its working set still to be loaded; what the cellar keeps stays. A FOLD and the roll calls that ended commands
asked for and that have not begun do not follow. -/
def Node.coreReset (trigger : SteepTrigger) (cause : DropCause) (wd : Option Bool) (n : Node) : Node :=
  let n := n.closeWindows
  let n := n.dropPool cause
  let n := n.dropTransfer
  let k := n.core
  let fresh : Core :=
    { running := k.running, params := k.params, cfgFix := k.cfgFix, nextOrder := k.nextOrder
      faults := { log := k.faults.log, logFailing := k.faults.logFailing, points := k.faults.points.filter fun p => p.code == .steep } }
  let n := { n with core := fresh }
  let n := (n.setClient { n.clientRec .ctxL with cache := [] }).modStore fun s => { s with writes := [] }
  let n := n.modLane fun l =>
    { l with
      state := .single, sending := false, formOp := none, splitOp := none, splitting := false, leavingAt := none, stopReq := 0
      pktTick := none, missRun := 0, laneMiss := 0, laneCrc := 0, termMisses := 0, out := [], sentTick := [], adoption := none
      lossDue := none, survivor := false, remoteHops := [], record := none, refreshUp := none, refreshDn := none
      sentReady := false, gotReady := false }
  let n := { n with time := { n.time with pendingRate := none, nextRate := none } }
  let n := n.modLine fun l =>
    { l with snapNext := none, recSnap := none, foldOps := [], rolls := l.rolls.filter fun r => r.sent || r.ops.isEmpty }
  { n with restart := { n.restart with trigger := trigger, cause := cause, watchdog := wd, coreUpDue := true } }

/-- Whether the core may run: VCEL, RESETN, CRESETN, good rails, and no TAP instruction that holds it (R88, R604). -/
def Node.mayRun (n : Node) : Bool :=
  n.power.vcel && n.power.resetn && n.power.cresetn && n.power.railsGood && !([0, 2, 3].contains n.power.tapIr)

/-- The counts that run from the latest Steep begin anew with it (R155, R439). -/
def Node.zeroCounts (n : Node) : Node :=
  let n := n.modLine fun l =>
    { l with framesOk := 0, crcUp := 0, crcDn := 0, corrupted := 0, noCyc := 0, lossUp := 0, lossDn := 0, rejected := 0, missed := 0, unknown := 0 }
  n.modTime fun t =>
    { t with realigns := 0, steps := 0, skipped := 0, ignoredAligns := 0, narrow := 0, misses := 0, p2 := [] }

/-- A Steep starts with this trigger (R89, R91). -/
def Node.steepFrom (t : SteepTrigger) (n : Node) : Node :=
  n.zeroCounts.modCore fun k => { k with run := .steep { trigger := t, start := n.now } }

/-- Starts Steep where PWRGOOD holds (R89, R92). -/
def Node.beginSteep (n : Node) : Node := if n.mayRun then n.steepFrom n.restart.trigger else n

/-! ### The Steep word -/

/-- Four flags as bits. -/
def quadBits (lo : Nat) (q : Quad Bool) : Nat := flag q.c0 lo + flag q.c1 (lo + 1) + flag q.c2 (lo + 2) + flag q.c3 (lo + 3)

/-- What a Steep's verdicts rest on: its measurements, the steps abandoned (bit i for step i + 1), and the bits that pitched points
force. -/
structure SteepGround where
  r : SteepResults
  abandoned : Nat
  pitched : Nat
  deriving DecidableEq, Repr

/-- A check had not finished when its step reached its limit, so it counts as failed (R93); where the measurements name none of an
abandoned step's checks, all of them count so. -/
def SteepGround.cut (g : SteepGround) (x : SteepCheck) : Bool :=
  g.abandoned.testBit x.step && (g.r.unfinished.contains x || !(g.r.unfinished.any fun y => y.step == x.step))

/-- A region's content was found damaged (R96). -/
def SteepGround.fails (g : SteepGround) (x : Fin 10) : Bool := g.r.uncorrectable.contains x || g.r.crcBad.contains x

/-- A region's content does not serve (R96): an uncorrectable error, or a CRC that fails or was not checked. -/
def SteepGround.regionBad (g : SteepGround) (x : Fin 10) : Bool :=
  g.fails x || g.cut .crc

/-- The bits that armed F.STEEP points force, of the points whose delay is over (R112, R531, R533). -/
def Node.pitchedSteep (n : Node) : Nat :=
  n.core.faults.points.foldl (fun a p => if p.code == .steep && kLe p.due n.time.k48 then a ||| 2 ^ p.scope else a) 0

/-- A loopback's measured value lies within ±1 % of full scale of its expected value (R98). -/
def loopbackOk (dev : Int) : Bool := decide (dev.natAbs ≤ 10000)

/-- Whether a slot holds an image whose signature is valid (R104, R551): the check at its commit found it so over the same bytes, so it
is so again unless the stored bytes have changed. -/
def Node.signed (g : SteepGround) (b : Bool) (n : Node) : Bool :=
  let s := (n.store.images.get b).state
  (s == .pending || s == .trial || s == .established || s == .rejected) &&
    !(g.regionBad (if b then 1 else 0) || g.r.signatureBad.contains b || g.cut .signature)

/-- Whether a slot's image may be chosen (R104, R547). -/
def Node.imageValid (g : SteepGround) (b : Bool) (n : Node) : Bool :=
  n.signed g b && (n.store.images.get b).state != .rejected

/-- The image Steep chooses (R104, R108): the higher sequence number first; the boot loader where no image is valid or a pitched bit 16
makes that check fail. -/
def Node.chooseImage (g : SteepGround) (n : Node) : Running :=
  let first := decide (n.store.images.a.seq < n.store.images.b.seq)
  if g.pitched.testBit 16 then .boot
  else if n.imageValid g first then .image first
  else if n.imageValid g !first then .image !first
  else .boot

/-- Whether the current configuration serves (R96, R97, R538); a pitched bit 14 or 15 makes its check fail. -/
def Node.currentOk (g : SteepGround) (n : Node) : Bool :=
  decide (n.store.current.generation ≠ 0) && !(g.pitched.testBit 14 || g.pitched.testBit 15) &&
    !g.regionBad (if n.store.otherSlot then 2 else 3)

/-- Whether the previous configuration serves; a pitched bit 15 makes its check fail. -/
def Node.previousOk (g : SteepGround) (n : Node) : Bool :=
  decide (n.store.previous.generation ≠ 0) && !g.pitched.testBit 15 && !g.regionBad (if n.store.otherSlot then 3 else 2)

/-- The channels that step 4 makes unavailable (R98), as a mask. -/
def unavailableMask (ps : ParamMem) (bits : Nat) : Nat :=
  chBits 0 fun c =>
    match inMode ps c.val with
    | .resolver => bits.testBit c.val || bits.testBit (c.val + 4)
    | .sincos => bits.testBit c.val
    | _ => false

/-- The detectors that give no verdict within 100 µs (R102), less those of unavailable channels, which are not proven. -/
def silentDetectors (unavail : Nat) (r : SteepResults) : List (BitVec 16 × BitVec 8) :=
  let proven := r.late.filter fun x => match FaultCode.ofCode x.1.toNat with
    | some f => !(f.channelScope && unavail.testBit x.2.1.toNat)
    | none => true
  (proven.filter fun x => x.2.2.elim true fun d => decide (100000 < d)).map fun x => (x.1, x.2.1)

/-- The failure bits of steps 1 to 3 (R93, R96, R97, R104, R109). -/
def Node.earlyBits (g : SteepGround) (n : Node) : Nat :=
  flag (g.cut .crystal || decide (25000 < g.r.crystalPpm.natAbs)) 23 ||| flag (!g.r.marchPassed || g.cut .march) 12 |||
    flag (!g.r.uncorrectable.isEmpty || g.cut .ecc) 13 ||| flag (!n.currentOk g && n.previousOk g) 14 |||
    flag (!n.currentOk g && !n.previousOk g) 15 ||| flag (n.chooseImage g == .boot) 16 |||
    (g.pitched &&& (2 ^ 12 + 2 ^ 13 + 2 ^ 23 + 2 ^ 27))

/-- The failure bits of step 4 (R98, R99): the DAC loopback judges an output at the range its configuration sets. -/
def Node.loopbackBits (g : SteepGround) (n : Node) : Nat :=
  let bad := fun (k : SteepCheck) (dev : Int) => g.cut k || !loopbackOk dev
  chBits 0 (fun c => bad (.adc c) (g.r.adcDev.get c)) ||| chBits 4 (fun c => bad (.exc c) (g.r.excDev.get c)) |||
    chBits 8 (fun c => bad (.dac c) (((g.r.dacDev.get c)[n.parN Pid.dacRange c.val]?).getD 1000000)) |||
    flag (bad .tdc g.r.tdcDev) 19 ||| flag (bad .rtd g.r.rtdDev) 20 ||| (g.pitched &&& (0xFFF + 2 ^ 19 + 2 ^ 20))

/-- The failure bits of steps 4 to 7 (R98 to R103). -/
def Node.lateBits (g : SteepGround) (n : Node) : Nat :=
  let four := n.loopbackBits g
  let refsBad := beyond 7500 g.r.refDevs.1 || (g.r.refBFitted && beyond 7500 g.r.refDevs.2.1)
  four ||| flag (g.cut .refs || refsBad) 21 |||
    flag (g.cut .proof || !(silentDetectors (unavailableMask n.core.params four) g.r).isEmpty) 26 ||| (g.pitched &&& (2 ^ 21 + 2 ^ 26))

/-- Bit 12 or 16 is set, so steps 4 to 7 are skipped (R94). -/
def skipsLate (bits : Nat) : Bool := bits.testBit 12 || bits.testBit 16

/-- The steps abandoned at their limit, of those that ran (R93, R94). -/
def Node.cutSteps (g : SteepGround) (n : Node) : Nat := if skipsLate (n.earlyBits g) then g.abandoned % 8 else g.abandoned

/-- The failure bits of a Steep's checks (R93 to R103, R109), with the configuration loaded. -/
def Node.steepBits (g : SteepGround) (n : Node) : Nat :=
  let early := n.earlyBits g
  early ||| flag (decide (n.cutSteps g ≠ 0)) 27 ||| (if skipsLate early then 0 else n.lateBits g)

/-- The locking bits (R111). -/
def steepLocking : Nat := 0xF00 + 2 ^ 12 + 2 ^ 16 + 2 ^ 26

/-- The step of each failure bit (R93). -/
def steepStepOf (bit : Nat) : Nat :=
  if bit = 23 then 1 else if 12 ≤ bit ∧ bit ≤ 15 then 2 else if bit = 16 then 3
  else if bit ≤ 11 ∨ bit = 19 ∨ bit = 20 then 4 else if bit = 21 then 5 else 7

/-- The first failing step (R109): of the failed bits, and of the steps abandoned at their limit. Where a pitched point alone forces bit
27, the spec names no step that failed, and the model gives step 7 (DESIGN CHOICE, log entry 113). -/
def firstFailing (bits abandoned : Nat) : Nat :=
  let steps := (steepFailureBits.filter fun b => b != 27 && bits.testBit b).map steepStepOf ++
    ((List.range 7).filter fun i => abandoned.testBit i).map (· + 1)
  let forced := if bits.testBit 27 && steps.isEmpty then [7] else steps
  forced.foldl (fun a s => if a = 0 then s else min a s) 0

/-- The Steep word (R109). -/
def steepWordOf (bits abandoned unavail : Nat) (trial revert notFitted up dn locked skipped : Bool) (trigger : Nat) : Word :=
  wN (bits + flag revert 17 + flag trial 18 + flag notFitted 22 + flag up 24 + flag dn 25 + unavail * 2 ^ 28 +
    firstFailing bits abandoned * 2 ^ 32 + trigger * 2 ^ 35 + flag locked 37 + flag skipped 38 + flag (decide (bits ≠ 0)) 39)

/-! ### The end of Steep -/

/-- What the damage found in step 2 does to the store (R96, R544): an emptied log, a lock that reads as BLANK, and a node page that counts
as holding Cask-locked, with every image slot as its own signature check gives it. A configuration slot keeps its verdict (R542). What the spec does not say of a failing node page
(sequence numbers, failure counts, the key) starts anew: DESIGN CHOICE, log entry 115. -/
def Node.storeDamage (g : SteepGround) (n : Node) : Node :=
  let n := if g.regionBad 9 then n.modLine fun l => { l with lock := none, outcome := l.outcome.map fun _ => 0 } else n
  let n := if g.r.uncorrectable.contains 7 then n.modStore fun s => { s with log := [] } else n
  let n := n.modStore fun s => { s with cfgBad := ⟨g.fails 2, g.fails 3⟩ }
  if !g.regionBad 8 then n else
  let slot := fun (b : Bool) =>
    let x := n.store.images.get b
    { x with state := if n.signed g b then SlotState.trial else .empty, seq := 0, failed := 0 }
  n.modStore fun s => { s with caskLocked := true, key := none, images := ⟨slot false, slot true⟩ }

/-- Loads the configuration into the working set (R97, R540): the current one, else the previous, else After Steep values. -/
def Node.loadWorking (g : SteepGround) (n : Node) : Node :=
  let c := if n.currentOk g then some n.store.current else if n.previousOk g then some n.store.previous else none
  match c with
  | none => n.modCore fun k => { k with params := [], cfgFix := 0 }
  | some c =>
    let l := loadRecords c.records
    let n := n.modCore fun k => { k with params := l.1, cfgFix := l.2 }
    eachCh (fun i m => m.modFront i fun f => { f with trk := { f.trk with map := c.maps.get i } }) n

/-- Takes a loaded tick rate and output instant into force (R128): at this P0 where it is a boundary of both rates, else at
the next one. -/
def Node.loadRate (n : Node) : Node :=
  let r := TickRate.ofKhz (n.parN Pid.tickRate 0)
  let o := n.parN Pid.tickOutat 0
  if r = n.time.rate then n.modTime fun t => { t with outat := o }
  else ((n.acceptRate r (some o) n.core.nextOrder false).2).modCore fun k => { k with nextOrder := k.nextOrder + 1 }

/-- Restores the persisted tables as LOADED (R349). -/
def Node.restoreTables (n : Node) : Node :=
  eachOf n.store.tables (fun t m => m.modWaves fun w =>
    let mem : WaveMem := (t.samples.zipIdx.foldl (fun a e => WaveMem.put a (t.base + e.2) e.1) w.mem)
    let x : WaveTable := { state := .loaded, base := t.base, len := t.samples.length, persist := true }
    { w.setTable t.table x with mem := mem }) n

/-- The class of an F.STEEP instance (R112). No row of the table fits the excitation bit 4 + n of a SINCOS channel that bit n alone made
unavailable: the model gives it class 2 with its channel (DESIGN CHOICE, log entry 114). -/
def steepClass (unavail bit : Nat) : Nat :=
  if steepLocking.testBit bit then 3 else if bit < 8 ∧ unavail.testBit (bit % 4) then 2 else 1

/-- Raises F.STEEP for each failure bit (R112); for bit 26 the context word names the silent detector (log entry 38). -/
def Node.raiseSteep (bits own unavail : Nat) (w : Word) (silent : Option (BitVec 16 × BitVec 8)) (n : Node) : Node :=
  eachOf (steepFailureBits.filter fun b => bits.testBit b) (fun b m =>
    let ctx := if b = 26 then (match silent with
        | some d => wN (d.1.toNat + d.2.toNat * 2 ^ 16)
        | none => w) else w
    m.trip .steep (steepClass unavail b) b ctx (!own.testBit b)) n

/-- Raises EV.CORE_UP for every subscribed client (R445). -/
def Node.coreUp (w : Word) (n : Node) : Node :=
  if !n.restart.coreUpDue then n else
  eachOf (n.clients.filter fun r => r.subs.contains .coreUp) (fun r m =>
    let x := (m.restart.counts.find? fun e => e.1 == r.client).elim (0, 0) Prod.snd
    m.eventTo .coreUp 0xFF m.stamp [w, wN (x.1 + x.2 * 2 ^ 13 + m.restart.cause.code * 2 ^ 26)] r) n

/-- Sends the reply of the tag held through the Steep (R116, R465, R553): the words of STEEP_RUN, of an adoption, or of an
activation. A run that the watchdog ended has no Steep word, and the spec says nothing of its reply: it carries the word of the Steep
that follows, and 0 (DESIGN CHOICE, log entry 116). -/
def Node.sendHeld (w : Word) (n : Node) : Node :=
  match n.held with
  | none => n
  | some h =>
    let words := match opcodeOf h.packet with
      | some .fwActivate => [n.restart.firstWord.getD w, wN n.version]
      | some .adopt => n.adopted.elim [0, 0, 0] fun a => [wN a.generation, wN a.crc, wN a.side]
      | _ => match n.restart.firstWord with
        | some f => [f, w]
        | none => [w, 0]
    let n := { n with held := none }
    n.finish h.packet .done [words] false n.tick16

/-- Raises EV.ADOPTED after an automatic adoption (R466). -/
def Node.raiseAdopted (n : Node) : Node :=
  match n.adopted with
  | some a =>
    let n := { n with adopted := none }
    if a.auto then n.event .adopted 0xFF n.stamp [wN a.generation, wN a.crc, wN a.side] else n
  | none => n

/-- The judgement of the automatic transition (R118, R119, R30). -/
def Node.judgeAuto (w : Word) (n : Node) : AutoJudge :=
  if n.parN Pid.nodeAutotrack 0 = 0 || bitOf w 39 || n.store.caskLocked then .none
  else if !bitOf w 24 && !bitOf w 25 then .due
  else match n.line.outcome with
    | some o => if o = 2 then .none else .due
    | none => .waiting

/-- The image slots after a Steep's choice (R104, R105, R107, R554): PENDING enters trial; a passing Steep establishes the
running image; a failure of its own counts. -/
def Node.imageAfter (run : Running) (passed failed : Bool) (n : Node) : Node :=
  match run with
  | .boot => n
  | .image b => n.modImage b fun s =>
    let s := if s.state = .pending then { s with state := .trial, failed := 0 } else s
    if s.state = .trial then
      if passed then { s with state := .established, failed := 0 }
      else if failed then { s with failed := s.failed + 1 } else s
    else s

/-- Reports the errors that ECC corrected in step 2 (R96, R521). -/
def Node.reportCorrected (xs : List EccError) (n : Node) : Node :=
  let n := eachOf xs (fun e m => m.trip .storeEcc 0 0xFF (wN e.addr.toNat) false) n
  n.modStore fun s => { s with corrected := s.corrected + xs.length }

/-- The first entry of a log that an uncorrectable error emptied is that failure (R96): F.STEEP of bit 13 goes before the entries that
wait, and the rest keeps its order. -/
def Node.failureFirst (n : Node) : Node :=
  let own := fun (x : PendingLog) => x.entry.code == .steep && x.entry.scope == 13
  n.modFaults fun f => { f with log := f.log.filter own ++ f.log.filter fun x => !own x }

/-- The Steep ends with CASK entry (R99 to R119, R420, R443, R445, R509; before any roll call the loaded record layout is
in force), or, where the image on trial has failed for the second time, with a revert (R106). -/
def Node.steepDone (r : SteepResults) (run : SteepRun) (n : Node) : Node :=
  let g : SteepGround := { r := r, abandoned := run.abandoned, pitched := n.pitchedSteep }
  let clean : SteepGround := { g with pitched := 0 }
  let n := n.storeDamage g
  let img := n.chooseImage g
  let n := n.loadWorking g
  let bits := n.steepBits g
  let own := n.steepBits clean &&& bits
  let skipped := skipsLate bits
  let passed := decide (bits = 0)
  let failed := decide (own &&& steepLocking ≠ 0)
  let trial : Bool := match img with
    | .image b => (n.store.images.get b).state == .trial || (n.store.images.get b).state == .pending
    | .boot => false
  let cuts := n.cutSteps g
  let n := n.imageAfter img passed failed
  let second : Bool := match img with
    | .image b => failed && (n.store.images.get b).state == .trial && decide (2 ≤ (n.store.images.get b).failed)
    | .boot => false
  let unavail := unavailableMask n.core.params bits
  let silent := (silentDetectors unavail r).head?
  let cleared := passed && (run.trigger == .steepRun || run.trigger == .activation)
  let locked := if cleared then false else n.store.caskLocked || decide (bits &&& steepLocking ≠ 0)
  let w := steepWordOf bits cuts unavail trial n.restart.revert (!skipped && !r.refBFitted) (!skipped && n.line.linkUp) (!skipped && n.line.linkDn) locked skipped
    run.trigger.code
  let n := n.modFaults fun f =>
    let ps : List PitchPoint := f.points.filterMap fun p => if p.code == .steep && kLe p.due n.time.k48 then p.use 1 else some p
    { f with points := ps }
  let n := n.modStore fun s => { s with caskLocked := locked }
  let tdcFailed := if skipped then n.restart.tdcFailed else bits.testBit 19
  let n := { n with restart := { n.restart with tdcFailed := tdcFailed } }
  let n := n.reportCorrected r.corrected
  if second then
    -- R106: the image is rejected and the other is activated at once
    let n := match img with
      | .image b => n.modImage b fun s => { s with state := .rejected }
      | .boot => n
    let n := { n with
      restart := { n.restart with revert := true, trigger := .activation, updating := true, firstWord := some (n.restart.firstWord.getD w) }
      steepWord := w }
    n.steepFrom .activation
  else
  let n := { n with steepWord := w }
  let n := n.modCore fun k =>
    { k with
      run := .up, mode := .cask, running := img, caskDue := true, noRtd := bits.testBit 20 && !bits.testBit 19
      sound := { k.sound with noRounds := tdcFailed, t0 := r.t0Ps }
      faults := { k.faults with refs := { fitted := r.refBFitted } } }
  let n := eachCh (fun c m => m.modFront c fun f => { f with unavailable := unavail.testBit c.val }) n
  let n := (n.loadRate.tselWritten.restoreTables.roleInForce).cause 4
  let n := if n.line.outcome.isNone then n.layoutInForce else n
  let n := eachFan Node.supervise (eachCh Node.judgeRail (eachCh Node.plug n))
  let n := if n.power.clrn then n else n.clearsLow
  let held := n.core.faults.log.length
  let n := n.sendDropped
  let n := n.coreUp w
  let n := n.raiseSteep bits own unavail w silent
  let n := if bits.testBit 21 then n.steepRefs r (!own.testBit 21) else n
  let n := match n.restart.watchdog with
    | some inj => n.trip .watchdog 3 0xFF 0 inj
    | none => n
  let n := if n.core.faults.logFailing then n.trip .logWrite 3 0xFF 0 false else n
  let n := n.deliverVerdicts
  let n := if r.uncorrectable.contains 7 then n.failureFirst.writeLog (held + 1) else n.writeLog held
  let n := (n.sendHeld w).raiseAdopted
  let n := { n with restart := { n.restart with
    trigger := .coreReset, watchdog := none, counts := [], revert := false, firstWord := none, updating := false, coreUpDue := false } }
  let a := n.judgeAuto w
  n.modCore fun k => { k with auto := a }

end Sys2Proof.Machine
end

