-- ==== Sys2Proof/Machine/AdoptRows.lean ====
section
/-!
DEFINITION. Side-lane links and bulk frames, beacons, shadow configurations and adoption (13_line_failures.md R461 to R467;
14_tandem.md R469 to R471, R473).
-/
namespace Sys2Proof.Machine

/-! ### The side-lane -/

/-- Whether a side-lane has link (R469). -/
def Node.laneLink (n : Node) (q : LinePort) : Bool :=
  match q with
  | .up => n.lane.upLink
  | .dn => n.lane.dnLink

/-- A received bulk frame (R470, R471): one that fails its check, and a duplicate, are discarded. -/
def Node.laneTake (g : LaneHdr) (f : Node → Node) (n : Node) : Node :=
  let got := match g.port with | .up => n.lane.gotUp | .dn => n.lane.gotDn
  if !n.up || !g.crcOk || !n.laneLink g.port || got == some g.seq then n
  else f (n.modLane fun l => match g.port with
    | .up => { l with gotUp := some g.seq }
    | .dn => { l with gotDn := some g.seq })

/-- BULK_RESEND (R471): frames of the pair not acknowledged within 4 ticks are sent again. -/
def execBulkResend (t : Nat) (s : State) : Host.Outcome State Fault Refusal :=
  s.upd fun n => n.whenUp fun n =>
    let n := n.atT t
    if !n.lane.sending then n else
    n.modLane fun l =>
      let out : List LaneOut := l.out.map fun o =>
        if o.port = l.partnerPort ∧ kLe (o.tick + 4) n.time.k48 then { o with tick := n.time.k48 } else o
      { l with out := out }

/-! ### Shadows -/

/-- The shadow the node holds of the neighbour on a port (R461). -/
def Node.shadowOf (n : Node) (q : LinePort) : Option Shadow :=
  match q with
  | .up => n.store.shadowUp
  | .dn => n.store.shadowDn

/-- The beacon the node sends on a port (R462). -/
def Node.beacon (n : Node) (q : LinePort) : BeaconBody :=
  let c := n.store.current
  let sh := n.shadowOf q
  { lockState := BitVec.ofNat 2 n.lockState, lockPos := BitVec.ofNat 10 n.lockPos, signature := n.line.lock.elim 0 Prod.snd
    generation := BitVec.ofNat 32 c.generation, crc := BitVec.ofNat 32 (configCrc c), autoAdopt := n.parN Pid.lineAutoadopt 0 == 1
    shadowPos := sh.elim 0 Shadow.ownerPos, shadowSig := sh.elim 0 Shadow.ownerSig, shadowGen := sh.elim 0 Shadow.generation
    shadowCrc := sh.elim 0 Shadow.crc, shadowValid := sh.isSome }

/-- BEACON_SEND (R462). -/
def execBeaconSend (t : Nat) (s : State) : Host.Outcome State Fault Refusal :=
  s.upd fun n => n.whenUp fun n =>
    let n := n.atT t
    let n := if n.lane.upLink then n.laneSend .up (.beacon (n.beacon .up)) else n
    if n.lane.dnLink then n.laneSend .dn (.beacon (n.beacon .dn)) else n

/-- Replaces the refresh running on a port. -/
def Node.setRefresh (q : LinePort) (x : Option Transfer) (n : Node) : Node :=
  n.modLane fun l => match q with
    | .up => { l with refreshUp := x }
    | .dn => { l with refreshDn := x }

/-- The refresh running on a port. -/
def Lane.refresh (l : Lane) (q : LinePort) : Option Transfer :=
  match q with
  | .up => l.refreshUp
  | .dn => l.refreshDn

/-- Whether a shadow differs from what its owner's beacon shows (R463). -/
def shadowDiffers (s : Option Shadow) (x : BeaconBody) : Bool :=
  match s with
  | none => true
  | some s => s.ownerPos != x.lockPos || s.ownerSig != x.signature || s.generation != x.generation || s.crc != x.crc

/-- A neighbour's beacon (R462, R463): the node refreshes its shadow of a LOCKED_OK neighbour that differs, unless an adoption
uses that side. -/
def Node.takeBeacon (q : LinePort) (x : BeaconBody) (n : Node) : Node :=
  let n := n.modLane fun l => match q with
    | .up => { l with beaconUp := some x }
    | .dn => { l with beaconDn := some x }
  let busy := n.lane.adoption.any fun a => a.port == q
  if x.lockState = 1 && shadowDiffers (n.shadowOf q) x && !busy then
    (n.setRefresh q (some { port := q })).laneSend q (.shadowReq false)
  else n

/-- BEACON. -/
def execBeacon (g : LaneHdr) (x : BeaconBody) (t : Nat) (s : State) : Host.Outcome State Fault Refusal :=
  s.upd fun n => n.whenUp fun n => (n.atT t).laneTake g (Node.takeBeacon g.port x)

/-- Bytes of a configuration in each part of a transfer: the payload of a bulk frame is at most 256 bytes, 16 of them here the
fields that name the part (R471, log entry 36). -/
def partSize : Nat := 240

/-- The parts of a configuration in transfer (R463, R465). -/
def shadowParts (sh : Shadow) : Nat → Nat → List Byte → List ShadowPart
  | 0, _, _ => []
  | f + 1, off, bs =>
    let part : ShadowPart :=
      { offset := off, bytes := bs.take partSize, last := decide (bs.length ≤ partSize), ownerPos := sh.ownerPos, ownerSig := sh.ownerSig
        generation := sh.generation, crc := sh.crc }
    if bs.length ≤ partSize then [part] else part :: shadowParts sh f (off + partSize) (bs.drop partSize)

/-- The node's own configuration as a neighbour's shadow holds it (R461). -/
def Node.ownShadow (n : Node) : Shadow :=
  let c := n.store.current
  { ownerPos := BitVec.ofNat 10 n.lockPos, ownerSig := n.line.lock.elim 0 Prod.snd, generation := BitVec.ofNat 32 c.generation
    crc := BitVec.ofNat 32 (configCrc c), bytes := configBytes c }

/-- A request for the node's configuration, or, for an adoption, for the shadow it holds of the neighbour (R463, R465). -/
def Node.serve (q : LinePort) (adopt : Bool) (n : Node) : Node :=
  match (if adopt then n.shadowOf q else some n.ownShadow) with
  | none => n
  | some sh => eachOf (shadowParts sh (sh.bytes.length + 1) 0 sh.bytes) (fun p m => m.laneSend q (.shadowData p)) n

/-- SHADOW_REQ. -/
def execShadowReq (g : LaneHdr) (adopt : Bool) (t : Nat) (s : State) : Host.Outcome State Fault Refusal :=
  s.upd fun n => n.whenUp fun n => (n.atT t).laneTake g (Node.serve g.port adopt)

/-- A part joins a transfer in order; one out of order is lost (R463). -/
def Transfer.take (x : Transfer) (p : ShadowPart) : Transfer :=
  if p.offset ≠ x.bytes.length then x
  else { x with bytes := x.bytes ++ p.bytes, header := if p.last then some p else x.header }

/-- The shadow that a complete transfer gives, where it passes its CRC-32C (R463, R465). -/
def Transfer.shadow (x : Transfer) : Option Shadow :=
  match x.header with
  | none => none
  | some h =>
    match configOfBytes x.bytes with
    | none => none
    | some c =>
      if x.bytes.length ≤ 32768 && configCrc c == h.crc.toNat && c.generation == h.generation.toNat then
        some { ownerPos := h.ownerPos, ownerSig := h.ownerSig, generation := h.generation, crc := h.crc, bytes := x.bytes }
      else none

/-- An adoption that cannot go on ends INTERNAL_ERROR, and nothing is stored (R465). -/
def Node.adoptFails (n : Node) : Node :=
  match n.lane.adoption with
  | none => n
  | some a => (n.modLane fun l => { l with adoption := none }).endOpt a.op .internalError []

/-- A part of a configuration arrives (R463, R465): the last part of an adoption is checked at once. -/
def Node.takePart (q : LinePort) (p : ShadowPart) (n : Node) : Node :=
  match n.lane.adoption.filter fun a => a.port == q with
  | some a =>
    let x := a.transfer.take p
    let a' : Adoption := { a with transfer := x }
    let n := n.modLane fun l => { l with adoption := some a' }
    if p.last && x.shadow.isNone then n.adoptFails else n
  | none =>
    match n.lane.refresh q with
    | some x => n.setRefresh q (some (x.take p))
    | none => n

/-- SHADOW_DATA. -/
def execShadowData (g : LaneHdr) (x : ShadowPart) (t : Nat) (s : State) : Host.Outcome State Fault Refusal :=
  s.upd fun n => n.whenUp fun n => (n.atT t).laneTake g (Node.takePart g.port x)

/-- SHADOW_REFRESH_DONE (R463): a transfer that passes its CRC replaces the shadow in the store; else the old one stays. -/
def execShadowRefreshDone (q : LinePort) (t : Nat) (s : State) : Host.Outcome State Fault Refusal :=
  s.upd fun n => n.whenUp fun n =>
    let n := n.atT t
    match n.lane.refresh q with
    | none => n
    | some x =>
      if x.header.isNone then n else
      let n := n.setRefresh q none
      match x.shadow with
      | some sh => n.storeWrite (.shadow (q == .up) sh) none []
      | none => n

/-! ### Adoption -/

/-- Whether the neighbour on a side holds an eligible shadow (R464): it beacons, and its shadow is of this position and of the
signature of the latest RC frame. -/
def Node.eligible (n : Node) (q : LinePort) : Option Nat :=
  let b := match q with
    | .up => n.lane.beaconUp
    | .dn => n.lane.beaconDn
  match b, n.line.rcSig with
  | some x, some sig =>
    let pos := if n.line.role = .head then 0 else n.hopCount
    if n.laneLink q && x.shadowValid && x.shadowPos.toNat == pos && !n.line.folded && (x.shadowSig == sig || sig == 0) then
      some x.shadowGen.toNat
    else none
  | _, _ => none

/-- The side an adoption takes (R464): the higher generation, the UP side on a tie. -/
def Node.adoptSide (n : Node) (src : Nat) : Option LinePort :=
  let up := if src = 2 then none else n.eligible .up
  let dn := if src = 1 then none else n.eligible .dn
  match up, dn with
  | some a, some b => some (if a < b then .dn else .up)
  | some _, none => some .up
  | none, some _ => some .dn
  | none, none => none

/-- The transfer of an adoption starts (R465). -/
def Node.startAdoption (op : Option Nat) (q : LinePort) (n : Node) : Node :=
  let a : Adoption := { op := op, port := q, transfer := { port := q } }
  ((n.setRefresh q none).modLane fun l => { l with adoption := some a }).laneSend q (.shadowReq true)

/-- ADOPT (R464, R465). -/
def cmdAdopt (op : PoolOp) (n : Node) : Ans × Node :=
  let w := pw op.packet 0
  if n.lane.adoption.isSome then (.fail .busy, n)
  else if fld w 9 0 ≠ n.hopCount ∨ n.lockState = 1 then (.fail .refusedUnsafe, n)
  else match n.adoptSide (fld w 11 10) with
    | none => (.fail .refusedUnsafe, n)
    | some q => (.wait, n.startAdoption (some op.order) q)

/-- ADOPT. -/
def execAdopt (p : Packet) (s : State) : Host.Outcome State Fault Refusal := s.upd (Node.packetRow cmdAdopt (asRow .adopt p))

/-- AUTO_ADOPT (R466). -/
def execAutoAdopt (q : LinePort) (t : Nat) (s : State) : Host.Outcome State Fault Refusal :=
  s.upd fun n => n.whenUp fun n =>
    let n := n.atT t
    let b := match q with
      | .up => n.lane.beaconUp
      | .dn => n.lane.beaconDn
    if n.line.outcome = some 0 && n.core.mode == .cask && n.lane.adoption.isNone && b.any (fun x => x.autoAdopt) && (n.eligible q).isSome then
      match n.adoptSide 0 with
      | some p => n.startAdoption none p
      | none => n
    else n

/-- The adopted configuration is stored as the current one, the lock with it, and the core restarts (R465, R539). -/
def Node.adopt (a : Adoption) (sh : Shadow) (c : Config) (n : Node) : Node :=
  let c' : Config := { c with generation := n.store.current.generation + 1 }
  let b := n.store.otherSlot
  let n := n.modStore fun s => { s with configs := s.configs.set b c', cfgBad := s.cfgBad.set b false }
  let n := n.modLine fun l => { l with lock := some (sh.ownerPos.toNat, sh.ownerSig), outcome := some 1 }
  let n := { n with
    adopted := some { generation := c'.generation, crc := configCrc c', side := (match a.port with | .up => 1 | .dn => 2), auto := a.op.isNone }
    held := (a.op.bind n.opOf).map fun (o : PoolOp) => ({ client := o.client, packet := o.packet, order := o.order } : HeldTag) }
  (n.coreReset .coreReset .coreReset none).beginSteep

/-- ADOPTION_DONE (R465). -/
def execAdoptionDone (t : Nat) (s : State) : Host.Outcome State Fault Refusal :=
  s.upd fun n => n.whenUp fun n =>
    let n := n.atT t
    match n.lane.adoption with
    | none => n
    | some a =>
      match a.transfer.shadow with
      | none => n
      | some sh => match configOfBytes sh.bytes with
        | some c => n.adopt a sh c
        | none => n

/-- LANE_LINK_CHANGE (R465, R469): with its link goes what the neighbour's beacon showed, and the transfers on that side. -/
def execLaneLinkChange (q : LinePort) (up : Bool) (t : Nat) (s : State) : Host.Outcome State Fault Refusal :=
  s.upd fun n => n.whenCellar fun n =>
    let n := (n.atT t).modLane fun l => match q with
      | .up => { l with upLink := up }
      | .dn => { l with dnLink := up }
    if up then n else
    let n := (n.modLane fun l => match q with
      | .up => { l with beaconUp := none, gotUp := none }
      | .dn => { l with beaconDn := none, gotDn := none }).setRefresh q none
    if n.lane.adoption.any fun a => a.port == q then n.adoptFails else n

end Sys2Proof.Machine
end

