-- ==== Sys2Proof/Machine/ControlRows.lean ====
section
/-!
DEFINITION. The motion commands and the rows that end them: MOVE_TO, MOVE_BY, JOG, STOP, PARK, LOOP_ENABLE, CASCADE_SET,
arrival, rest and jog velocity (09_control_engine.md R302, R307, R311 to R324; 14_tandem.md R485, R487, R489;
15_faults_and_pitch_points.md R505).
-/
namespace Sys2Proof.Machine

/-- Whether every slot a command names is running (R313). -/
def Node.allRunning (n : Node) (p : Packet) : Bool := (n.chans p).all n.slotRunning

/-! ### Moves and jogs -/

/-- A judged move takes effect (R315 to R320): the slot's unfinished motion command ends; TARGET_PASSED ends the new one
at once. -/
def Node.takeMove (op : PoolOp) (c : Ch) (j : MoveJudge) (n : Node) : Ans × Node :=
  let n := n.endMotion c .aborted
  match j with
  | .passed => (.fail .targetPassed, n.passAct c)
  | .go segs target beyond =>
    let n := n.modSlot c (installMove op.order segs target)
    match beyond with
    | some x => (.wait, n.overshoot c op.packet.tag op.packet.client x)
    | none => (.wait, n)

/-- Checks common to MOVE_TO and MOVE_BY (R312, R313, R505). -/
def Node.moveRefused (n : Node) (c : Ch) : Option Status :=
  if !n.slotRunning c then some .wrongMode
  else if !(n.kind c).outer || n.refusesMotion c then some .refusedUnsafe
  else none

/-- MOVE_TO (R312 to R320): on a MODULO axis the target lies in 0 to M less 1 au. -/
def cmdMoveTo (op : PoolOp) (n : Node) : Ans × Node :=
  let c := n.chan op.packet
  let w := pw op.packet 0
  match n.moveRefused c with
  | some s => (.fail s, n)
  | none =>
    if n.parN Pid.prfAxis c.val = 1 ∧ (w.toInt < 0 ∨ n.modulus c ≤ w.toInt) then (.fail .outOfRange, n)
    else n.takeMove op c (n.judgeMoveTo c w)

/-- MOVE_BY (R312 to R318). -/
def cmdMoveBy (op : PoolOp) (n : Node) : Ans × Node :=
  let c := n.chan op.packet
  match n.moveRefused c with
  | some s => (.fail s, n)
  | none => n.takeMove op c (n.judgeMoveBy c (pw op.packet 0))

/-- Installs a jog (R312). -/
def installJog (op : Nat) (l : Limits) (v : Int) (s : Slot) : Slot :=
  { s with
    segs := velSegs l s.sp.v s.sp.a v, planEnd := .velocity v, target := none, active := some (op, .jog), braking := false
    reached := false, arrived := false, inPosition := false }

/-- JOG (R311 to R313). -/
def cmdJog (op : PoolOp) (n : Node) : Ans × Node :=
  let c := n.chan op.packet
  let w := pw op.packet 0
  if !n.slotRunning c then (.fail .wrongMode, n)
  else if n.kind c = .follower ∨ n.refusesMotion c then (.fail .refusedUnsafe, n)
  else if n.par Pid.prfVmax c.val < w.toInt.natAbs then (.fail .outOfRange, n)
  else if n.parN Pid.prfOneway c.val = 1 ∧ w.toInt < 0 then (.fail .refusedUnsafe, n)
  else (.wait, (n.endMotion c .aborted).modSlot c (installJog op.order (n.limits c) (p40ToFx w)))

/-! ### STOP and PARK -/

/-- STOP on one named slot (R315, R322, R324): the slot that brakes, a follower's leader, takes the command. -/
def Node.stopNamed (op : PoolOp) (c : Ch) (n : Node) : Node :=
  let l := (n.stopTarget c).getD c
  if (n.core.slots.get l).active.any (fun a => a.1 == op.order) then n else
  ((n.endMotion l .aborted).stopSlot c).modSlot l fun s => { s with active := some (op.order, .stop) }

/-- STOP (R313, R322, R324): it ends when every named slot is at rest, at once when all are. -/
def cmdStop (op : PoolOp) (n : Node) : Ans × Node :=
  if !n.allRunning op.packet then (.fail .wrongMode, n) else
  let n := eachOf (n.chans op.packet) (Node.stopNamed op) n
  let w : RestWait := { op := some op.order, kind := .stop, chs := n.chans op.packet }
  (.wait, (n.modCore fun k => { k with rests := k.rests ++ [w] }).settleRests)

/-- PARK (R313, R323, R324). -/
def cmdPark (op : PoolOp) (n : Node) : Ans × Node :=
  if !n.allRunning op.packet then (.fail .wrongMode, n) else (.ok [], eachOf (n.chans op.packet) Node.parkSlot n)

/-! ### LOOP_ENABLE -/

/-- Enables one loop (R68, R70, R302): in DRIVE or TANDEM a slot that does not run starts. -/
def Node.enableLoop (cl : Client) (c : Ch) (n : Node) : Node :=
  let run := n.slotRunning c
  let n := n.modSlot c fun s => { s with enabled := true, owner := match cl with | .line i => some i | .ctxL => s.owner }
  if n.driving && !run then n.startSlot c else n

/-- An enabling LOOP_ENABLE (R302, R327, R505). -/
def loopEnable (op : PoolOp) (n : Node) : Ans × Node :=
  let cs := n.chans op.packet
  if cs.any (fun c => decide (n.src c ≠ 0) || n.refusesMotion c) then (.fail .refusedUnsafe, n) else
  let m := eachOf cs (fun c m => m.modSlot c fun s => { s with enabled := true }) n
  match m.admissionNow with
  | some ws => (.final .overBudget [ws] false, n)
  | none => (.ok [], eachOf cs (Node.enableLoop op.client) n)

/-- A disabling LOOP_ENABLE (R302): in DRIVE each loop ends when its slot has come to rest. -/
def loopDisable (op : PoolOp) (n : Node) : Ans × Node :=
  let cs := n.chans op.packet
  if cs.any (fun c => decide (n.src c ≠ 0)) then (.fail .refusedUnsafe, n) else
  let n := eachOf cs (fun c m => if m.slotRunning c then m.stopBy c else m) n
  let w : RestWait := { op := some op.order, kind := .disable, chs := cs }
  (.wait, (n.modCore fun k => { k with rests := k.rests ++ [w] }).settleRests)

/-- LOOP_ENABLE (R302). -/
def cmdLoopEnable (op : PoolOp) (n : Node) : Ans × Node :=
  if bitOf (pw op.packet 0) 0 then loopEnable op n else loopDisable op n

/-! ### CASCADE_SET -/

/-- The leader a CASCADE_SET names, in the pair's numbering (R312). -/
def leaderOf (p : Packet) : Nat := ((List.range 8).find? fun i => p.mask.getLsbD i).getD 0

/-- The followers with their ratios, ascending, in the pair's numbering (R312). -/
def followersOf (p : Packet) : List (Nat × Int) :=
  ((List.range 8).filter fun i => bitOf (pw p 0) i).zip ((p.words.drop 1).map fun w => w.toInt)

/-- Removes this node's members of a leader's group (R313): followers revert to VELOCITY. -/
def Node.dissolveGroup (l : Nat) (n : Node) : Node :=
  eachCh (fun c m =>
    if (m.core.slots.get c).leader = some l then
      m.modSlot c fun s => { s with leader := none, remote := 0, ratio := 4294967296 }
    else m) n

/-- Installs this node's followers of a leader (R312, R487). -/
def Node.installFollowers (l : Nat) (fs : List (Nat × Int)) (n : Node) : Node :=
  eachOf fs (fun f m => match m.ownCh f.1 with
    | some c => ((m.leaveGroup c).setPar Pid.ctlKind c.val 0).modSlot c fun s => { s with leader := some l, ratio := f.2 }
    | none => m) (n.dissolveGroup l)

/-- Whether a channel of the partner runs a slot, by its latest packet (R487). -/
def Node.partnerRuns (n : Node) (i : Nat) : Bool := (n.ownCh i).isNone && n.lane.pkt.running.testBit (i % 4)

/-- The group a CASCADE_SET makes on the leader's member (R312, R485). -/
def Node.setGroup (c : Ch) (fs : List (Nat × Int)) (n : Node) : Node :=
  let l := n.pairCh c
  let far := (fs.filter fun f => (n.ownCh f.1).isNone).foldl (fun a f => a + 2 ^ (f.1 % 4)) 0
  let n := n.installFollowers l fs
  if fs.isEmpty then n else n.modSlot c fun s => { s with leader := some l, remote := far }

/-- CASCADE_SET on the leader's member (R313, R327, R485, R487): followers on the partner follow at the next P0. -/
def cascadeSet (op : PoolOp) (c : Ch) (n : Node) : Ans × Node :=
  let l := n.pairCh c
  let fs := followersOf op.packet
  let own := fs.filterMap fun f => n.ownCh f.1
  let member := ([0, 1, 2, 3] : List Ch).filter fun x => (n.core.slots.get x).leader == some l
  let busy := (c :: own ++ member).any n.slotRunning || fs.any (fun f => n.partnerRuns f.1) ||
    decide ((n.core.slots.get c).remote &&& n.lane.pkt.running ≠ 0)
  let far := fs.any fun f => (n.ownCh f.1).isNone
  let other := ([0, 1, 2, 3] : List Ch).any fun x => x != c && decide (0 < (n.core.slots.get x).remote)
  if own.any (fun x => (n.core.fronts.get x).unavailable) then (.fail .channelUnavailable, n)
  else if fs.any (fun f => f.1 == l) then (.fail .badParam, n)
  else if busy then (.fail .wrongMode, n)
  else if !(n.kind c).outer then (.fail .refusedUnsafe, n)
  else if far && other then (.fail .refusedUnsafe, n)
  else
    let was := (n.core.slots.get c).remote
    let m := n.setGroup c fs
    match m.admissionNow with
    | some ws => (.final .overBudget [ws] false, n)
    | none =>
      (.ok [], if n.isLower && (far || decide (0 < was)) then m.laneSend m.lane.partnerPort (.relay op.packet (wrapK (n.time.k48 + 1))) else m)

/-- CASCADE_SET (R312, R313, R487): on the other member it installs that member's followers. -/
def cmdCascadeSet (op : PoolOp) (n : Node) : Ans × Node :=
  match n.ownCh (leaderOf op.packet) with
  | some c => cascadeSet op c n
  | none => (.ok [], n.installFollowers (leaderOf op.packet) (followersOf op.packet))

/-! ### Rows -/

/-- MOVE_TO. -/
def execMoveTo (p : Packet) (s : State) : Host.Outcome State Fault Refusal := s.upd (Node.packetRow cmdMoveTo (asRow .moveTo p))

/-- MOVE_BY. -/
def execMoveBy (p : Packet) (s : State) : Host.Outcome State Fault Refusal := s.upd (Node.packetRow cmdMoveBy (asRow .moveBy p))

/-- JOG. -/
def execJog (p : Packet) (s : State) : Host.Outcome State Fault Refusal := s.upd (Node.packetRow cmdJog (asRow .jog p))

/-- STOP. -/
def execStop (p : Packet) (s : State) : Host.Outcome State Fault Refusal := s.upd (Node.packetRow cmdStop (asRow .stop p))

/-- PARK. -/
def execPark (p : Packet) (s : State) : Host.Outcome State Fault Refusal := s.upd (Node.packetRow cmdPark (asRow .park p))

/-- LOOP_ENABLE, enable. -/
def execLoopEnable (p : Packet) (s : State) : Host.Outcome State Fault Refusal :=
  s.upd (Node.packetRow cmdLoopEnable (withBits 0 1 1 (asRow .loopEnable p)))

/-- LOOP_ENABLE, disable. -/
def execLoopDisable (p : Packet) (s : State) : Host.Outcome State Fault Refusal :=
  s.upd (Node.packetRow cmdLoopEnable (withBits 0 1 0 (asRow .loopEnable p)))

/-- CASCADE_SET. -/
def execCascadeSet (p : Packet) (s : State) : Host.Outcome State Fault Refusal :=
  s.upd (Node.packetRow cmdCascadeSet (asRow .cascadeSet p))

/-- A move has arrived (R307): its final reply is sent. -/
def Node.moveArrived (c : Ch) (n : Node) : Node :=
  let s := n.core.slots.get c
  match s.active with
  | some (o, .move) =>
    if !s.arrived then n else
    (n.modSlot c fun s => { s with active := none, arrived := false, target := none }).endOrder o .done []
  | _ => n

/-- MOVE_ARRIVAL. -/
def execMoveArrival (ch : Ch) (s : State) : Host.Outcome State Fault Refusal := s.upd fun n => n.whenUp (Node.moveArrived ch)

/-- STOP_AT_REST (R322): the waits whose slots have come to rest end. -/
def execStopAtRest (ch : Ch) (s : State) : Host.Outcome State Fault Refusal :=
  s.upd fun n => n.whenUp fun n => if n.atRest ch then n.settleRests else n

/-- A jog's setpoint has reached its velocity (R312). -/
def Node.jogReached (c : Ch) (n : Node) : Node :=
  let s := n.core.slots.get c
  match s.active, s.planEnd with
  | some (o, .jog), .velocity v =>
    if s.sp.v = v ∧ s.sp.a = 0 then (n.modSlot c fun s => { s with active := none }).endOrder o .done [] else n
  | _, _ => n

/-- JOG_VELOCITY_REACHED. -/
def execJogVelocityReached (ch : Ch) (s : State) : Host.Outcome State Fault Refusal :=
  s.upd fun n => n.whenUp (Node.jogReached ch)

end Sys2Proof.Machine
end

