-- ==== Sys2Proof/Machine/LaneOps.lean ====
section
/-!
DEFINITION. Tick packets of a tandem pair (14_tandem.md R472, R473, R485).
-/
namespace Sys2Proof.Machine

/-- This member's leader with followers on the other member (R485). -/
def Node.crossLeader (n : Node) : Option Ch := ([0, 1, 2, 3] : List Ch).find? fun c => decide (0 < (n.core.slots.get c).remote)

/-- Latest bulk sequence number received on the partner's port. -/
def Lane.lastGot (l : Lane) : Nat := ((match l.partnerPort with | .up => l.gotUp | .dn => l.gotDn).elim 0 fun s => s.toNat)

/-- Bytes 0 to 13 of the tick packet of the tick in progress (R472). -/
def Node.tickPacketBody (n : Node) : List Byte :=
  let k := n.time.k48
  let ld := n.crossLeader
  let s := ld.map fun c => n.core.slots.get c
  bytesBE 1 1 ++ bytesBE 1 (k % 256) ++
  bytesBE 1 (n.core.mode.code + n.core.faults.topClass * 4 + flag (!n.core.faults.points.isEmpty) 4 + flag n.fanBit 5 + flag n.heatBit 6) ++
  bytesBE 1 (chBits 0 n.slotRunning + chBits 4 n.chFault) ++
  bytesBE 1 (chBits 0 n.chGreen + n.lane.stopReq % 16 * 16) ++
  bytesBE 1 (ld.elim 0 Fin.val + flag ld.isSome 2 + flag (s.any fun x => x.computed && !x.missBit) 3) ++
  wordBytes (s.elim 0 fun x => fxToV40 x.vc) ++
  bytesBE 1 (flag ([0, 1, 2, 3].all n.ownRest) 0 + flag (n.lane.leavingAt == some k) 1 + flag (n.lane.sentReady && wrapK (k + 2) == n.lane.kf) 2) ++
  bytesBE 1 n.lane.lastGot ++ bytesBE 1 0

/-- The tick packet of the tick in progress (R472). -/
def Node.tickPacket (n : Node) : List Byte := n.tickPacketBody ++ bytesBE 2 (crc16 n.tickPacketBody)

/-- Whether the check of a tick packet passes (R472, R473). -/
def tickPacketOk (bs : List Byte) : Bool :=
  bs.length == 16 && (bs[0]?).getD 0 == 1 && natBE (bs.drop 14) == crc16 (bs.take 14)

/-- Byte `i` of a packet. -/
def byteAt (bs : List Byte) (i : Nat) : Nat := ((bs[i]?).getD 0).toNat

/-- What a tick packet carries (R472). -/
def tickPacketOf (bs : List Byte) : TickPkt :=
  let b := byteAt bs
  { mode := b 2 % 4, cls := b 2 / 4 % 4, pitch := (b 2).testBit 4, fanBit := (b 2).testBit 5, heatBit := (b 2).testBit 6
    running := b 3 % 16, faulted := b 3 / 16, coasting := b 4 % 16, stopReq := b 4 / 16, leader := b 5 % 4
    present := (b 5).testBit 2, valid := (b 5).testBit 3, vc := (wN (natBE ((bs.drop 6).take 5))).toInt
    atRest := (b 11).testBit 0, leaving := (b 11).testBit 1, ready := (b 11).testBit 2, ack := b 12 }

/-- The term a follower of the partner's leader gets at this tick (R485, R486): v_c in fx, nothing (it holds), or none at
all because the packet is missing. -/
inductive CrossTerm where
  | value (vc : Int)
  | held
  | missing
  deriving DecidableEq, Repr

/-- The cross-node term of a leader on the partner (R485, R486). -/
def Node.crossTerm (n : Node) (leader : Nat) : CrossTerm :=
  let k := n.lane.pkt
  if !n.lane.havePkt then .missing
  else if k.present && k.valid && k.leader == leader % 4 then .value (auToFx k.vc)
  else .held

end Sys2Proof.Machine
end

