-- ==== Sys2Proof/Machine/Engine.lean ====
section
/-!
DEFINITION. The control engine: phase A, phase B and the output instant (09_control_engine.md R291 to R307, R325 to
R329; 04_frame_tick_and_time.md R123; 10_analog_outputs.md R338 to R344; 14_tandem.md R485, R486).
-/
namespace Sys2Proof.Machine

/-! ### Phase A -/

/-- The setpoint of the next tick on one slot (R295, R305): T_tick of elapsed time. -/
def Slot.advance (ns : Nat) (s : Slot) : Slot :=
  let r := profileAdvance (fxRat ns 1000000000) s.segs s.planEnd s.sp
  let onTarget := r.2.2 && (match s.planEnd with
    | .target _ => true
    | _ => false)
  let resting := r.2.2 && (match s.planEnd with
    | .rest => true
    | _ => false)
  { s with segs := r.1, sp := r.2.1, reached := s.reached || onTarget, braking := s.braking && !resting }

/-- Phase A (R295): the setpoints of every running slot with a profile; its cycles are charged to the tick they serve. -/
def Node.runPhaseA (n : Node) : Node :=
  let runs := fun (c : Ch) => n.slotRunning c && (n.kind c).profile
  let cost := ([0, 1, 2, 3] : List Ch).foldl (fun a c =>
    if runs c then a + (if n.parN Pid.prfShape c.val = 1 then 400 else 1000) else a) 0
  let n := eachCh (fun c m => if runs c then m.modSlot c (Slot.advance n.tick) else m) n
  n.modCore fun k => { k with phaseA := true, cyclesA := cost }

/-! ### Phase B -/

/-- Whether a running slot's channel lets it compute in this tick (R294). -/
def Node.hasSample (n : Node) (c : Ch) : Bool :=
  !(n.core.slots.get c).clrHold && (n.mode c == .hall || (n.core.fronts.get c).trk.fresh)

/-- What a follower takes from its leader in this tick (R292, R294, R486). -/
def Node.leaderTerm (n : Node) (leader : Nat) : CrossTerm :=
  match n.ownCh leader with
  | some l => if (n.core.slots.get l).computed then .value (n.core.slots.get l).vc else .held
  | none => n.crossTerm leader

/-- Whether the outer loop runs at this tick (R297). -/
def Node.outerDue (n : Node) (c : Ch) : Bool :=
  (n.kind c).outer && ((n.time.k48 : Int) - n.par Pid.ctlOutphase c.val) % (max 1 (n.par Pid.ctlOutdiv c.val)) == 0

/-- The outer loop (R297): the new j and v_c, and whether v_c is limited. -/
def outerLoop (kpp kip tOut vclamp ep j : Int) : Int × Int × Bool :=
  let jn := j + fxMul (fxMul kip tOut) ep
  let wu := fxMul kpp ep + jn
  let vc := clampI (-vclamp) vclamp wu
  let take := wu = vc ∨ (vclamp < wu ∧ ep < 0) ∨ (wu < -vclamp ∧ 0 < ep)
  (clampI (-vclamp) vclamp (if take then jn else j), vc, decide (wu ≠ vc))

/-- The inner loop (R298): the new i and y, and whether y is limited. -/
def innerLoop (kpv kiv t ymin ymax e i : Int) : Int × Int × Bool :=
  let i1 := i + fxMul (fxMul kiv t) e
  let yu := fxMul kpv e + i1
  let y := clampI ymin ymax yu
  let take := yu = y ∨ (ymax < yu ∧ e < 0) ∨ (yu < ymin ∧ 0 < e)
  (clampI ymin ymax (if take then i1 else i), y, decide (yu ≠ y))

/-- The code of the output path (R300), rounded as a whole under R10. -/
def outputCode (zero span y : Int) : Nat := satC18 (roundDiv (zero * fxOne + y * span) fxOne)

/-- What a slot's computation needs of the node. -/
structure SlotIn where
  /-- kilned position and velocity, fx -/
  p : Int
  v : Int
  /-- leader's v_c times the ratio, for a follower -/
  follow : Option Int
  outer : Bool
  deriving DecidableEq, Repr

/-- The loop state of a slot. -/
def Slot.loopState (s : Slot) : LoopState :=
  { i := s.i, j := s.j, vc := s.vc, y := s.y, ep := s.ep, vcLimited := s.vcLimited, yLimited := s.yLimited, ferr := s.ferr
    inpos := s.inpos, inPosition := s.inPosition, arrived := s.arrived }

/-- A slot with the loop state of before (R328). -/
def Slot.restore (s : Slot) (x : LoopState) : Slot :=
  { s with
    i := x.i, j := x.j, vc := x.vc, y := x.y, ep := x.ep, vcLimited := x.vcLimited, yLimited := x.yLimited, ferr := x.ferr
    inpos := x.inpos, inPosition := x.inPosition, arrived := x.arrived }

/-- The loops of one slot (R297 to R300): the new slot, with e_p and the velocity error. -/
def Node.loopStep (n : Node) (c : Ch) (x : SlotIn) (s : Slot) : Slot × Int × Int :=
  let g := fun (pid : Nat) => g40ToFx (wI (n.par pid c.val))
  let ep := wrapDiff (s.sp.p - x.p)
  let vclamp := auToFx (n.par Pid.ctlVclamp c.val)
  let o := if x.outer then
      outerLoop (g Pid.ctlKpp) (g Pid.ctlKip) (fxRat (n.par Pid.ctlOutdiv c.val * n.tick) 1000000000) vclamp ep s.j
    else (s.j, s.vc, s.vcLimited)
  let vref := match x.follow with
    | some f => f
    | none => if (n.kind c).outer then o.2.1 else s.sp.v
  let e := vref - x.v
  let i := innerLoop (g Pid.ctlKpv) (g Pid.ctlKiv) (fxRat n.tick 1000000000) (g Pid.ctlYmin) (g Pid.ctlYmax) e s.i
  ({ s with
      j := o.1, vc := if (n.kind c).outer then o.2.1 else s.vc, vcLimited := o.2.2, i := i.1, y := i.2.1, yLimited := i.2.2
      ep := ep, held := false, computed := true, saved := some s.loopState }, ep, e)

/-- The following-error check (R304): an injection adds the limit plus one LSB. -/
def Node.checkFerr (c : Ch) (ep e : Int) (n : Node) : Node :=
  let err : Int := ((fxToAu (if (n.kind c).outer then ep else e)).natAbs : Nat)
  let lim := if (n.kind c).outer then n.par Pid.ctlFerrmax c.val else n.par Pid.ctlVerrmax c.val
  let inj := n.injecting .ferr c.val
  let err := if inj then err + lim + 1 else err
  let k := if lim < err then (n.core.slots.get c).ferr + 1 else 0
  let n := (n.modSlot c fun s => { s with ferr := k }).useInjection .ferr c.val 1
  if n.parN Pid.ctlFerrtime c.val ≤ k then n.trip .ferr FaultCode.ferr.dfltClass c.val 0 inj
  else if k = 0 then n.cease .ferr c.val else n

/-- The arrival count of a move (R307): consecutive computing ticks within CTL.INPOS since p_s reached the target. -/
def Slot.countInPosition (inpos time p : Int) (s : Slot) : Slot :=
  match s.active, s.target with
  | some (_, .move), some t =>
    if !s.reached then s else
    let k := if (wrapDiff (t - p)).natAbs ≤ inpos then s.inpos + 1 else 0
    { s with inpos := k, inPosition := decide (time ≤ k), arrived := s.arrived || decide (time ≤ k) }
  | _, _ => s

/-- A slot holds (R294): nothing is computed and its state stays. -/
def Slot.hold (s : Slot) : Slot := { s with held := true, computed := false, code := none }

/-- A slot computes (R295 to R304) and finishes at engine cycle `fin` of the tick: a code in time goes to its output's
input register (R339), unless an injection withholds it; what finishes late is discarded (R328), so it raises no following error. -/
def Node.computeSlot (c : Ch) (follow : Option Int) (fin : Nat) (n : Node) : Node :=
  let k := n.lastKil c
  let x : SlotIn := { p := auToFx k.u, v := auToFx k.v, follow := follow, outer := n.outerDue c }
  let r := n.loopStep c x (n.core.slots.get c)
  let code := outputCode (n.par Pid.ctlOutzero c.val) (n.par Pid.ctlOutspan c.val) r.1.y
  let s := Slot.countInPosition (auToFx (n.par Pid.ctlInpos c.val)) (n.par Pid.ctlInpostime c.val) x.p { r.1 with code := some (code, fin) }
  let n := n.modSlot c fun _ => s
  if n.time.outat < fin * 5 || n.injecting .deadline c.val then n
  else
    let n := n.checkFerr c r.2.1 r.2.2
    if n.src c == 0 then n.modOut c (writeInput (BitVec.ofNat 18 code)) else n

/-- A follower without its packet misses its deadline (R486). -/
def Slot.missPacket (s : Slot) : Slot := { s with computed := true, held := false, code := none, saved := some s.loopState }

/-- The order of phase B (R295): leaders and slots outside any group ascending, then followers ascending. -/
def Node.phaseBOrder (n : Node) : List Ch :=
  let all : List Ch := [0, 1, 2, 3]
  (all.filter fun c => n.kind c != .follower) ++ all.filter fun c => n.kind c == .follower

/-- Whether a slot follows a leader on the partner. -/
def Node.followsPartner (n : Node) (c : Ch) : Bool := (n.core.slots.get c).leader.any fun l => (n.ownCh l).isNone

/-- Whether a slot's computation carries the cost of a cross-node term (R325, R488), once per term: a leader with followers on the
partner sends it, and the first follower of the partner's leader receives it. -/
def Node.crossCost (n : Node) (c : Ch) : Bool :=
  decide (0 < (n.core.slots.get c).remote) ||
    (n.followsPartner c &&
      (n.phaseBOrder.find? fun x => n.followsPartner x && n.slotRunning x && n.hasSample x) == some c)

/-- Phase B on one slot, from engine cycle `at_` of the tick on: the cycle after it, and the node (R294, R295, R325). -/
def Node.slotPhaseB (c : Ch) (r : Nat × Node) : Nat × Node :=
  let n := r.2
  if !n.slotRunning c then r else
  let s := n.core.slots.get c
  let fin := r.1 + 850 + (if n.outerDue c then 800 else 0) + (if n.crossCost c then 250 else 0)
  if !n.hasSample c then (r.1, n.modSlot c Slot.hold)
  else match n.kind c with
    | .follower => match n.leaderTerm (s.leader.getD 0) with
      | .value vc => (fin, n.computeSlot c (some (fxMul (g40ToFx (wI s.ratio)) vc)) fin)
      | .held => (r.1, n.modSlot c Slot.hold)
      | .missing =>
        (r.1, (n.modSlot c Slot.missPacket).modLane fun l => { l with termMisses := l.termMisses + 1 })
    | _ => (fin, n.computeSlot c none fin)

/-- The engine cycle at which phase B begins (R295): the end of P1, or the end of phase A, and the stalls of the tick. -/
def Node.phaseBStart (n : Node) (late : Bool) (stall : Nat) : Nat :=
  if late then 1600 + n.core.cyclesA + stall
  else max 1600 (n.core.cyclesA - (n.tick - n.time.outat) / 5) + stall

/-- The P2 use of a tick enters those of the latest second of line time (R155); an entry that a later one reaches is dropped. -/
def Node.countP2 (fin : Nat) (n : Node) : Node :=
  let used := (fin - 1600) * 5
  let t := n.time
  let kept := t.p2.filter fun e => decide (used < e.2) && decide (ltSub t.lt e.1 < 1000000000)
  { n with time := { t with p2 := (t.lt, used) :: kept } }

/-- Phase B of the tick in progress (R295): at most once a tick. -/
def Node.runPhaseB (stall : Nat) (n : Node) : Node :=
  if n.core.phaseB then n else
  let start := n.phaseBStart n.core.lateA stall
  let r := n.phaseBOrder.foldl (fun r c => Node.slotPhaseB c r) (start, n)
  let b := r.1 - start
  let n := r.2.modCore fun k => { k with phaseB := true }
  n.countP2 (if b = 0 then 1600 else r.1)

/-- PHASE_B. -/
def execPhaseB (stall : Nat) (s : State) : Host.Outcome State Fault Refusal :=
  s.upd fun n => n.whenUp (Node.runPhaseB stall)

/-! ### The output instant -/

/-- Whether a running slot computes in this tick (R294): its channel has a sample, and a follower's leader computes too, or its packet
is missing (R486). -/
def Node.computes (n : Node) (c : Ch) : Bool :=
  n.slotRunning c && n.hasSample c && match n.kind c with
    | .follower =>
      let l := (n.core.slots.get c).leader.getD 0
      match n.ownCh l with
      | some x => n.slotRunning x && n.hasSample x
      | none => n.crossTerm l != .held
    | _ => true

/-- The deadline of one slot (R328, R329): a miss keeps the previous code, discards the state of the tick and counts. -/
def Node.judgeDeadline (c : Ch) (n : Node) : Node :=
  let s := n.core.slots.get c
  let would := !n.core.phaseB && n.computes c
  if !(n.slotRunning c && (s.computed || would)) then n else
  let inj := n.injecting .deadline c.val
  let inTime := match s.code with
    | some (_, fin) => decide (fin * 5 ≤ n.time.outat)
    | none => false
  let n := n.useInjection .deadline c.val 1
  if inTime && !inj then (n.modSlot c fun s => { s with missBit := false, missRun := 0, saved := none })
  else
    let run := s.missRun + 1
    let n := n.modSlot c fun s =>
      let s := match s.saved with
        | some x => s.restore x
        | none => s
      { s with missBit := true, misses := s.misses + 1, missRun := run, saved := none }
    let n : Node := { n with time := { n.time with misses := n.time.misses + 1 } }
    if n.parN Pid.ctlMissmax c.val ≤ run then n.trip .deadline FaultCode.deadline.dfltClass c.val 0 inj else n

/-- The output states of a CASK entry take effect (R40): every output shows its clear code and encoder emulation holds; after Steep the outputs leave
high impedance at their first P3 (R113). -/
def Node.caskOutputs (n : Node) : Node :=
  let n := if n.core.caskDue then (n.emuFreeze.modCore fun k => { k with caskDue := false }).fansRefresh else n
  eachCh (fun c m => m.modOut c fun o => { o with highZ := false }) n

/-- The strobes of P3 (R342, R343). -/
def Node.tickStrobes (n : Node) : Node :=
  let on := fun (b : Bool) => n.strobeSource b == 0 || (n.strobeSource b == 2 && n.core.strobes.testBit (if b then 1 else 0))
  let m := if on false then n.strobeGroup false else n
  let m := if on true then m.strobeGroup true else m
  m.modCore fun k => { k with strobes := 0 }

/-- The tick packet of P3 (R471, R472). -/
def Node.sendTickPacket (n : Node) : Node :=
  if n.lane.sending then
    let bs := n.tickPacket
    n.modLane fun l => { l with sentTick := bs, stopReq := 0 }
  else n.modLane fun l => { l with sentTick := [] }

/-- P3 of the tick in progress (R123, R126). -/
def Node.outputInstant (n : Node) : Node :=
  if n.time.outDone then n else
  let n := n.atT n.time.outat
  let n : Node := { n with time := { n.time with outDone := true } }
  if !n.up then n else
  let n := eachCh Node.judgeDeadline n
  let n := n.caskOutputs.tickStrobes
  n.sendTickPacket.runPhaseA

/-- OUTPUT_INSTANT. -/
def execOutputInstant (s : State) : Host.Outcome State Fault Refusal := s.upd fun n => n.whenCellar Node.outputInstant

end Sys2Proof.Machine
end

