-- ==== Sys2Proof/Machine/FanRows.lean ====
section
/-!
DEFINITION. The fans: tach edges, the attribution test, start judgement, retry sequence, running rules, and FAN_SET and
FAN_READ (11_sound_heat_air.md R386, R389 to R396, R398; 01_node_and_modes.md R23).
-/
namespace Sys2Proof.Machine

/-- A condition of one fan has gone: the instance's ceases when the other fan has none (R397, R506). -/
def Node.fanCease (f : FaultCode) (flag : FanState → Bool) (n : Node) : Node :=
  if flag (n.fan false) || flag (n.fan true) then n else n.cease f 0xFF

/-- The class-2 action on the channels of FAN.DEPENDS (R392, R393). -/
def Node.fanAction (b : Bool) (n : Node) : Node :=
  eachOf (n.reachMask (n.parN Pid.fanDepends (idx b))) (fun x m => m.runAction x.1 x.2) n

/-- A verdict on a fan: where an instance of the class already stands for the other fan, it is a repeat, and the action on
this fan's own channels runs all the same. -/
def Node.fanTrip (f : FaultCode) (cls : Nat) (b : Bool) (ctx : Word) (inj : Bool) (n : Node) : Node :=
  match n.inst f 0xFF with
  | some i =>
    if i.present && decide (cls ≤ i.cls) then
      let v : Verdict := { code := f, cls := cls, scope := 0xFF, ctx := ctx, injected := inj }
      let n := n.modFaults fun x => { x with verdicts := x.verdicts ++ [v] }
      if cls = 2 then n.fanAction b else n
    else n.trip f cls 0xFF ctx inj
  | none => n.trip f cls 0xFF ctx inj

/-- The context word of a fan fault (R397). -/
def fanCtx (b : Bool) : Word := wN (idx b)

/-- A silent fan is judged turning (R391, R393, R394): F.TACH_WIRE; a FIXED or CURVE source holds the duty in force. -/
def Node.wireVerdict (b : Bool) (n : Node) : Node :=
  let hold := decide (n.parN Pid.fanSrc (idx b) ≠ 2)
  let low := (n.ductV b).any fun v => decide (v < n.airMin b)
  let n := n.modFan b fun f =>
    { f with
      phase := .running, wire := true, watch := none, held := hold, srcDuty := if hold then f.duty else f.srcDuty
      lowSince := if low then some n.now else none }
  (n.supervise b).fanTrip .tachWire 1 b (fanCtx b) (n.injecting .tachWire 0xFF)

/-- The last kick has failed (R392): the fan is held at 0 %. -/
def Node.lastKick (b : Bool) (n : Node) : Node :=
  let cls := n.parN Pid.fanBlockclass (idx b)
  let n := n.modFan b fun f => { f with phase := .heldOff }
  let n := n.fanTrip .fanBlocked cls b (fanCtx b) (n.injecting .fanBlocked 0xFF)
  (if cls = 2 then n else n.fanAction b).fanRefresh b

/-- Kick `k` starts, or the sequence has no more (R392). -/
def Node.startKick (b : Bool) (k : Nat) (n : Node) : Node :=
  if n.parN Pid.fanRetries (idx b) < k then n.lastKick b
  else (n.modFan b fun f => { f with phase := .kicking k (n.now + 1000000000) (n.tachPresent b) }).fanRefresh b

/-- A silent fan is judged not turning at its start (R391, R392): F.FAN_BLOCKED and the retry sequence. -/
def Node.blockedVerdict (b : Bool) (n : Node) : Node :=
  let n := n.modFan b fun f => { f with blocked := true, lowSince := none }
  (n.fanTrip .fanBlocked 1 b (fanCtx b) (n.injecting .fanBlocked 0xFF)).startKick b 1

/-- The outcome of the attribution test (R390). -/
inductive Attribution where
  | turning
  | still
  | probe
  deriving DecidableEq, Repr

/-- The attribution test of a silent fan up to the probe (R390, R396). -/
def Node.attribute (n : Node) (b : Bool) : Attribution :=
  match n.ductV b with
  | none => .still
  | some v =>
    if n.supervised (!b) && (n.fan (!b)).present then .probe
    else if n.airMin b ≤ v then .turning else .still

/-- The verdict on a silent fan (R391, R393): at its start, or while running, when a fan not turning is watched. -/
def Node.silentVerdict (b atStart turning : Bool) (n : Node) : Node :=
  if turning then n.wireVerdict b
  else if atStart then n.blockedVerdict b
  else (n.modFan b fun f => { f with phase := .running, watch := some (n.now + n.parN Pid.fanStoptime (idx b) * 1000000) }).supervise b

/-- A probe starts (R390), or waits for the one that runs. -/
def Node.startProbe (b atStart : Bool) (n : Node) : Node :=
  let n := n.modFan b fun f => { f with phase := .probing atStart }
  if n.core.sound.probe.isSome then n else
  let p : Probe :=
    { fan := b, start := n.now, ends := n.now + n.parN Pid.fanProbe (idx b) * 1000000, vb := (n.ductV b).getD 0 }
  (n.modSound fun s => { s with probe := some p }).fanRefresh b

/-- The attribution test of a silent fan (R390). -/
def Node.judgeSilent (b atStart : Bool) (n : Node) : Node :=
  match n.attribute b with
  | .turning => n.silentVerdict b atStart true
  | .still => n.silentVerdict b atStart false
  | .probe => n.startProbe b atStart

/-- Whether the duct velocity has risen by FAN.AIRMIN since the judgement began (R391): a round lies in it and shows the
rise, which F.FAN_BLOCKED's injection masks. -/
def Node.airRisen (n : Node) (b : Bool) (v0 : Int) (began : Nat) : Bool :=
  decide (began ≤ n.core.sound.last.e) && (n.ductV b).any (fun v => decide (v0 + n.airMin b ≤ v)) &&
    !n.injecting .fanBlocked 0xFF

/-- A start judgement ends as soon as the tach is present and the air has risen (R391). -/
def Node.judgeEarly (b : Bool) (n : Node) : Node :=
  match (n.fan b).phase with
  | .judging v0 began _ => if n.tachPresent b && n.airRisen b v0 began then n.modFan b fun f => { f with phase := .running } else n
  | _ => n

/-- The tach of a fan is found present (R391 to R393): F.TACH_WIRE and F.FAN_STOPPED cease for it, a kick succeeds, and
the source's duty is no longer held. -/
def Node.tachSeen (b : Bool) (n : Node) : Node :=
  if !n.tachPresent b then n else
  let f := n.fan b
  let n := n.modFan b fun f =>
    let ph : FanPhase := match f.phase with
      | .kicking k e _ => .kicking k e true
      | p => p
    { f with present := true, phase := ph }
  if f.present then n.judgeEarly b else
  let n := n.modFan b fun f => { f with watch := none, wire := false, stopped := false, lowSince := none, held := false }
  let n := (n.fanCease .tachWire FanState.wire).fanCease .fanStopped FanState.stopped
  let n := if f.held then n.fanRefresh b else n
  n.judgeEarly b

/-- A filtered falling edge of a tach (R386); F.TACH_WIRE's injection masks it (R397). A pulse in the collection of a
calibration ends it (R379). -/
def Node.tachEdge (b : Bool) (n : Node) : Node :=
  if n.injecting .tachWire 0xFF then n.useInjection .tachWire 0xFF 1 else
  let n := n.modFan b fun f => { f with edges := n.now :: f.edges.filter fun e => decide (n.now < e + 1000000000) }
  let n := if n.core.sound.cal.any fun c => c.nextRound.isSome then n.calEnd .calUnstable [] else n
  n.tachSeen b

/-- The probe in progress ends and the probed fan returns to its source (R390). -/
def Node.endProbe (n : Node) : Node :=
  match n.core.sound.probe with
  | none => n
  | some p =>
    let n := n.modSound fun s => { s with probe := none }
    (n.modFan p.fan fun f => { f with phase := .running }).fanRefresh p.fan

/-- A tach turns silent (R390, R393): during the other fan's probe both are judged with the other idle. -/
def Node.tachSilent (b : Bool) (n : Node) : Node :=
  let f := n.fan b
  if !f.present || n.tachPresent b then n else
  let n := n.modFan b fun f => { f with present := false, silentSince := n.now, lowSince := none, duct := false }
  let n := n.fanCease .ductBlocked FanState.duct
  let other := match (n.fan (!b)).phase with
    | .probing s => if n.core.sound.probe.any fun p => p.fan != b then some s else none
    | _ => none
  let n := match other with
    | some s => (n.endProbe).judgeSilent (!b) s
    | none => n
  if f.phase = .running && n.supervised b then n.judgeSilent b false else n

/-- A start judgement's time has passed (R391, R396). -/
def Node.judgementEnd (b : Bool) (n : Node) : Node :=
  match (n.fan b).phase with
  | .judging v0 began ends =>
    if n.now < ends then n else
    let risen := n.airRisen b v0 began
    let present := n.tachPresent b
    let inWindow := decide (began ≤ n.core.sound.last.e)
    let inj := n.injecting .fanBlocked 0xFF
    let n :=
      if present then
        if risen then n.modFan b fun f => { f with phase := .running }
        else
          let n := n.modFan b fun f => { f with phase := .unproven }
          match n.fanPath b with
          | none => n
          | some p =>
            if (n.ductV b).isNone then n
            else (n.modFan b fun f => { f with duct := true }).trip .ductBlocked 1 0xFF (wN (idx p)) false
      else if inWindow && !inj then n.judgeSilent b true
      else n.silentVerdict b true false
    if inj then n.useInjection .fanBlocked 0xFF 1 else n
  | _ => n

/-- The end of a probe (R390): the drop of the duct velocity decides. -/
def Node.probeEnd (b : Bool) (n : Node) : Node :=
  match n.core.sound.probe, (n.fan b).phase with
  | some p, .probing atStart =>
    if p.fan != b || decide (n.now < p.ends) then n else
    let turning := p.vp.any fun v => decide (p.vb * n.par Pid.fanAirdrop (idx b) ≤ 100 * (p.vb - v))
    let n := n.endProbe
    let n := if n.tachPresent b then n else n.silentVerdict b atStart turning
    match (n.fan (!b)).phase with
    | .probing s => if n.tachPresent (!b) then n.modFan (!b) fun f => { f with phase := .running } else n.judgeSilent (!b) s
    | _ => n
  | _, _ => n

/-- The end of a kick (R392). -/
def Node.kickEnd (b : Bool) (n : Node) : Node :=
  match (n.fan b).phase with
  | .kicking k ends seen =>
    if n.now < ends then n else
    let inj := n.injecting .fanBlocked 0xFF
    let n :=
      if (seen || n.tachPresent b) && !inj then
        let n := n.modFan b fun f => { f with phase := .running, blocked := false }
        (n.fanCease .fanBlocked FanState.blocked).fanRefresh b
      else if n.parN Pid.fanRetries (idx b) ≤ k then n.lastKick b
      else (n.modFan b fun f => { f with phase := .pausing k (n.now + 5000000000) }).fanRefresh b
    if inj then n.useInjection .fanBlocked 0xFF 1 else n
  | _ => n

/-- The end of a pause (R392). -/
def Node.pauseEnd (b : Bool) (n : Node) : Node :=
  match (n.fan b).phase with
  | .pausing k ends => if n.now < ends then n else n.startKick b (k + 1)
  | _ => n

/-- FAN.STOPTIME passes (R393): for a watched fan still silent, or for a fan under F.TACH_WIRE without airflow. -/
def Node.stoptime (b : Bool) (n : Node) : Node :=
  let f := n.fan b
  let watched := f.watch.any fun e => decide (e ≤ n.now)
  let still := f.wire && f.lowSince.any fun e => decide (e + n.parN Pid.fanStoptime (idx b) * 1000000 ≤ n.now)
  if !(watched || still) || f.stopped || n.tachPresent b || !n.supervised b then n else
  (n.modFan b fun f => { f with watch := none, lowSince := none, stopped := true }).fanTrip .fanStopped 2 b (fanCtx b) false

/-- The duct velocity has stayed below FAN.AIRMIN for FAN.STOPTIME with the tach present (R395). -/
def Node.ductTimeout (b : Bool) (n : Node) : Node :=
  let f := n.fan b
  let low := f.lowSince.any fun e => decide (e + n.parN Pid.fanStoptime (idx b) * 1000000 ≤ n.now)
  match n.fanPath b with
  | none => n
  | some p =>
    if low && !f.duct && n.tachPresent b && decide (n.dutyPar Pid.fanMinduty b ≤ f.duty) && (n.ductV b).isSome then
      (n.modFan b fun f => { f with duct := true }).trip .ductBlocked 1 0xFF (wN (idx p)) false
    else n

/-- A published round is applied to R393's and R395's watches on the duct velocity. -/
def Node.fanAir (b : Bool) (n : Node) : Node :=
  let f := n.fan b
  let running := f.present && decide (n.dutyPar Pid.fanMinduty b ≤ f.duty)
  let low := (n.ductV b).map fun v => decide (v < n.airMin b)
  let since := match low with
    | some true => if running || f.wire then f.lowSince.or (some n.now) else none
    | some false => none
    | none => if f.wire then f.lowSince else none
  let duct := f.duct && running && low == some true
  (n.modFan b fun f => { f with lowSince := since, duct := duct }).fanCease .ductBlocked FanState.duct

/-- The commit of a CLEAR_FAULTS that clears F.FAN_BLOCKED frees a fan held off (R392). -/
def Node.freeHeld (n : Node) : Node :=
  eachFan (fun b m =>
    if (m.fan b).phase = .heldOff then (m.modFan b fun f => { f with phase := .unsupervised, blocked := false }).fanRefresh b
    else m) n

/-! ### Commands -/

/-- FAN_SET (R398, R23): the items are stored; the duty follows as R387 sets. -/
def cmdFanSet (op : PoolOp) (n : Node) : Ans × Node :=
  let w := pw op.packet 0
  let fans := [false, true].filter fun b => bitOf w (idx b)
  let items := fans.flatMap fun b =>
    (pidAt Pid.fanSrc (idx b), wN (fld w 3 2)) ::
      if fld w 3 2 = 0 then [(pidAt Pid.fanDuty (idx b), wN (fld w 13 4))] else []
  (.ok [], n.writeItems items)

/-- The two words of a fan in FAN_READ (R398). -/
def Node.fanWords (n : Node) (b : Bool) : List Word :=
  let f := n.fan b
  let (judging, retry, off) := match f.phase with
    | .judging .. => (true, false, false)
    | .kicking .. => (false, true, false)
    | .pausing .. => (false, true, false)
    | .heldOff => (false, false, true)
    | _ => (false, false, false)
  let duty := (clampI 0 1000 (roundDiv f.duty fxOne)).toNat
  [wN (duty + n.parN Pid.fanSrc (idx b) * 2 ^ 10 + flag judging 12 + flag retry 13 + flag off 14 + flag (n.tachPresent b) 15 +
      flag f.wire 16 + flag (n.core.sound.probe.any fun p => p.fan == b) 17 + flag n.core.sound.cal.isSome 18),
   wN (n.rpm b)]

/-- FAN_READ (R398). -/
def cmdFanRead (_ : PoolOp) (n : Node) : Ans × Node := (.ok (n.fanWords false ++ n.fanWords true), n)

/-- FAN1 is the second fan. -/
def isFan1 (f : Fan) : Bool := f == 1

/-! ### Rows -/

/-- FAN_SET. -/
def execFanSet (p : Packet) (s : State) : Host.Outcome State Fault Refusal := s.upd (Node.packetRow cmdFanSet (asRow .fanSet p))

/-- FAN_READ. -/
def execFanRead (p : Packet) (s : State) : Host.Outcome State Fault Refusal :=
  s.upd (Node.packetRow cmdFanRead (asRow .fanRead p))

/-- TACH_EDGE. -/
def execTachEdge (fan : Fan) (t : Nat) (s : State) : Host.Outcome State Fault Refusal :=
  s.upd fun n => n.whenUp fun n => (n.atT t).tachEdge (isFan1 fan)

/-- TACH_SILENT. -/
def execTachSilent (fan : Fan) (t : Nat) (s : State) : Host.Outcome State Fault Refusal :=
  s.upd fun n => n.whenUp fun n => (n.atT t).tachSilent (isFan1 fan)

/-- FAN_START_JUDGEMENT_END. -/
def execFanStartJudgementEnd (fan : Fan) (t : Nat) (s : State) : Host.Outcome State Fault Refusal :=
  s.upd fun n => n.whenUp fun n => (n.atT t).judgementEnd (isFan1 fan)

/-- FAN_PROBE_END. -/
def execFanProbeEnd (fan : Fan) (t : Nat) (s : State) : Host.Outcome State Fault Refusal :=
  s.upd fun n => n.whenUp fun n => (n.atT t).probeEnd (isFan1 fan)

/-- FAN_KICK_END. -/
def execFanKickEnd (fan : Fan) (t : Nat) (s : State) : Host.Outcome State Fault Refusal :=
  s.upd fun n => n.whenUp fun n => (n.atT t).kickEnd (isFan1 fan)

/-- FAN_PAUSE_END. -/
def execFanPauseEnd (fan : Fan) (t : Nat) (s : State) : Host.Outcome State Fault Refusal :=
  s.upd fun n => n.whenUp fun n => (n.atT t).pauseEnd (isFan1 fan)

/-- FAN_STOPTIME_EXPIRY. -/
def execFanStoptimeExpiry (fan : Fan) (t : Nat) (s : State) : Host.Outcome State Fault Refusal :=
  s.upd fun n => n.whenUp fun n => (n.atT t).stoptime (isFan1 fan)

/-- DUCT_BLOCKED_TIMEOUT. -/
def execDuctBlockedTimeout (fan : Fan) (t : Nat) (s : State) : Host.Outcome State Fault Refusal :=
  s.upd fun n => n.whenUp fun n => (n.atT t).ductTimeout (isFan1 fan)

end Sys2Proof.Machine
end

