-- ==== Sys2Proof/Machine/TimeRows.lean ====
section
/-!
DEFINITION. The time rows: TICK_REALIGN, SYNCIN edges and their realignment, slews and steps, holdover, the drift check
with its fallback, TIME_READ and TICK_STATS (04_frame_tick_and_time.md R133 to R155, R618).
-/
namespace Sys2Proof.Machine

/-! ### Commands -/

/-- TICK_REALIGN (R142): the new P0 falls on the time in force, at P0 of the commit tick. -/
def cmdTickRealign (_ : PoolOp) (n : Node) : Ans × Node := (.ok [], n.realign true)

/-- TICK_REALIGN. -/
def execTickRealign (p : Packet) (s : State) : Host.Outcome State Fault Refusal :=
  s.upd (Node.packetRow cmdTickRealign (asRow .tickRealign p))

/-- Holdover at P0 of the tick in progress (R154): no SYNC frame in the last cycle, and holdover has not ended. -/
def Node.holdover (n : Node) : Bool :=
  match n.time.lastSync with
  | some e => decide (n.cycleLen < n.time.p0e - e)
  | none => false

/-- TIME_READ (R154). -/
def cmdTimeRead (_ : PoolOp) (n : Node) : Ans × Node :=
  let t := n.time
  let w4 := t.mark.code + flag (n.parN Pid.refTsel 0 == 1) 2 + flag n.holdover 3 + flag t.slewing 4 + t.rate.code * 32
  (.ok [ltHi t.lt 0, ltLo t.lt, wN (t.k48 / 2 ^ 40 % 256), wN t.k48, wN w4, wI t.devPpb,
      if t.lastSync.isSome then wI t.measuredOffset else 0], n)

/-- TIME_READ. -/
def execTimeRead (p : Packet) (s : State) : Host.Outcome State Fault Refusal :=
  s.upd (Node.packetRow cmdTimeRead (asRow .timeRead p))

/-- The longest P2 use in the latest second of line time, ns (R155). -/
def TimeBase.longestP2 (t : TimeBase) : Nat :=
  (t.p2.filter fun e => decide (ltSub t.lt e.1 < 1000000000)).foldl (fun a e => max a e.2) 0

/-- TICK_STATS (R155). -/
def cmdTickStats (_ : PoolOp) (n : Node) : Ans × Node :=
  let t := n.time
  (.ok [wN t.realigns, wN t.steps, wN t.skipped, wN t.ignoredAligns, wN t.narrow, wN t.misses, wN t.longestP2], n)

/-- TICK_STATS. -/
def execTickStats (p : Packet) (s : State) : Host.Outcome State Fault Refusal :=
  s.upd (Node.packetRow cmdTickStats (asRow .tickStats p))

/-! ### SYNCIN -/

/-- The forward step of an ALIGN realignment at the time in force `te` (R140). -/
def alignStep (tick te : Nat) : Nat := if te % tick = 0 then 0 else (te / tick + 1) * tick - te

/-- Raises EV.SYNCIN (R138, R140). -/
def Node.syncinEvent (moved : Bool) (step : Nat) (n : Node) : Node :=
  n.event .syncin 0xFF n.stamp [wN (flag moved 0), wN step]

/-- Whether an edge falls within four tick periods of a realignment, or while one waits for its delay (R139). An edge exactly four tick
periods after it realigns: DESIGN CHOICE, log entry 104. -/
def Node.alignTooSoon (n : Node) : Bool :=
  n.time.alignDue.isSome || match n.time.lastRealign with
    | some e => decide (n.now - e < 4 * n.tick)
    | none => false

/-- SYNCIN_EDGE (R138 to R141): `high` is how long the pulse stays high, in ns. -/
def execSyncinEdge (high t : Nat) (s : State) : Host.Outcome State Fault Refusal :=
  s.upd fun n => n.whenCellar fun n =>
    let n := n.atT t
    if high < 50 then n.modTime fun t => { t with narrow := t.narrow + 1 }
    else match n.parN Pid.tickSyncmode 0 with
    | 0 => n
    | 1 => n.syncinEvent false 0
    | _ =>
      if n.time.mark = .lineTime ∨ n.alignTooSoon then
        (n.modTime fun t => { t with ignoredAligns := t.ignoredAligns + 1 }).syncinEvent false 0
      else
        let dly := n.parN Pid.tickSyncdly 0
        (n.modTime fun t => { t with alignDue := some (n.now + dly) }).syncinEvent true (alignStep n.tick (n.lt + dly))

/-- SYNCIN_REALIGN (R137, R140, R141): at the edge plus TICK.SYNCDLY, a new P0 with the time in force stepped to its tick;
at an instant that is P0 already the tick goes on as that P0. -/
def execSyncinRealign (t : Nat) (s : State) : Host.Outcome State Fault Refusal :=
  s.upd fun n => n.whenCellar fun n =>
    let n := n.atT t
    match n.time.alignDue with
    | none => n
    | some e =>
      if n.now < e then n
      else if n.time.mark = .lineTime then n.modTime fun t => { t with alignDue := none }
      else
        let n := n.atT (e - n.time.p0e)
        if n.time.dt = 0 then (n.modTime fun t => { t with alignDue := none }).realign true
        else (n.realign false).placeP0 (n.lt + alignStep n.tick n.lt)

/-! ### Slews and steps -/

/-- SLEW_END (R133, R147): the offset has fallen below 5 ns; a return to line time is then complete. -/
def execSlewEnd (t : Nat) (s : State) : Host.Outcome State Fault Refusal :=
  s.upd fun n => n.whenCellar fun n =>
    let n := n.atT t
    if n.time.slewing && decide (n.time.offsetPs.natAbs < 5000) then
      let back := n.time.returning
      let n := n.modTime fun t => { t with slewing := false, returning := false }
      if back then n.setMark .lineTime else n
    else n

/-- The corrected time at which a step takes effect (R134): the first whole multiple of T_tick it reaches. -/
def stepTarget (tick : Nat) (corrected : Int) : Nat := (-((-corrected) / tick) * tick).toNat

/-- TIME_STEP (R134, R147): the time takes the corrected value at the next multiple of T_tick, the ticks realign, and
EV.TIME_STEP is raised; a first reception or a return makes the mark LINE. -/
def execTimeStep (s : State) : Host.Outcome State Fault Refusal :=
  s.upd fun n => n.whenCellar fun n =>
    match n.time.stepDue with
    | none => n
    | some off =>
      let corrected : Int := n.lt + off
      let target := stepTarget n.tick corrected
      let n := n.atT (n.time.dt + ((target : Int) - corrected).toNat)
      let line := n.time.mark = .localEpoch ∨ n.time.returning
      let n := (n.realign false).placeP0 target
      let n := n.modTime fun t =>
        { t with steps := t.steps + 1, stepped := decide (0 < off), slewing := false, offsetPs := 0, returning := false, received := true }
      let st : Stamp := { n.stamp with mark := if line then .lineTime else n.time.mark }
      let n := n.event .timeStep 0xFF st [wI off]
      if line then n.setMark .lineTime else n

/-- No SYNC frame arrives any more (R146, R149, R154): the open drift window is abandoned. -/
def Node.syncLost (n : Node) : Node :=
  n.modTime fun t => { t with lastSync := none, lineAt := none, windowOpen := none, badWindows := 0, measuredOffset := 0 }

/-- HOLDOVER_END (R146, R149): REF.THOLD has passed without a SYNC frame; a slew ends where it stands. -/
def execHoldoverEnd (t : Nat) (s : State) : Host.Outcome State Fault Refusal :=
  s.upd fun n => n.whenCellar fun n =>
    let n := n.atT t
    match n.time.lastSync with
    | none => n
    | some e =>
      if n.now < e + n.parN Pid.refThold 0 then n else
      let n := n.syncLost.modTime fun t => { t with slewing := false, stepDue := none, returning := false }
      if n.time.mark = .lineTime then n.setMark .localTime else n

/-! ### The drift check -/

/-- The context word of F.REF_T (R150): it marks the crystal. -/
def refTCtx (crystal : Bool) : Word := twoContexts .refT crystal

/-- The condition of F.REF_T follows both criteria (R150, R506). -/
def Node.refTSettle (n : Node) : Node := if n.time.driftOut || n.time.crystalOut then n else n.cease .refT 0xFF

/-- The crystal against the RC arbiter (R150): beyond ±2.5 % it is class 3. -/
def Node.judgeCrystal (arbPpm : Int) (n : Node) : Node :=
  let out := decide (25000 < arbPpm.natAbs)
  let n := n.modTime fun t => { t with crystalOut := out }
  if out && n.up then n.trip .refT 3 0xFF (refTCtx true) false else n

/-- A window's class of F.REF_T for line time (R150), from the deviation in ppb and the consecutive windows beyond 200 ppm. -/
def driftClass (ppb : Int) (bad : Nat) : Nat :=
  if 200000 < ppb.natAbs then (if 2 ≤ bad then 2 else 0) else if 100000 < ppb.natAbs then 1 else 0

/-- The judgement of a window (R149 to R152): the fallback falls due with the class-2 fault. -/
def Node.judgeDrift (ppb : Int) (inj : Bool) (n : Node) : Node :=
  let inside := decide (ppb.natAbs ≤ 100000)
  let bad := if 200000 < ppb.natAbs then n.time.badWindows + 1 else 0
  let cls := driftClass ppb bad
  let n := n.modTime fun t =>
    { t with
      devPpb := ppb, insideBand := inside, badWindows := bad, goodWindows := if inside && t.fallback then t.goodWindows + 1 else 0
      driftOut := !inside && (t.driftOut || decide (0 < cls))
      fallbackDue := t.fallbackDue ||
        (decide (cls = 2) && n.parN Pid.refTswitch 0 != 0 && n.parN Pid.refTsel 0 == 0 && !t.fallback && t.mark == .lineTime) }
  if decide (0 < cls) && n.up then n.trip .refT cls 0xFF (refTCtx false) inj else n

/-- Line time returns to force after a fallback (R152), corrected to the offset last measured (R147). -/
def Node.leaveFallback (n : Node) : Node :=
  let n := n.modTime fun t => { t with fallback := false, fallbackDue := false, goodWindows := 0 }
  if n.time.lastSync.isSome then n.followLine (-n.time.measuredOffset) else n

/-- FALLBACK_RETURN: after ten consecutive windows inside the band line time returns and F.REF_T clears (R152). -/
def Node.fallbackReturn (n : Node) : Node :=
  if n.time.fallback && n.parN Pid.refTswitch 0 == 2 && decide (10 ≤ n.time.goodWindows) then
    let n := n.leaveFallback
    match n.inst .refT 0xFF with
    | some i => if i.cls ≤ 2 ∧ !n.time.crystalOut then n.clearInst i else n
    | none => n
  else n

/-- DRIFT_WINDOW_CLOSE (R149 to R152), at the arrival of the SYNC frame that closes the window: ΔLT is the difference of the line times
formed at its two arrivals, `xOpen` and `xClose` are the crystal's count at them, ns, and `arbPpm` is the crystal's deviation from the
arbiter. A negative ΔLT abandons the window. -/
def execDriftWindowClose (xOpen xClose arbPpm : Int) (t : Nat) (s : State) : Host.Outcome State Fault Refusal :=
  s.upd fun n => n.whenCellar fun n =>
    let n := n.atT t
    match n.time.windowOpen, n.time.lineAt with
    | some (opened, _), some (line, at_) =>
      let dLt := ltDiff line opened
      let dXtal := xClose - xOpen
      if at_ ≠ n.now ∨ dXtal < 1000000000 then n
      else if dLt < 0 then n.modTime fun t => { t with windowOpen := none, badWindows := 0 }
      else
        let inj := n.up && n.injecting .refT 0xFF
        let ppb := roundDiv ((dLt - dXtal) * 1000000000) dXtal + if inj then 250000 else 0
        let n := (n.useInjection .refT 0xFF 1).modTime fun t => { t with windowOpen := some (line, n.now) }
        (((n.judgeDrift ppb inj).judgeCrystal arbPpm).refTSettle).fallbackReturn
    | _, _ => n

/-- CRYSTAL_ARBITER_CHECK (R149, R150): only while no drift window is open. -/
def execCrystalArbiterCheck (arbPpm : Int) (t : Nat) (s : State) : Host.Outcome State Fault Refusal :=
  s.upd fun n => n.whenCellar fun n =>
    let n := n.atT t
    if n.time.windowOpen.isSome then n else (n.judgeCrystal arbPpm).refTSettle

/-- TIME_FALLBACK (R152): at the next P0 crystal time is in force, continued without a step. -/
def execTimeFallback (s : State) : Host.Outcome State Fault Refusal :=
  s.upd fun n => n.whenCellar fun n =>
    if !n.time.fallbackDue then n else
    let n := n.modTime fun t =>
      { t with fallbackDue := false, fallback := true, goodWindows := 0, slewing := false, offsetPs := 0, stepDue := none, returning := false }
    if n.time.mark = .lineTime then n.setMark .localTime else n

end Sys2Proof.Machine
end

