-- ==== Sys2Proof/Machine/FaultRows.lean ====
section
/-!
DEFINITION. The fault rows: FAULT_READ, FAULT_LOG, CLEAR_FAULTS, pitch points, the delivery of verdicts, event windows,
the log's time limit, the junction temperature and the scrubs (15_faults_and_pitch_points.md R499 to R521, R529 to R533;
16_firmware_and_store.md R536).
-/
namespace Sys2Proof.Machine

/-! ### FAULT_READ and FAULT_LOG -/

/-- Places an instance in descending class, then ascending code (R518). -/
def insertInst (i : FaultInst) : List FaultInst → List FaultInst
  | [] => [i]
  | j :: js => if j.cls < i.cls ∨ (i.cls = j.cls ∧ i.code.code < j.code.code) then i :: j :: js else j :: insertInst i js

/-- The five words of an active instance (R518). -/
def FaultInst.words (i : FaultInst) : List Word :=
  [wN (i.code.code + i.cls * 2 ^ 16 + i.scope * 2 ^ 18 + flag i.present 26 + flag i.reached 27 + flag i.injected 29),
   ltHi i.raised.lt 0, ltLo i.raised.lt, i.ctx, wN i.count]

/-- FAULT_READ (R518): every packet begins with the count word. -/
def cmdFaultRead (_ : PoolOp) (n : Node) : Ans × Node :=
  let is := n.core.faults.insts.foldl (fun a i => insertInst i a) []
  let packets := (chunksOf 49 is.length is).map fun xs => wN is.length :: xs.flatMap FaultInst.words
  (.final .done packets false, n)

/-- FAULT_READ. -/
def execFaultRead (p : Packet) (s : State) : Host.Outcome State Fault Refusal :=
  s.upd (Node.packetRow cmdFaultRead (asRow .faultRead p))

/-- The five words of a log entry (R517). -/
def LogEntry.words (e : LogEntry) : List Word :=
  [wN (e.code.code + e.cls * 2 ^ 16 + e.scope * 2 ^ 18 + e.kind * 2 ^ 26 + flag e.raised 28 + flag e.injected 29 + e.mark.code * 2 ^ 30),
   ltHi e.lt 0, ltLo e.lt, e.ctx, wN (e.seq.toNat + min e.occurrences 16777215 * 65536)]

/-- The entries of the log from a sequence number on; from the oldest where the log does not hold that number (R519). -/
def logFrom (seq : Nat) (log : List LogEntry) : List LogEntry :=
  if log.any fun e => e.seq.toNat == seq then log.dropWhile fun e => e.seq.toNat != seq else log

/-- FAULT_LOG (R519): 50 entries per packet. -/
def cmdFaultLog (op : PoolOp) (n : Node) : Ans × Node :=
  let w := pw op.packet 0
  let log := n.store.log
  let es := (if bitOf w 25 then logFrom (fld w 24 9) log else log).take (fld w 8 0)
  (.okLong (es.flatMap LogEntry.words), n)

/-- FAULT_LOG. -/
def execFaultLog (p : Packet) (s : State) : Host.Outcome State Fault Refusal :=
  s.upd (Node.packetRow cmdFaultLog (asRow .faultLog p))

/-! ### CLEAR_FAULTS -/

/-- The channel an instance is of; none for node scope (R112, R508). -/
def Node.instChannel (n : Node) (i : FaultInst) : Option Nat :=
  match i.code with
  | .steep => if i.cls = 3 then none else steepChannel n.core i.scope
  | _ => if i.scope < 4 then some i.scope else none

/-- Whether a CLEAR_FAULTS includes an instance (R508). -/
def Node.clearIncludes (n : Node) (p : Packet) (i : FaultInst) : Bool :=
  let w := pw p 0
  (fld w 15 0 == 0 || fld w 15 0 == i.code.code) && match n.instChannel i with
    | some c => bitOf (wN (n.maskOf p)) c
    | none => bitOf w 16

/-- Whether the condition of F.FAN_BLOCKED stands only for fans held off after their last kick (R392, R507). -/
def Node.onlyHeldOff (n : Node) : Bool :=
  [false, true].all fun b => !(n.fan b).blocked || (n.fan b).phase == .heldOff

/-- Whether CLEAR_FAULTS may clear an instance now (R112, R152, R507, R508). -/
def Node.clearable (n : Node) (i : FaultInst) : Bool :=
  match i.code with
  | .steep => false
  | .fanBlocked => !i.present || n.onlyHeldOff
  | .refT =>
    !i.present && (!(n.time.fallback || n.time.fallbackDue) || (n.parN Pid.refTswitch 0 == 1 && n.time.insideBand))
  | _ => !i.present

/-- Whether a channel's excitation is called for: outside CASK, or with NODE.CASKEXC (R21, R36, R121). -/
def Node.wantsExc (n : Node) (c : Ch) : Bool :=
  n.mode c == .resolver && n.takesPart c && (!(n.core.mode == .cask) || n.parN Pid.nodeCaskexc 0 == 1)

/-- F.EXC_OC of a channel has cleared (R163, R191): its excitation restarts where it is called for. -/
def Node.excAgain (c : Ch) (n : Node) : Node :=
  n.modFront c fun f =>
    let x : Exc := { f.exc with tripped := false }
    { f with exc := if n.wantsExc c then excRequestStart n.core.params c.val n.time.rate n.time.p0e x else { x with startDue := false } }

/-- What follows the clearing of an instance: excitation (R163), an output's high impedance (R365), a held-off fan (R392),
and the return of line time (R152). -/
def Node.afterClear (i : FaultInst) (n : Node) : Node :=
  match i.code with
  | .excOc => n.excAgain (Fin.ofNat 4 i.scope)
  | .dacShort => n.shortOn (Fin.ofNat 4 i.scope)
  | .fanBlocked => n.freeHeld
  | .refT => if n.time.fallback || n.time.fallbackDue then n.leaveFallback else n
  | _ => n

/-- CLEAR_FAULTS (R508): clears every included instance whose condition has ceased, and counts those that stay. -/
def cmdClearFaults (op : PoolOp) (n : Node) : Ans × Node :=
  let inc := n.core.faults.insts.filter (n.clearIncludes op.packet)
  let gone := inc.filter n.clearable
  let n := eachOf gone (fun i m => (m.clearInst i).afterClear i) n
  (.ok [wN (gone.length + (inc.length - gone.length) * 2 ^ 13)], n)

/-- CLEAR_FAULTS. -/
def execClearFaults (p : Packet) (s : State) : Host.Outcome State Fault Refusal :=
  s.upd (Node.packetRow cmdClearFaults (asRow .clearFaults p))

/-! ### Pitch points -/

/-- Whether a point applies to the channel's input kind and the present configuration (R530): each detector's own table,
R188, R217, R336, R364, R391 to R396, R423, R438. `scope` is this node's. -/
def Node.pitchApplies (n : Node) (f : FaultCode) (scope : Nat) : Bool :=
  let c : Ch := Fin.ofNat 4 scope
  let m := n.mode c
  let air := n.parN Pid.sndPaths 0 != 0
  let pathed := air && (n.parN Pid.fanPath 0 != 0xFF || n.parN Pid.fanPath 1 != 0xFF)
  match f with
  | .excOc | .excOpen => m == .resolver && n.parN Pid.excBuffer c.val == 0
  | .carrierPhase => m == .resolver
  | .inClip | .los | .dos => m == .resolver || m == .sincos
  | .sincosRate => m == .sincos
  | .hallInvalid => m == .hall
  | .ssiTimeout => m == .ssi
  | .ssiCrc => m == .ssi && n.parN Pid.inSsicrcw c.val != 0
  | .ssiErrbit => m == .ssi && n.parN Pid.inSsierrpos c.val != 0
  | .lot => m == .resolver || m == .sincos || m == .ssi
  | .indexDrift => (m == .sincos || m == .hall) && n.parN Pid.posIdxen c.val == 1
  | .emuRate => n.parN Pid.emuEn c.val == 1
  | .ferr | .deadline => !(m == .off)
  | .dacShort => !rangeCurrent (n.parN Pid.dacRange c.val)
  | .dacOpen => rangeCurrent (n.parN Pid.dacRange c.val)
  | .medium => air
  | .rtdOpen | .rtdShort | .rtdHot =>
    ([0, 1, 2, 3] : List Ch).any fun r => n.parN Pid.rtdEn r.val == 1 && n.parN Pid.rtdChan r.val == scope
  | .tachWire | .ductBlocked => pathed
  | .cycTimeout => !n.heading
  | .lineCycle => n.line.role == .head
  | .partnerLost => n.core.mode == .tandem
  | _ => true

/-- A free handle of the eight: the spec does not say which (R530, log entry 14). -/
def Node.freeHandle (n : Node) : Option Nat :=
  ((List.range 8).map fun i => (Config.handlePick n.core.nextOrder + i) % 8).find? fun h =>
    !(n.core.faults.points.any fun p => p.handle == h)

/-- A scope of a packet in this member's numbering (R53, R477): the upper member's channels are the pair's 4 to 7. -/
def Node.localScope (n : Node) (f : FaultCode) (scope : Nat) : Nat :=
  if n.isUpper && f != .steep && decide (4 ≤ scope) && decide (scope < 8) then scope - 4 else scope

/-- PITCH_ARM (R530, R531). -/
def cmdPitchArm (op : PoolOp) (n : Node) : Ans × Node :=
  let w := pw op.packet 0
  let w1 := pw op.packet 1
  match FaultCode.ofCode (fld w 15 0), n.freeHandle with
  | none, _ => (.fail .badParam, n)
  | some f, h =>
    let scope := n.localScope f (fld w 23 16)
    if !n.pitchApplies f scope then (.fail .refusedUnsafe, n)
    else if n.core.faults.points.any (fun p => p.code == f && p.scope == scope) then (.fail .busy, n)
    else match h with
    | none => (.fail .busy, n)
    | some h =>
      let cnt := fld w1 15 0
      let x : PitchPoint :=
        { handle := h, code := f, scope := scope, count := cnt
          left := match fld w 25 24 with
            | 0 => some 1
            | 1 => some cnt
            | _ => none
          due := wrapK (n.time.k48 + fld w1 39 16) }
      (.ok [wN h], n.modFaults fun z => { z with points := z.points ++ [x] })

/-- PITCH_ARM. -/
def execPitchArm (p : Packet) (s : State) : Host.Outcome State Fault Refusal :=
  s.upd (Node.packetRow cmdPitchArm (asRow .pitchArm p))

/-- PITCH_DISARM (R532). -/
def cmdPitchDisarm (op : PoolOp) (n : Node) : Ans × Node :=
  let w := pw op.packet 0
  let named := fun (p : PitchPoint) => bitOf w 3 || p.handle == fld w 2 0
  let k := (n.core.faults.points.filter named).length
  (.ok [wN k], n.modFaults fun z => { z with points := z.points.filter fun p => !named p })

/-- PITCH_DISARM. -/
def execPitchDisarm (p : Packet) (s : State) : Host.Outcome State Fault Refusal :=
  s.upd (Node.packetRow cmdPitchDisarm (asRow .pitchDisarm p))

/-! ### The fault manager -/

/-- FAULT_VERDICT (R499 to R514); a slot parked by the action is at rest (R323). -/
def execFaultVerdict (t : Nat) (s : State) : Host.Outcome State Fault Refusal :=
  s.upd fun n => n.whenUp fun n => (n.atT t).deliverVerdicts.settleRests

/-- FAULT_WINDOW_END (R516). -/
def execFaultWindowEnd (code scope t : Nat) (s : State) : Host.Outcome State Fault Refusal :=
  s.upd fun n => n.whenUp fun n =>
    let n := n.atT t
    match n.core.faults.windows.find? fun w => w.code.code == code && w.scope == scope with
    | some w => if w.ends ≤ n.now then n.endWindow w else n
    | none => n

/-- An entry has waited 20 ms and is not yet judged (R515). -/
def PendingLog.overdue (now : Nat) (x : PendingLog) : Bool := !x.late && decide (x.formed + 20000000 ≤ now)

/-- LOG_WRITE_TIMEOUT (R515): while F.LOG_WRITE is active, a further failure is counted in its instance. -/
def execLogWriteTimeout (t : Nat) (s : State) : Host.Outcome State Fault Refusal :=
  s.upd fun n => n.whenUp fun n =>
    let n := n.atT t
    let k := (n.core.faults.log.filter (PendingLog.overdue n.now)).length
    if k = 0 then n else
    let n := n.modFaults fun f =>
      { f with logFailing := true, log := f.log.map fun x => if x.overdue n.now then { x with late := true } else x }
    if n.isActive .logWrite 0xFF then n.modInst .logWrite 0xFF fun i => { i with count := i.count + k }
    else n.trip .logWrite 3 0xFF 0 false

/-! ### Junction temperature and scrubs -/

/-- TJ_READING (R521): `tj` is the M40 reading in °C. -/
def execTjReading (tj : Word) (t : Nat) (s : State) : Host.Outcome State Fault Refusal :=
  s.upd fun n => n.whenUp fun n =>
    let n := n.atT t
    let inj := n.injecting .overtemp 0xFF
    let r : Int := tj.toInt + if inj then 30 * 65536 else 0
    let w := satI r
    let warn := n.par Pid.fltTjwarn 0
    let n := (n.useInjection .overtemp 0xFF 1).modFaults fun f =>
      { f with
        tj := w, tjWarn := if warn < r then f.tjWarn + 1 else 0, tjHot := if 125 * 65536 < r then f.tjHot + 1 else 0 }
    if 2 ≤ n.core.faults.tjHot then n.trip .overtemp 3 0xFF w inj
    else if 2 ≤ n.core.faults.tjWarn then n.trip .overtemp 1 0xFF w inj
    else if r < warn - 5 * 65536 then n.cease .overtemp 0xFF
    else n

/-- The context word of an ECC fault (R521). -/
def eccCtx (addr : Nat) (bad : Bool) : Word := wN (addr + flag bad 32)

/-- One ECC error (R521): corrected, a note; uncorrectable, class 3. -/
def Node.eccFault (f : FaultCode) (addr : BitVec 32) (bad inj : Bool) (n : Node) : Node :=
  n.trip f (if bad then 3 else 0) 0xFF (eccCtx addr.toNat bad) inj

/-- The injected read of a test word (R521): COUNT with n = 2 flips two bits of one read, any other unit one bit. -/
def Node.eccInject (f : FaultCode) (addr : BitVec 32) (n : Node) : Node :=
  match n.point f 0xFF with
  | none => n
  | some p =>
    if p.count = 2 then ((n.useInjection f 0xFF 1).useInjection f 0xFF 1).eccFault f addr true true
    else (n.useInjection f 0xFF 1).eccFault f addr false true

/-- SRAM_SCRUB (R521): the errors the scrubber found, and the injected one at the test word of this firmware version. -/
def execSramScrub (errs : List EccError) (t : Nat) (s : State) : Host.Outcome State Fault Refusal :=
  s.upd fun n => n.whenUp fun n =>
    let n := n.atT t
    let n := eachOf errs (fun e m => m.eccFault .sramEcc e.addr e.uncorrectable false) n
    n.eccInject .sramEcc (Config.sramTestWord n.version)

/-- STORE_SCRUB (R521, R536): single-bit errors are corrected in place and counted. -/
def execStoreScrub (errs : List EccError) (t : Nat) (s : State) : Host.Outcome State Fault Refusal :=
  s.upd fun n => n.whenUp fun n =>
    let n := n.atT t
    let n := eachOf errs (fun e m => m.eccFault .storeEcc e.addr e.uncorrectable false) n
    let inj := match n.point .storeEcc 0xFF with
      | some p => p.count != 2
      | none => false
    let k := (errs.filter fun e => !e.uncorrectable).length + if inj then 1 else 0
    (n.eccInject .storeEcc 0xB1000).modStore fun s => { s with corrected := s.corrected + k }

end Sys2Proof.Machine
end

