-- ==== Sys2Proof/Machine/ChanTick.lean ====
section
/-!
DEFINITION. What P0 of a tick does on one channel: sampling, demodulation, the tracking step, SSI reads, and what a step
asks of the position services, the fault manager and encoder emulation (05_resolver_front_end.md R163 to R191;
06_tracking_converter.md R195 to R224; 07_green_and_kilned.md R237, R240; 08_latch_hop_emulation.md R258).
-/
namespace Sys2Proof.Machine

/-! ### Injection -/

/-- The injection units that apply to a channel's evaluations of this tick (R529). -/
def Node.chanInj (n : Node) (c : Ch) : ChanInj :=
  let on := fun (f : FaultCode) => n.injecting f c.val
  { excOc := on .excOc, excOpen := on .excOpen, inClip := on .inClip, carrier := on .carrierPhase, rate := on .sincosRate
    los := on .los, dos := on .dos, lot := on .lot }

/-- Applies one evaluation of each of several detectors of a channel (R531). -/
def Node.useInjections (fs : List FaultCode) (c : Ch) (n : Node) : Node := eachOf fs (fun f m => m.useInjection f c.val 1) n

/-! ### One channel -/

/-- What a channel's tick works on: the items, the channel, its kind, the rate and the tick, P0, and the injections. -/
structure TickEnv where
  ps : ParamMem
  c : Nat
  mode : InMode
  rate : TickRate
  k : Nat
  st : Stamp
  inj : ChanInj
  deriving DecidableEq, Repr

/-- What reaches a channel's front end at P0: the decimated samples of the tick, oldest first in µV, and the rest of its inputs. -/
structure ChanSamples where
  sin : List Int
  cos : List Int
  peakUa : Nat
  ocHalves : List Bool
  sdat : Bool
  deriving DecidableEq, Repr

/-- What a channel's tick comes to: its front end, what it asks of the node, and the detectors it evaluated. -/
structure TickOut where
  front : Front
  events : List ChanEvent := []
  used : List FaultCode := []
  deriving DecidableEq, Repr

/-- The settle window of a channel advances by one tick (R219); `true` when the tick lies in it. -/
def settleTick (t : Trk) : Bool × Trk :=
  if 0 < t.settle then (true, { t with settle := t.settle - 1, settleEnding := decide (t.settle = 1) }) else (false, t)

/-- The tick has not yielded a kilned value yet (R44). -/
def tickHead (t : Trk) : Trk := { t with fresh := false }

/-- At P0 the maps that wait take effect, before the tick's commands commit (R214, R215). -/
def Node.mapsDue (n : Node) : Node :=
  eachCh (fun c m => m.modFront c fun f =>
    { f with trk := { f.trk with map := f.trk.mapNext.getD f.trk.map, mapNext := none } }) n

/-- S with the sign of IN.DIR (R192). -/
def dirSign (ps : ParamMem) (c : Nat) (x : Int) : Int := if ps.nat Pid.inDir c = 1 then -x else x

/-- The elapsed instant from which the excitation has its full amplitude (R163, R170). -/
def excFull (now : Nat) (x : Exc) : Option Nat :=
  if !x.on then none else match x.fullSince, x.rampEnd with
  | some f, _ => some f
  | none, some r => if r ≤ now then some r else none
  | none, none => none

/-- A start that waited for the crossing begins at this P0 (R163). -/
def excStartDue (v : TickEnv) (x : Exc) : Exc :=
  if x.startDue && !x.on && !x.tripped then excStart v.ps v.c v.rate v.st.e x else x

/-- The turned measurement of a RESOLVER window (R201): corrected, referred to P0; and the uncorrected angle. -/
def resolverAngle (v : TickEnv) (freq : Nat) (t : Trk) (s q : Int) : Int × Int :=
  let raw := fxAtan2 s q
  let tau := fxRat (windowHalves freq v.rate) (4 * freq) + fxRat 11 10000000
  let corr := if v.ps.nat Pid.trkMapen v.c = 1 then mapCorrection t.map raw else 0
  (raw - corr + fxMul t.v tau + (if v.inj.lot then fxRat 1 36 else 0), raw)

/-- LEARN takes an uncorrected angle (R215). -/
def learnTick (v : TickEnv) (raw : Int) (clean : Bool) (t : Trk) : Trk :=
  match t.learn with
  | none => t
  | some l => { t with learn := some (learnStep v.rate (v.ps.nat Pid.trkCalrevs v.c) v.st.e raw clean t.dir l) }

/-- The step of a measured tick: inside a settle window it coasts; the first settled sample waits for its row (R219 to
R221). -/
def stepOrSettle (v : TickEnv) (x : StepIn) (t : Trk) : Trk × List ChanEvent :=
  let r := settleTick t
  if r.1 then trkStep v.ps v.c v.mode v.rate { x with clean := false } v.st false r.2
  else if t.settleEnding then
    ({ t with settleEnding := false, due := some (.settled x.m x.clean v.st) }, [])
  else trkStep v.ps v.c v.mode v.rate x v.st v.inj.lot t

/-- The step of a RESOLVER sample (R169, R201, R217): `s` and `q` are the demodulated sample, `base` its cleanliness
under R170, `counts` whether it counts for LOS and DOS. -/
def resolverSample (v : TickEnv) (freq : Nat) (s q : Int) (base counts : Bool) (t : Trk) : Trk × List ChanEvent :=
  let k := if v.inj.los then 4 else 1
  let s := dirSign v.ps v.c s / k / (if v.inj.dos then 2 else 1)
  let q := q / k
  let inside := decide (0 < t.settle)
  let l := trkLevels v.ps v.c (trkPredict v.rate v.st t) s q (counts && !inside) v.inj t
  let a := resolverAngle v freq l.1 s q
  let clean := base && l.2.1
  let t := learnTick v a.2 (clean && !inside) l.1
  let r := stepOrSettle v { m := a.1, clean := clean } t
  (r.1, l.2.2 ++ r.2)

/-- P0 on a RESOLVER channel (R163 to R175, R195). A sample is compensated with φ_c as it stands before this tick's move toward
φ_m, of which R173 gives no order: DESIGN CHOICE, log entry 90. Windows clean under R170 give φ_m inside a settle window too
(log entry 97). -/
def resolverTick (v : TickEnv) (x : ChanSamples) (f : Front) : TickOut :=
  let ps := v.ps
  let xs := forceClip ps v.c v.inj.inClip x.sin
  let sin := (xs.reverse ++ f.sin).take 400
  let cos := (x.cos.reverse ++ f.cos).take 400
  let d0 := driverDetectors ps v.c x.peakUa x.ocHalves v.inj v.st.e f.exc
  let exc := excStartDue v d0.1
  let clip := (xs ++ x.cos).any (isClipped ps v.c)
  let used := [FaultCode.excOc, .excOpen, .inClip]
  let f := { f with sin := sin, cos := cos, exc := exc, clipped := clip }
  if !f.trk.running then { front := f, events := d0.2, used := used } else
  let freq := exc.freq
  let d := demodulate ps v.c freq v.k v.rate (if v.inj.carrier then fxOne / 4 else 0) sin cos
  let since := max f.realignAt ((excFull v.st.e exc).getD v.st.e)
  let whole := (excFull v.st.e exc).isSome && windowAfter freq v.rate v.st.e since
  let base := whole && !d.bad
  let aw := fxSqrt (fxMul d.is d.is + fxMul d.qs d.qs + fxMul d.ic d.ic + fxMul d.qc d.qc)
  let low := decide (aw * 100 < ps.int Pid.trkLoslvl v.c * aNom ps v.c)
  let ev := d0.2 ++ clipEvents clip v.inj
  let t := tickHead f.trk
  match exc.meas with
  | some m =>
    if !(excFull v.st.e exc).any (fun e => decide (max e m.since < v.st.e)) then
      let r := stepOrSettle v { m := 0, clean := false } t
      { front := { f with trk := r.1 }, events := ev ++ r.2, used := used }
    else
      let m := { m with judged := if whole then m.judged + 1 else m.judged, low := if base && low then m.low + 1 else m.low }
      if !base || low then
        let r := stepOrSettle v { m := 0, clean := false } t
        { front := { f with exc := { exc with meas := some m }, trk := r.1 }, events := ev ++ r.2, used := used }
      else
        let m := { m with
          got := m.got + 1, num := m.num + 2 * (fxMul d.is d.qs + fxMul d.ic d.qc)
          den := m.den + fxMul d.is d.is + fxMul d.ic d.ic - fxMul d.qs d.qs - fxMul d.qc d.qc }
        let exc := { exc with meas := some m }
        if m.need ≤ m.got then
          { front := { f with exc := exc, trk := { t with due := some (.carrier d.is d.qs d.ic d.qc true v.st) } }, events := ev, used := used }
        else
          let r := stepOrSettle v { m := 0, clean := false } t
          { front := { f with exc := exc, trk := r.1 }, events := ev ++ r.2, used := used }
  | none =>
    let s := compensate d.is d.qs exc.phiC
    let q := compensate d.ic d.qc exc.phiC
    let judged := base && !low
    let cf := if judged then carrierFollow ps v.c v.rate d v.inj exc else (exc, [])
    let r := resolverSample v freq s q base whole t
    { front := { f with exc := cf.1, trk := r.1 }, events := ev ++ cf.2 ++ r.2
      used := used ++ [.los, .dos, .lot] ++ (if judged then [.carrierPhase] else []) }

/-- P0 on a SINCOS channel (R176 to R178, R195). -/
def sincosP0 (v : TickEnv) (x : ChanSamples) (f : Front) : TickOut :=
  if !f.trk.running then { front := f } else
  let ps := v.ps
  let xs := forceClip ps v.c v.inj.inClip x.sin
  let sin := xs.map (dirSign ps v.c)
  let clip := (xs ++ x.cos).any (isClipped ps v.c)
  let sc := sincosTick sin x.cos f.sc
  let fast := sc.fast || v.inj.rate
  let ev := clipEvents clip v.inj ++ (if fast then [.trip .sincosRate 0 v.inj.rate] else [.cease .sincosRate])
  let t := tickHead f.trk
  let k := if v.inj.los then 4 else 1
  let s := sin.getLast?.getD 0 * fxOne / k / (if v.inj.dos then 2 else 1)
  let q := x.cos.getLast?.getD 0 * fxOne / k
  let l := trkLevels ps v.c (trkPredict v.rate v.st t) s q (decide (t.settle = 0) && !x.sin.isEmpty) v.inj t
  let lines := ps.int Pid.inLines v.c
  let m := fxRat sc.count (4096 * lines) + fxMul l.1.v (fxRat 275 1000000000) + (if v.inj.lot then fxRat 1 36 else 0)
  let clean := !clip && !fast && !x.sin.isEmpty && l.2.1
  let r := stepOrSettle v { m := m, clean := clean, u := some (roundDiv (sc.count * 4096) lines), cnt := some sc.count } l.1
  { front := { f with sc := sc, clipped := clip, trk := r.1 }, events := ev ++ l.2.2 ++ r.2
    used := [.inClip, .sincosRate, .los, .dos, .lot] }

/-- P0 on a HALL channel (R182, R206): the latest edge at or before it counts. -/
def hallP0 (f : Front) : TickOut :=
  if !f.trk.running then { front := f } else
  { front := { f with hall := { f.hall with fresh := false }, trk := { tickHead f.trk with kilTick := f.trk.kil, fresh := f.hall.fresh } } }

/-- The step of an SSI word (R201, R206, R208, R213): the map correction is taken from m, from U and so from P40. For U this is
DEDUCED, log entry 91. -/
def ssiStepIn (v : TickEnv) (pos : Int) (field : Nat) (t : Trk) : StepIn :=
  let raw := ssiTurns v.ps v.c pos
  let m := raw - (if v.ps.nat Pid.trkMapen v.c = 1 then mapCorrection t.map raw else 0)
  { m := m + (if v.inj.lot then fxRat 1 36 else 0), clean := true, u := some (fxToAu m), cnt := some field
    ang := some (fxToAu raw) }

/-- The step of an SSI sample instant without a passing word (R201, R203). -/
def ssiUnclean (v : TickEnv) (st : Stamp) (f : Front) : Front × List ChanEvent :=
  let s := trkStep v.ps v.c v.mode v.rate { m := 0, clean := false } st false f.trk
  ({ f with trk := s.1 }, s.2)

/-- The oldest sample instant whose word is still awaited. -/
def ssiOpen (x : SsiIn) : Option Stamp := (x.result.map SsiResult.start).or x.reading

/-- Steps the sample instants without a word that lie before the oldest one still awaited (R201); the end of an acquisition that
waits for its row comes first. -/
def ssiFlush (v : TickEnv) (f : Front) : Front × List ChanEvent :=
  if f.trk.due.isSome then (f, []) else
  let now := fun (st : Stamp) => (ssiOpen f.ssi).all fun o => decide (st.e < o.e)
  (f.ssi.skipped.filter now).foldl (fun r st => let s := ssiUnclean v st r.1; (s.1, r.2 ++ s.2))
    ({ f with ssi := { f.ssi with skipped := f.ssi.skipped.filter fun st => !now st } }, [])

/-- A P0 at which no read starts (R184, R201): its step comes now, or after that of the word still awaited. -/
def ssiNoWord (v : TickEnv) (f : Front) : Front × List ChanEvent :=
  if (ssiOpen f.ssi).isSome || f.trk.due.isSome then ({ f with ssi := { f.ssi with skipped := f.ssi.skipped ++ [v.st] } }, [])
  else ssiUnclean v v.st f

/-- A word that failed its CRC or error bit, and for which the monoflop time has shown no timeout, is counted (R185, R189). -/
def ssiFailDue (v : TickEnv) (f : Front) : Front × List ChanEvent :=
  match f.ssi.failed with
  | none => (f, [])
  | some (g, injected) =>
    if v.st.e < f.ssi.readyAt then (f, []) else
    let r := ssiCount v.ps v.c (.fail g) injected { f.ssi with failed := none }
    ({ f with ssi := r.1 }, r.2)

/-- The step of an SSI sample instant whose read has ended (R188, R201, R208); LEARN takes the word as a measurement, unclean where
it failed (R215, log entry 99). -/
def ssiStep (v : TickEnv) (f : Front) : Front × List ChanEvent :=
  match f.ssi.result with
  | none => (f, [])
  | some r =>
    if v.st.e < r.lastBit + 200 then (f, []) else
    let ssi := { f.ssi with result := none }
    let w := { v with st := r.start }
    match r.word with
    | .fail _ => ssiUnclean v r.start { f with ssi := ssi, trk := learnTick w 0 false f.trk }
    | .pass field =>
      let pos := ssiPosition v.ps v.c field ssi.pos
      let t := learnTick w (ssiTurns v.ps v.c pos) true f.trk
      let s := trkStep v.ps v.c v.mode v.rate (ssiStepIn v pos field t) r.start v.inj.lot t
      ({ f with ssi := { ssi with pos := some (pos, field) }, trk := s.1 }, s.2)

/-- The start of an SSI read at P0 (R184), or its failure where SDAT is low; `low` is the injected level. -/
def ssiStart (v : TickEnv) (sdat low : Bool) (f : Front) : Front × List ChanEvent :=
  if f.ssi.reading.isSome || decide (v.st.e < f.ssi.readyAt) then ssiNoWord v f
  else if sdat && !low then
    ({ f with ssi := { f.ssi with reading := some v.st, monoAt := none, timedOut := false } }, [])
  else
    let r := ssiCount v.ps v.c (.fail .timeout) low f.ssi
    let s := ssiNoWord v { f with ssi := r.1, trk := learnTick v 0 false f.trk }
    (s.1, r.2 ++ s.2)

/-- Two parts of a channel's tick, one after the other. -/
def thenFront (g : Front → Front × List ChanEvent) (r : Front × List ChanEvent) : Front × List ChanEvent :=
  let s := g r.1
  (s.1, r.2 ++ s.2)

/-- P0 on an SSI channel (R183 to R189). -/
def ssiP0 (v : TickEnv) (x : ChanSamples) (low : Bool) (f : Front) : TickOut :=
  if !f.trk.running then { front := f } else
  let word := f.ssi.result.isSome
  let r := thenFront (ssiStart v x.sdat low) <| thenFront (ssiFlush v) <| thenFront (ssiStep v) <| thenFront (ssiFlush v) <|
    ssiFailDue v { f with trk := tickHead f.trk }
  { front := r.1, events := r.2, used := if word then [.ssiTimeout, .lot] else [.ssiTimeout] }

/-- P0 on a channel: its decimators take the bits of the tick (R166), and its input kind the samples. -/
def channelP0 (v : TickEnv) (x : ChanInput) (low : Bool) (f : Front) : TickOut :=
  let s := decimate v.ps v.c v.mode x.sin f.sinDec
  let q := decimate v.ps v.c v.mode x.cos f.cosDec
  let f := { f with sinDec := s.2, cosDec := q.2 }
  let x : ChanSamples := { sin := s.1, cos := q.1, peakUa := x.peakUa, ocHalves := x.ocHalves, sdat := x.sdat }
  match v.mode with
  | .resolver => resolverTick v x f
  | .sincos => sincosP0 v x f
  | .hall => hallP0 f
  | .ssi => ssiP0 v x low f
  | .off => { front := f }

/-! ### What a step asks of the node -/

/-- An index enters the FIFO where LAT.IDXFIFO is set (R258). -/
def Node.indexFifo (c : Ch) (falling : Bool) (st : Stamp) (n : Node) : Node :=
  if n.parN Pid.latIdxfifo c.val = 1 then n.capture c .index falling st else n

/-- The index registers take the first sample after an index; on a SINCOS or HALL channel with POS.IDXEN the deviation
is judged (R223, R224). -/
def Node.takeIndexAt (c : Ch) (cnt u : Int) (n : Node) : Node :=
  let ps := n.core.params
  let mode := n.mode c
  let judged := decide (ps.nat Pid.posIdxen c.val = 1) && (decide (mode = .sincos) || decide (mode = .hall))
  let inj := judged && n.injecting .indexDrift c.val
  let cnt' := if inj then cnt + ps.int Pid.posIdxtol c.val + 1 else cnt
  let t := (n.core.fronts.get c).trk
  let dev := match t.idxPrev with
    | some p => indexDev ps c.val mode p cnt' t.idxDirChanged
    | none => 0
  let n := n.modFront c fun f =>
    let t := takeIndex cnt' u f.trk
    { f with trk := { t with idxPrev := some cnt', idxDirChanged := false, idxErr := if judged && f.trk.idxPrev.isSome then dev else t.idxErr } }
  if !judged then n else
  let n := n.useInjection .indexDrift c.val 1
  if ps.int Pid.posIdxtol c.val < dev.natAbs then n.trip .indexDrift FaultCode.indexDrift.dfltClass c.val (satI dev) inj
  else n.cease .indexDrift c.val

/-- A channel's first kilned sample after a CASK-to-TRACK change (R36). -/
def Node.entryKilned (c : Ch) (n : Node) : Node :=
  match n.core.trackEntry with
  | none => n
  | some e =>
    if !e.waiting.contains c then n else
    let left := e.waiting.filter fun x => x != c
    if left.isEmpty then (n.endOpt e.op .done []).modCore fun k => { k with trackEntry := none }
    else
      let e' : TrackEntry := { e with waiting := left }
      n.modCore fun k => { k with trackEntry := some e' }

/-- The whole ticks from a word's sample instant to its step (R276), 0 for other kinds. -/
def Node.wordDelay (n : Node) (c : Ch) (k : Kil) : Nat :=
  if n.mode c = .ssi then (n.time.p0e - k.st.e) / n.tick else 0

/-- A kilned step (R36, R223, R236, R275, R309): the lap position, crossings, confirmations, a waiting index. -/
def Node.kilnedStep (c : Ch) (n : Node) : Node :=
  let t := (n.core.fronts.get c).trk
  match t.kil with
  | none => n
  | some k =>
    let n := n.lapStep c
    let n := match t.kilBefore with
      | some a => (n.crossHops c a k (n.wordDelay c k)).confirmWaves c a k
      | none => n
    let late := fun (st : Stamp) => decide (k.st.e < st.e)
    let n := n.modFront c fun f => { f with trk := { f.trk with idxDue := f.trk.idxDue.filter late } }
    let n := eachOf (t.idxDue.filter fun st => !late st) (fun _ m => m.takeIndexAt c k.cnt k.u) n
    (n.emuSeeded c).entryKilned c

/-- A virtual index (R223, R258): stamped where the line between the two kilned samples meets the whole turn. -/
def Node.virtualIndexAt (c : Ch) (cnt u : Int) (n : Node) : Node :=
  let t := (n.core.fronts.get c).trk
  let n := n.takeIndexAt c cnt u
  match t.kilBefore, t.kil with
  | some a, some b =>
    let back := decide (b.ang < a.ang)
    let edge := (if back then a.ang / 16777216 else b.ang / 16777216) * 16777216
    n.indexFifo c back (crossStamp { a with u := a.ang } { b with u := b.ang } edge)
  | _, _ => n

/-- Takes one thing a channel's step asks for. -/
def Node.chanEvent (c : Ch) (e : ChanEvent) (n : Node) : Node :=
  match e with
  | .refuted r origin st => n.refute c r origin st (n.emuCatchUp c)
  | .basis => n.emuBasis c
  | .anchor => n.emuReseed Emu.reseed c
  | .kilned => n.kilnedStep c
  | .index cnt u _ => n.virtualIndexAt c cnt u
  | e => n.faultEvent c e

/-- Takes the outcome of a channel's tick: emulation comes to this instant on the basis that ends, then takes the new one (R237). -/
def Node.takeTick (c : Ch) (o : TickOut) (n : Node) : Node :=
  let n := (n.emuBasis c).modFront c fun _ => o.front
  let n := eachOf o.events (Node.chanEvent c) n
  n.useInjections o.used c

/-- The environment of a channel's steps of this tick. -/
def Node.tickEnv (n : Node) (c : Ch) : TickEnv :=
  { ps := n.core.params, c := c.val, mode := n.mode c, rate := n.time.rate, k := n.time.k48, st := n.p0Stamp, inj := n.chanInj c }

/-! ### Steps whose rows stand apart -/

/-- The last measurement tick (R172): φ_m becomes EXC.PHASE and the compensation, and the tick's sample is stepped. -/
def carrierMeasured (v : TickEnv) (is qs ic qc : Int) (clean : Bool) (f : Front) : TickOut :=
  match f.exc.meas with
  | none => { front := f }
  | some m =>
    let ph := carrierPhase (v.ps.int Pid.excPhexp v.c) m.num m.den
    let phi := if v.ps.nat Pid.excPhmode v.c = 1 then tenthsToFx (v.ps.int Pid.excPhfix v.c) else tenthsToFx ph
    let exc := { f.exc with phase := ph, phiC := phi, meas := none }
    let r := resolverSample v exc.freq (compensate is qs phi) (compensate ic qc phi) clean true { f.trk with due := none }
    { front := { f with exc := exc, trk := r.1 }, events := r.2, used := [.los, .dos, .lot] }

/-- Runs the step of a channel that waits for its row. -/
def Node.runDue (c : Ch) (n : Node) : Node :=
  let f := n.core.fronts.get c
  let v := n.tickEnv c
  match f.trk.due with
  | none => n
  | some (.carrier is qs ic qc clean st) => n.takeTick c (carrierMeasured { v with st := st } is qs ic qc clean f)
  | some (.acquired st) =>
    let x : StepIn := match v.mode with
      | .sincos => { m := 0, clean := true, u := some (roundDiv (f.sc.count * 4096) (v.ps.int Pid.inLines v.c)), cnt := some f.sc.count }
      | .ssi => match f.ssi.pos with
        | some p => ssiStepIn v p.1 p.2 f.trk
        | none => { m := 0, clean := true }
      | _ => { m := 0, clean := true }
    let r := trkAcquired v.ps v.c v.mode x st f.trk
    n.takeTick c { front := { f with trk := r.1 }, events := r.2 }
  | some (.settled m clean st) =>
    let x : StepIn := match v.mode with
      | .sincos => { m := m, clean := clean, u := some (roundDiv (f.sc.count * 4096) (v.ps.int Pid.inLines v.c)), cnt := some f.sc.count }
      | _ => { m := m, clean := clean }
    let r := trkStep v.ps v.c v.mode v.rate x st false { f.trk with due := none }
    n.takeTick c { front := { f with trk := r.1 }, events := r.2 }

/-- The steps that wait for their rows, on every channel: they are steps of the tick, and what takes its values after the step
(R251, R418) finds them done. -/
def Node.runDues (n : Node) : Node := eachCh Node.runDue n

/-- P0 of the tick on a channel: a step of the tick before that still waits, and latch entries it made readable, come
first. -/
def Node.channelTick (c : Ch) (x : ChanInput) (n : Node) : Node :=
  let n := (n.runDue c).readyLatches c
  let f := n.core.fronts.get c
  if f.unavailable then n else
  n.takeTick c (channelP0 (n.tickEnv c) x (n.injecting .ssiTimeout c.val) { f with before := some f.trk })

end Sys2Proof.Machine
end

