-- ==== Sys2Proof/Machine/FrontRows.lean ====
section
/-!
DEFINITION. Events of the front end: Hall edges and their timeouts, SSI words and their monoflop time, the ends of the
excitation ramp and of the excitation, and the rows that close a carrier measurement, an acquisition and a settle window
(05_resolver_front_end.md R163 to R191; 06_tracking_converter.md R202, R207, R221; 08_latch_hop_emulation.md R286).
-/
namespace Sys2Proof.Machine

/-! ### HALL -/

/-- The HALL input takes an invalid code: the position stays at the last valid sector (R181, R191). -/
def Node.hallInvalid (c : Ch) (code : BitVec 3) (forced : Bool) (n : Node) : Node :=
  n.modFront c fun f =>
    { f with hall := { f.hall with
        code := code, invalidSince := f.hall.invalidSince.or (some n.now), forced := f.hall.forced || forced } }

/-- The kilned value of an accepted Hall edge (R206, R207). -/
def hallKil (h : HallIn) (st : Stamp) : Kil := { u := fxToAu h.u, v := (fxToV40 h.v).toInt, cnt := h.count, st := st }

/-- An accepted edge that yields a valid sector (R181, R182, R207): it is kilned, its |r| enters B0 and is judged (R238, R240). The
tick in progress keeps its kilned value until the next P0, unless the edge is stamped at its own P0. An edge from an invalid code back
into the same sector leaves U, V40 and CNT40 (DEDUCED, log entry 96). -/
def Node.hallValid (c : Ch) (code : BitVec 3) (s : Nat) (n : Node) : Node :=
  let ps := n.core.params
  let n := n.emuBasis c
  let f := n.core.fronts.get c
  if f.hall.code = code ∧ f.hall.sector = some s then n else
  let st := n.stamp
  let r := hallMove ps c.val f.trk.dir s st { f.hall with code := code, invalidSince := none, forced := false }
  let k := hallKil r.1 st
  let dev := diffAu k.u (frontPg ps c.val f st.e)
  let judged := f.hall.sector.isSome && f.trk.valid
  let t := trkKiln ps c.val .hall k (if judged then pushR dev f.trk else f.trk)
  let n := n.modFront c fun f =>
    if n.time.dt = 0 then { f with hall := { r.1 with fresh := false }, trk := t }
    else { f with hall := r.1, trk := { t with kilTick := f.trk.kilTick, fresh := f.trk.fresh } }
  let ev := if judged then refuteEvents ps c.val .hall dev false st else []
  let ev := ev ++ (if f.hall.sector.isSome then [] else [.anchor]) ++ [.kilned, .basis]
  let n := eachOf ev (Node.chanEvent c) n
  if r.2 then n.trip .hallInvalid FaultCode.hallInvalid.dfltClass c.val (twoContexts .hallInvalid true) false else n.cease .hallInvalid c.val

/-- A Hall edge that held for the filter time (R179 to R182), stamped where the new level first appeared; an injection
forces the code 0b111 (R191). -/
def Node.hallEdge (c : Ch) (code : BitVec 3) (held : Nat) (n : Node) : Node :=
  let f := n.core.fronts.get c
  if n.mode c ≠ .hall ∨ f.trk.running = false ∨ held < n.parN Pid.inHallflt c.val * 1000 then n else
  let inj := n.injecting .hallInvalid c.val
  let code := if inj then 7 else code
  let n := n.useInjection .hallInvalid c.val 1
  match hallSector n.core.params c.val code with
  | none => n.hallInvalid c code inj
  | some s => n.hallValid c code s

/-- HALL_EDGE. -/
def execHallEdge (ch : Ch) (code : BitVec 3) (held t : Nat) (s : State) : Host.Outcome State Fault Refusal :=
  s.upd fun n => n.whenUp fun n => (n.atT t).hallEdge ch code held

/-- HALL_INVALID_TIMEOUT (R181): the invalid code has held for longer than IN.HALLINV. -/
def execHallInvalidTimeout (ch : Ch) (t : Nat) (s : State) : Host.Outcome State Fault Refusal :=
  s.upd fun n => n.whenUp fun n =>
    let n := n.atT t
    let h := (n.core.fronts.get ch).hall
    match h.invalidSince with
    | some e =>
      if e + n.parN Pid.inHallinv ch.val * 1000 < n.now then
        n.trip .hallInvalid FaultCode.hallInvalid.dfltClass ch.val (twoContexts .hallInvalid false) h.forced
      else n
    | none => n

/-- HALL_STOP_TIMEOUT (R207): no edge for TRK.HALLSTOP makes the velocity zero. -/
def execHallStopTimeout (ch : Ch) (t : Nat) (s : State) : Host.Outcome State Fault Refusal :=
  s.upd fun n => n.whenUp fun n =>
    let n := n.atT t
    match (n.core.fronts.get ch).hall.stopAt with
    | some e =>
      if n.mode ch ≠ .hall ∨ n.now < e then n else
      ((n.emuBasis ch).modFront ch fun f =>
        { f with
          hall := { f.hall with v := 0, stopAt := none }
          trk := { f.trk with kil := f.trk.kil.map fun k => { k with v := 0 }, basis := { f.trk.basis with v := 0 } } }).emuBasis ch
    | none => n

/-! ### SSI -/

/-- The events of an SSI outcome reach the fault manager. -/
def Node.ssiTake (c : Ch) (x : SsiIn) (ev : List ChanEvent) (n : Node) : Node :=
  eachOf ev (Node.chanEvent c) (n.modFront c fun f => { f with ssi := x })

/-- A read's last bit has come (R184 to R189): the word is judged and waits for its tracking update; the next read may
start when IN.SSIMONO has passed since the last clock edge, which the sampling of the last bit follows by IN.SSIDLY (R183). A failing
word is counted when no timeout has shown in that time, since timeout is the first check (log entry 53). -/
def Node.ssiWord (c : Ch) (bits : List Bool) (n : Node) : Node :=
  let x := (n.core.fronts.get c).ssi
  match x.reading with
  | none => n
  | some st =>
    let crc := n.injecting .ssiCrc c.val
    let err := n.injecting .ssiErrbit c.val
    let o := ssiJudge n.core.params c.val bits crc err
    let mono := n.now - n.parN Pid.inSsidly c.val + n.parN Pid.inSsimono c.val * 1000
    let x : SsiIn :=
      { x with
        reading := none, readyAt := mono, monoAt := some mono, timedOut := false
        result := some { start := st, lastBit := n.now, word := o } }
    let r := match o with
      | .pass _ => ssiCount n.core.params c.val o false x
      | .fail g => ({ x with failed := some (g, match g with | .crc => crc | .errbit => err | .timeout => false) }, [])
    (n.ssiTake c r.1 r.2).useInjections [.ssiCrc, .ssiErrbit] c

/-- SSI_WORD. -/
def execSsiWord (ch : Ch) (bits : List Bool) (t : Nat) (s : State) : Host.Outcome State Fault Refusal :=
  s.upd fun n => n.whenUp fun n => (n.atT t).ssiWord ch bits

/-- SDATn has not returned high in the monoflop time (R184): the read just taken counts as a timeout, once. -/
def Node.ssiLate (c : Ch) (n : Node) : Node :=
  let x := (n.core.fronts.get c).ssi
  match x.monoAt with
  | none => n
  | some e =>
    if x.timedOut || decide (n.now < e) then n else
    let misses := if x.failed.isSome then x.misses else x.missesBefore
    let r := ssiCount n.core.params c.val (.fail .timeout) (n.injecting .ssiTimeout c.val) { x with failed := none, misses := misses }
    let res : Option SsiResult := x.result.map fun y => { y with word := .fail .timeout }
    n.ssiTake c { r.1 with timedOut := true, monoAt := none, result := res } r.2

/-- SSI_MONOFLOP_TIMEOUT. -/
def execSsiMonoflopTimeout (ch : Ch) (t : Nat) (s : State) : Host.Outcome State Fault Refusal :=
  s.upd fun n => n.whenUp fun n => (n.atT t).ssiLate ch

/-! ### Excitation -/

/-- EXCITATION_RAMP_END (R163): the amplitude has reached EXC.AMPL. -/
def execExcitationRampEnd (ch : Ch) (t : Nat) (s : State) : Host.Outcome State Fault Refusal :=
  s.upd fun n => n.whenUp fun n =>
    let n := n.atT t
    n.modFront ch fun f =>
      match f.exc.rampEnd with
      | some e => if f.exc.on && decide (e ≤ n.now) then { f with exc := { f.exc with rampEnd := none, fullSince := some e } } else f
      | none => f

/-- EXCITATION_STOP (R163): the excitation ends at its upward zero crossing; a start that waits begins at the next P0. -/
def execExcitationStop (ch : Ch) (t : Nat) (s : State) : Host.Outcome State Fault Refusal :=
  s.upd fun n => n.whenUp fun n =>
    let n := n.atT t
    n.modFront ch fun f =>
      match f.exc.stopAt with
      | some e => if e ≤ n.now then { f with exc := excOff f.exc } else f
      | none => f

/-! ### Steps with rows of their own -/

/-- CARRIER_PHASE_MEASURED (R172). -/
def execCarrierPhaseMeasured (ch : Ch) (s : State) : Host.Outcome State Fault Refusal :=
  s.upd fun n => n.whenUp fun n => match (n.core.fronts.get ch).trk.due with
    | some (.carrier ..) => n.runDue ch
    | _ => n

/-- ACQUISITION_DONE (R202). -/
def execAcquisitionDone (ch : Ch) (s : State) : Host.Outcome State Fault Refusal :=
  s.upd fun n => n.whenUp fun n => match (n.core.fronts.get ch).trk.due with
    | some (.acquired _) => n.runDue ch
    | _ => n

/-- SETTLE_WINDOW_END (R221). -/
def execSettleWindowEnd (ch : Ch) (s : State) : Host.Outcome State Fault Refusal :=
  s.upd fun n => n.whenUp fun n => match (n.core.fronts.get ch).trk.due with
    | some (.settled ..) => n.runDue ch
    | _ => n

/-! ### Emulation -/

/-- EMU_RATE_TIMEOUT (R286): the lag has stayed beyond 64 counts for 1 ms. -/
def execEmuRateTimeout (ch : Ch) (t : Nat) (s : State) : Host.Outcome State Fault Refusal :=
  s.upd fun n => n.whenUp fun n =>
    let n := (n.atT t).emuFollow ch
    match (n.core.pos.get ch).emu.lagSince with
    | some e => if e + 1000000 ≤ n.now then n.trip .emuRate FaultCode.emuRate.dfltClass ch.val 0 false else n
    | none => n.cease .emuRate ch.val

end Sys2Proof.Machine
end

