-- ==== Sys2Proof/Machine/PositionRows.lean ====
section
/-!
DEFINITION. The position commands: READ_POSITION, SET_POSITION, CALIBRATE_ANGLE, EXTRAPOLATE and what completes it,
HISTORY_READ (06_tracking_converter.md R210 to R216; 07_green_and_kilned.md R230 to R234; 08_latch_hop_emulation.md R264
to R271; 17_opcode_reference.md R573, R574).
-/
namespace Sys2Proof.Machine

/-- READ_POSITION (R231, R232, R573). -/
def cmdReadPosition (op : PoolOp) (n : Node) : Ans × Node :=
  let p := op.packet
  let one := fun (c : Ch) => n.kilnedGroup c ++ (if p.greenOk then n.greenGroup c else [])
  (.final .done [[ltHi n.time.lt 0, ltLo n.time.lt] ++ (n.chans p).flatMap one] p.greenOk, n)

/-- SET_POSITION (R210, R266, R574). -/
def cmdSetPosition (op : PoolOp) (n : Node) : Ans × Node :=
  let c := n.chan op.packet
  if n.slotRunning c then (.fail .wrongMode, n) else
  match n.kilned c with
  | none => (.fail .refusedUnsafe, n)
  | some k =>
    let v := pw op.packet 0 - wI k.u
    (.ok [v], (n.writeItems [(pidAt Pid.posOffset c.val, v)]).lapSet c k.u)

/-! ### CALIBRATE_ANGLE -/

/-- The entries of a WRITE (R214). -/
def mapOfWords (ws : List Word) : List (BitVec 16) :=
  ws.flatMap fun w => [BitVec.ofNat 16 (fld w 15 0), BitVec.ofNat 16 (fld w 31 16)]

/-- The words of a READ (R214): 128 words, entry 2i in reply word i, where the rule also speaks of word i + 1 as in a WRITE (DESIGN
CHOICE, log entry 119). -/
def wordsOfMap : List (BitVec 16) → List Word
  | a :: b :: rest => wN (a.toNat + b.toNat * 65536) :: wordsOfMap rest
  | _ => []

/-- Whether LEARN is accepted on a channel in the mode in force (R214). -/
def Node.mayLearn (n : Node) (c : Ch) : Bool :=
  match n.core.mode with
  | .track => true
  | .drive => !(n.core.slots.get c).enabled || decide (n.kind c = .velocity)
  | _ => false

/-- LEARN (R214, R215). -/
def learnMapStart (op : PoolOp) (c : Ch) (n : Node) : Ans × Node :=
  let t := (n.core.fronts.get c).trk
  if !n.mayLearn c then (.fail .wrongMode, n)
  else if t.learn.isSome then (.fail .busy, n)
  else if !t.running then (.fail .calUnstable, n)
  else (.wait, n.modFront c fun f => { f with trk := { f.trk with learn := some { op := op.order } } })

/-- A map takes effect at P0 of the following tick (R214). -/
def Node.setMap (c : Ch) (m : List (BitVec 16)) (n : Node) : Node :=
  n.modFront c fun f => { f with trk := { f.trk with mapNext := some m } }

/-- CALIBRATE_ANGLE (R214). -/
def cmdCalibrateAngle (op : PoolOp) (n : Node) : Ans × Node :=
  let c := n.chan op.packet
  if n.mode c = .sincos ∨ n.mode c = .hall then (.fail .refusedUnsafe, n) else
  match fld (pw op.packet 0) 1 0 with
  | 0 => learnMapStart op c n
  | 1 => (.ok [], n.setMap c (mapOfWords (op.packet.words.drop 1)))
  | 2 => (.ok (wordsOfMap (n.core.fronts.get c).trk.map), n)
  | _ => (.ok [], n.setMap c (List.replicate 256 0))

/-- The end of LEARN (R215): CAL_UNSTABLE, or the map is installed at the following P0 and TRK.MAPEN is set. -/
def Node.learnDone (c : Ch) (n : Node) : Node :=
  match (n.core.fronts.get c).trk.learn with
  | none => n
  | some l => match l.outcome with
    | none => n
    | some r =>
      let n := n.modFront c fun f => { f with trk := { f.trk with learn := none } }
      match r with
      | none => n.endOrder l.op .calUnstable []
      | some es =>
        let n := (n.setMap c (es.map (BitVec.ofInt 16))).setPar Pid.trkMapen c.val 1
        n.endOrder l.op .done [wN (es.foldl (fun a e => max a e.natAbs) 0)]

/-- Whether an instant lies more than 32,767 ticks ahead of the commit tick (R234). -/
def Node.tooFar (n : Node) (t : Nat) : Bool := !ltLe t (wrapLt (n.time.lt + 32767 * n.tick : Nat))

/-- A wait for a kilned step is entered (R234, R271). -/
def Node.addExtrap (op : PoolOp) (c : Ch) (k : ExtrapKind) (n : Node) : Node :=
  let w : ExtrapWait := { op := op.order, slot := op.slot, ch := c, kind := k }
  n.modCore fun x => { x with extraps := x.extraps ++ [w] }

/-- EXTRAPOLATE POS_AT (R234, R268, R269). -/
def extrapPosAt (op : PoolOp) (c : Ch) (t : Nat) (n : Node) : Ans × Node :=
  let xs := n.samples c
  match xs with
  | [] => if (n.core.fronts.get c).trk.running then (if n.tooFar t then (.fail .outOfRange, n) else (.wait, n.addExtrap op c (.posAt t)))
      else (n.posReply op.packet c [0, 0, vmNone], n)
  | k :: _ =>
    if !ltLe t k.st.lt then
      if n.tooFar t then (.fail .outOfRange, n)
      else if (n.core.fronts.get c).trk.running then (.wait, n.addExtrap op c (.posAt t))
      else (n.posReply op.packet c [0, 0, vmNone], n)
    else match bracket t xs with
      | none => (.fail .outOfRange, n)
      | some (a, b) =>
        if a.st.mark ≠ .lineTime ∨ b.st.mark ≠ .lineTime then (.fail .refusedUnsafe, n)
        else (n.posReply op.packet c (n.valueAt c a b t), n)

/-- The kilned group of PREDICT (R270, R557): P40, V40 and VM40. -/
def Node.kilnedMark (n : Node) (c : Ch) : List Word :=
  let g := n.kilnedGroup c
  g.take 2 ++ g.drop 3

/-- EXTRAPOLATE PREDICT (R269, R270): the kilned group, then P_g at the instant with its bound. -/
def extrapPredict (op : PoolOp) (c : Ch) (t : Nat) (n : Node) : Ans × Node :=
  let f := n.core.fronts.get c
  if !op.packet.greenOk then (.fail .badParam, n)
  else if n.tooFar t then (.fail .outOfRange, n)
  else match n.kilned c with
  | none => (.final .done [n.kilnedMark c ++ [0, 0, vmNone, 549755813887]] true, n)
  | some k =>
    if ltLe t k.st.lt then (.fail .outOfRange, n) else
    let e := ((n.time.p0e : Int) + ltDiff t n.time.lt).toNat
    let b := f.trk.basis
    (.final .done [n.kilnedMark c ++
      [n.p40 c (frontPg n.core.params c.val f e), wI b.v, vm40 1 b.coast b.st.mark 6 ((e : Int) - b.st.e),
       wI (greenBound n.core.params c.val (n.mode c) f.trk e)]] true, n)

/-- The reply of TIME_AT (R271) for a crossing between two samples. -/
def timeWords (a b : Kil) (target : Int) : List Word :=
  let x := crossStamp a b target
  let v := (interpolate 0 a b x.e).2
  [ltHi x.lt 0, ltLo x.lt, wI v, vm40 0 (spanCoast a b) b.st.mark 7 0]

/-- The first crossing at or after an instant in samples, oldest first (R271, R275). -/
def firstCrossing (dir : Nat) (target : Int) (start : Nat) : List Kil → Option (Kil × Kil)
  | a :: b :: rest =>
    if crosses dir target a.u b.u && ltLe start (crossStamp a b target).lt then some (a, b)
    else firstCrossing dir target start (b :: rest)
  | _ => none

/-- A P40 target as a raw position, the nearest to the channel's latest kilned position (R8, R266). -/
def Node.rawTarget (n : Node) (c : Ch) (w : Word) : Int :=
  let u := (n.lastKil c).u
  u + diff40 w (n.p40 c u)

/-- EXTRAPOLATE TIME_AT (R269, R271). -/
def extrapTimeAt (op : PoolOp) (c : Ch) (start : Nat) (n : Node) : Ans × Node :=
  let w4 := pw op.packet 4
  let target := n.rawTarget c (pw op.packet 3)
  let rev := fld w4 1 0 == 1
  let xs := n.samples c
  let early : Bool := match xs.getLast? with
    | some k => !ltLe k.st.lt start
    | none => false
  let foreign : Bool := match bracket start xs with
    | some (a, b) => a.st.mark != .lineTime || b.st.mark != .lineTime
    | none => false
  if foreign then (.fail .refusedUnsafe, n)
  else if early || n.tooFar start then (.fail .outOfRange, n)
  else match firstCrossing (if rev then 1 else 0) target start xs.reverse with
    | some (a, b) => (.ok (timeWords a b target), n)
    | none => (.wait, n.addExtrap op c (.timeAt target rev start (n.time.p0e + fld w4 18 2 * 1000000)))

/-- EXTRAPOLATE (R267, R269): the mark given is LINE. -/
def cmdExtrapolate (op : PoolOp) (n : Node) : Ans × Node :=
  let p := op.packet
  let c := n.chan p
  let t := ltOf (pw p 1) (pw p 2)
  if fld (pw p 0) 3 2 ≠ 0 then (.fail .refusedUnsafe, n) else
  match fld (pw p 0) 1 0 with
  | 0 => extrapPosAt op c t n
  | 1 => extrapPredict op c t n
  | _ => extrapTimeAt op c t n

/-- A kilned crossing of the target completes TIME_AT (R271). -/
def Node.timeCrossing (w : ExtrapWait) (n : Node) : Node :=
  let tr := (n.core.fronts.get w.ch).trk
  match w.kind, tr.kilBefore, tr.kil with
  | .timeAt target rev start _, some a, some b =>
    if crosses (if rev then 1 else 0) target a.u b.u && ltLe start (crossStamp a b target).lt then
      n.endExtrap w (timeWords a b target)
    else n
  | _, _, _ => n

/-- HISTORY_READ (R265): a count of 0 in the 12-bit field asks for 4,096 entries. -/
def cmdHistoryRead (op : PoolOp) (n : Node) : Ans × Node :=
  let p := op.packet
  let c := n.chan p
  let k := if fld (pw p 0) 11 0 = 0 then 4096 else fld (pw p 0) 11 0
  let from_ := ltOf (pw p 1) (pw p 2)
  let es := (((n.core.pos.get c).hist.filter fun h => ltLe from_ h.st.lt).reverse).take k
  let entry := fun (h : Kil) => [n.p40 c h.u, wI h.v, vm40 0 false h.st.mark 0 0, ltHi h.st.lt 0, ltLo h.st.lt]
  (.final .done ((chunksOf 50 es.length es).map fun x => x.flatMap entry) false, n)

/-! ### Rows -/

/-- READ_POSITION. -/
def execReadPosition (p : Packet) (s : State) : Host.Outcome State Fault Refusal :=
  s.upd (Node.packetRow cmdReadPosition (asRow .readPosition p))

/-- SET_POSITION. -/
def execSetPosition (p : Packet) (s : State) : Host.Outcome State Fault Refusal :=
  s.upd (Node.packetRow cmdSetPosition (asRow .setPosition p))

/-- CALIBRATE_ANGLE, LEARN. -/
def execCalibrateAngleLearn (p : Packet) (s : State) : Host.Outcome State Fault Refusal :=
  s.upd (Node.packetRow cmdCalibrateAngle (withBits 0 2 0 (asRow .calibrateAngle p)))

/-- CALIBRATE_ANGLE, WRITE. -/
def execCalibrateAngleWrite (p : Packet) (s : State) : Host.Outcome State Fault Refusal :=
  s.upd (Node.packetRow cmdCalibrateAngle (withBits 0 2 1 (asRow .calibrateAngle p)))

/-- CALIBRATE_ANGLE, READ. -/
def execCalibrateAngleRead (p : Packet) (s : State) : Host.Outcome State Fault Refusal :=
  s.upd (Node.packetRow cmdCalibrateAngle (withBits 0 2 2 (asRow .calibrateAngle p)))

/-- CALIBRATE_ANGLE, CLEAR. -/
def execCalibrateAngleClear (p : Packet) (s : State) : Host.Outcome State Fault Refusal :=
  s.upd (Node.packetRow cmdCalibrateAngle (withBits 0 2 3 (asRow .calibrateAngle p)))

/-- CALIBRATE_ANGLE_LEARN_DONE. -/
def execCalibrateAngleLearnDone (ch : Ch) (s : State) : Host.Outcome State Fault Refusal :=
  s.upd fun n => n.whenUp (Node.learnDone ch)

/-- EXTRAPOLATE, POS_AT. -/
def execExtrapolatePosAt (p : Packet) (s : State) : Host.Outcome State Fault Refusal :=
  s.upd (Node.packetRow cmdExtrapolate (withBits 0 2 0 (asRow .extrapolate p)))

/-- EXTRAPOLATE, PREDICT. -/
def execExtrapolatePredict (p : Packet) (s : State) : Host.Outcome State Fault Refusal :=
  s.upd (Node.packetRow cmdExtrapolate (withBits 0 2 1 (asRow .extrapolate p)))

/-- EXTRAPOLATE, TIME_AT. -/
def execExtrapolateTimeAt (p : Packet) (s : State) : Host.Outcome State Fault Refusal :=
  s.upd (Node.packetRow cmdExtrapolate (withBits 0 2 2 (asRow .extrapolate p)))

/-- The wait of a pool slot. -/
def Node.extrapOf (n : Node) (slot : Nat) : Option ExtrapWait := n.core.extraps.find? fun w => w.slot == slot

/-- EXTRAPOLATE_VALUE_READY. -/
def execExtrapolateValueReady (slot : Nat) (s : State) : Host.Outcome State Fault Refusal :=
  s.upd fun n => n.whenUp fun n => match n.extrapOf slot with
    | some w => n.valueReady w
    | none => n

/-- TIME_AT_CROSSING. -/
def execTimeAtCrossing (slot : Nat) (s : State) : Host.Outcome State Fault Refusal :=
  s.upd fun n => n.whenUp fun n => match n.extrapOf slot with
    | some w => n.timeCrossing w
    | none => n

/-- TIME_AT_TIMEOUT (R271). -/
def execTimeAtTimeout (slot t : Nat) (s : State) : Host.Outcome State Fault Refusal :=
  s.upd fun n => n.whenUp fun n =>
    let n := n.atT t
    match n.extrapOf slot with
    | some w => match w.kind with
      | .timeAt _ _ _ deadline => if deadline ≤ n.now then n.endExtrap w [0, 0, 0, vmNone] else n
      | _ => n
    | none => n

/-- HISTORY_READ. -/
def execHistoryRead (p : Packet) (s : State) : Host.Outcome State Fault Refusal :=
  s.upd (Node.packetRow cmdHistoryRead (asRow .historyRead p))

end Sys2Proof.Machine
end

