-- ==== Sys2Proof/Machine/HopRows.lean ====
section
/-!
DEFINITION. Hop entries and compare outputs: HOP_ADD, HOP_REMOVE, HOP_LIST, the firings, expiry, pulse ends and the
judgement of green firings (07_green_and_kilned.md R239 to R243; 08_latch_hop_emulation.md R272 to R283).
-/
namespace Sys2Proof.Machine

/-! ### HOP_ADD -/

/-- The highest free slot at or below `i`: the upper member's entries (log entry 24). -/
def freeSlotDown (used : List Nat) : Nat → Nat → Nat
  | 0, i => i
  | f + 1, i => if used.contains i then freeSlotDown used f (i - 1) else i

/-- The slot of a new entry of a command: a free one, the command's own among them (R273). -/
def Node.hopSlot (n : Node) (op : PoolOp) : Nat :=
  let used := (n.core.pool.map PoolOp.slot).filter (fun s => s != op.slot) ++ n.core.hops.map HopEntry.slot
  if n.isUpper then freeSlotDown used used.length 4095
  else freeSlot used used.length (n.slotStart op.order (n.core.hops.length + 1))

/-- What a descriptor resolves to (R274): the absolute target and BEHIND; none where the target or lap number lies
outside the axis. -/
def Node.resolveHop (n : Node) (c : Ch) (w0 w2 w3 : Word) : Option (Int × Bool) :=
  let lap := fld w3 39 24
  let reverse := match fld w2 39 38 with
    | 0 => false
    | 1 => true
    | _ => !(n.core.fronts.get c).trk.dir
  let u := (n.lastKil c).u
  if n.parN Pid.prfAxis c.val = 1 then
    let m := n.modulus c
    let q := (n.core.slots.get c).lap.getD ((n.p40 c u).toInt % m)
    let d0 := if reverse then (q - w0.toInt) % m else (w0.toInt - q) % m
    let d := (if d0 = 0 then m else d0) + lap * m
    if w0.toInt < 0 ∨ m ≤ w0.toInt then none else some (if reverse then u - d else u + d, false)
  else
    let t := n.rawTarget c w0
    let past := (n.kilned c).isSome && (if reverse then decide (u ≤ t) else decide (t ≤ u))
    if lap ≠ 0 then none else some (t, past)

/-- Arms one entry (R273, R274, R281): in the command's own slot it is the use the command has begun. -/
def Node.armHop (op : PoolOp) (c : Ch) (target : Int) (behind : Bool) (w1 w2 w3 : Word) (n : Node) : HopEntry × Node :=
  let s := n.hopSlot op
  let us := if s = op.slot then n.core.slotUses else bumpUses s n.core.slotUses
  let h : HopEntry :=
    { slot := s, uses := usesOf s us, client := op.client, ch := c, target := target, w1 := w1, w2 := w2, w3 := w3
      expiry := if fld w3 23 0 = 0 then none else some (n.time.p0e + fld w3 23 0 * 1000000), behind := behind }
  (h, n.modCore fun k => { k with hops := k.hops ++ [h], slotUses := us })

/-- The handle word (R273). -/
def HopEntry.word (h : HopEntry) : Word := wN (h.handle + flag h.behind 24)

/-- Arms the entries of a HOP_ADD in order, gathering their handle words. -/
def Node.armHops (op : PoolOp) (c : Ch) : List ((Word × Word × Word × Word) × (Int × Bool)) → Node → List Word × Node
  | [], n => ([], n)
  | (e, t) :: rest, n =>
    let r := n.armHop op c t.1 t.2 e.2.1 e.2.2.1 e.2.2.2
    let x := r.2.armHops op c rest
    (r.1.word :: x.1, x.2)

/-- HOP_ADD (R272 to R274): all or nothing. -/
def cmdHopAdd (op : PoolOp) (n : Node) : Ans × Node :=
  let c := n.chan op.packet
  let es := hopWords op.packet.words
  let ts := es.map fun e => n.resolveHop c e.1 e.2.2.1 e.2.2.2
  if ts.any Option.isNone then (.fail .outOfRange, n) else
  let r := n.armHops op c (es.zip (ts.filterMap id))
  (.ok r.1, r.2)

/-! ### HOP_REMOVE and HOP_LIST -/

/-- Removes entries without an event (R282): how many, and the node after it. -/
def Node.removeHops (f : HopEntry → Bool) (n : Node) : Nat × Node :=
  ((n.core.hops.filter f).length, n.modCore fun k => { k with hops := k.hops.filter fun h => !f h })

/-- Removes handles in order, gathering their words. -/
def Node.removeHandles : List Word → Node → List Word × Node
  | [], n => ([], n)
  | w :: ws, n =>
    let r := n.removeHops fun h => h.handle == fld w 23 0
    let x := r.2.removeHandles ws
    (wN r.1 :: x.1, x.2)

/-- HOP_REMOVE (R282). -/
def cmdHopRemove (op : PoolOp) (n : Node) : Ans × Node :=
  let p := op.packet
  let w := pw p 0
  match fld w 1 0 with
  | 0 =>
    let r := n.removeHandles (p.words.drop 1)
    (.ok (wN (r.1.foldl (fun a x => a + x.toNat) 0) :: r.1), r.2)
  | 1 =>
    let r := n.removeHops fun h => (n.chans p).contains h.ch
    (.ok [wN r.1], r.2)
  | _ =>
    let r := n.removeHops fun h => (n.chans p).contains h.ch && h.output == fld w 4 2
    (.ok [wN r.1], r.2)

/-- Places an entry in the order of target in direction D (R283). -/
def insertHop (fwd : Bool) (h : HopEntry) : List HopEntry → List HopEntry
  | [] => [h]
  | x :: xs => if (if fwd then h.target < x.target else x.target < h.target) then h :: x :: xs else x :: insertHop fwd h xs

/-- HOP_LIST (R283). -/
def cmdHopList (op : PoolOp) (n : Node) : Ans × Node :=
  let c := n.chan op.packet
  let mine := (n.core.hops.filter fun h => h.ch == c).foldl (fun a h => insertHop (n.core.fronts.get c).trk.dir h a) []
  let words := fun (h : HopEntry) => [h.word, n.p40 c h.target, h.w1, h.w2, h.w3]
  (.final .done ((chunksOf 50 mine.length mine).map fun xs => xs.flatMap words) false, n)

/-! ### Firing -/

/-- The firing of an entry on its kilned crossing at t_F (R276), where that is not after its expiry (R281). -/
def Node.hopFireKilned (handle : Nat) (n : Node) : Node :=
  match n.hop handle with
  | none => n
  | some h => match h.crossed with
    | none => n
    | some (tx, tf) =>
      if n.now < tf || h.expiry.any (fun e => decide (e < tf)) then n else n.fireHop h false tx

/-- The conditions of a green firing at this instant (R239, R277). -/
def Node.greenReady (n : Node) (h : HopEntry) : Bool :=
  let f := n.core.fronts.get h.ch
  let e := n.now + h.lead
  let pg := frontPg n.core.params h.ch.val f e
  match f.trk.kil with
  | none => false
  | some k =>
    let ahead := diffAu h.target k.u
    let past := diffAu pg h.target
    let fwd := match h.dir with
      | 0 => true
      | 1 => false
      | _ => decide (0 < ahead)
    let reached := if fwd then decide (0 ≤ past) && decide (0 < ahead) else decide (past ≤ 0) && decide (ahead < 0)
    let sign := match h.dir with
      | 0 => decide (0 < k.v)
      | 1 => decide (k.v < 0)
      | _ => true
    (decide (0 < h.lead) || n.parN Pid.hopGreen h.ch.val == 1) && reached && sign && h.crossed.isNone &&
      decide (greenBound n.core.params h.ch.val (n.mode h.ch) f.trk e ≤ n.par Pid.hopGreenbnd h.ch.val)

/-- A green firing (R236, R239, R241, R277): the entry is judged later. -/
def Node.hopFireGreen (handle : Nat) (n : Node) : Node :=
  match n.hop handle with
  | none => n
  | some h =>
    if h.expiry.any (fun e => decide (e < n.now)) || !n.greenReady h then n else
    let tc : Stamp := n.stamp.shift h.lead
    let f : FiredEntry :=
      { handle := h.handle, ch := h.ch, output := h.output, target := h.target, fired := n.stamp, crossing := tc }
    (n.modCore fun k => { k with fired := k.fired ++ [f] }).fireHop h true tc

/-- An entry's expiry passes (R281): a firing at or before it wins. -/
def Node.hopExpire (handle : Nat) (n : Node) : Node :=
  match n.hop handle with
  | none => n
  | some h => match h.expiry with
    | none => n
    | some e =>
      let fires := match h.crossed with
        | some (_, tf) => decide (tf ≤ e)
        | none => false
      if n.now < e || fires then n else n.hopEnd h 2 false none

/-! ### Rows -/

/-- HOP_ADD. -/
def execHopAdd (p : Packet) (s : State) : Host.Outcome State Fault Refusal :=
  s.upd (Node.packetRow cmdHopAdd (asRow .hopAdd p))

/-- HOP_REMOVE by handle. -/
def execHopRemoveByHandle (p : Packet) (s : State) : Host.Outcome State Fault Refusal :=
  s.upd (Node.packetRow cmdHopRemove (withBits 0 2 0 (asRow .hopRemove p)))

/-- HOP_REMOVE by channel. -/
def execHopRemoveByChannel (p : Packet) (s : State) : Host.Outcome State Fault Refusal :=
  s.upd (Node.packetRow cmdHopRemove (withBits 0 2 1 (asRow .hopRemove p)))

/-- HOP_REMOVE by output. -/
def execHopRemoveByOutput (p : Packet) (s : State) : Host.Outcome State Fault Refusal :=
  s.upd (Node.packetRow cmdHopRemove (withBits 0 2 2 (asRow .hopRemove p)))

/-- HOP_LIST. -/
def execHopList (p : Packet) (s : State) : Host.Outcome State Fault Refusal :=
  s.upd (Node.packetRow cmdHopList (asRow .hopList p))

/-- HOP_FIRE_KILNED. -/
def execHopFireKilned (handle t : Nat) (s : State) : Host.Outcome State Fault Refusal :=
  s.upd fun n => n.whenUp fun n => (n.atT t).hopFireKilned handle

/-- HOP_FIRE_GREEN. -/
def execHopFireGreen (handle t : Nat) (s : State) : Host.Outcome State Fault Refusal :=
  s.upd fun n => n.whenUp fun n => (n.atT t).hopFireGreen handle

/-- HOP_EXPIRY. -/
def execHopExpiry (handle t : Nat) (s : State) : Host.Outcome State Fault Refusal :=
  s.upd fun n => n.whenUp fun n => (n.atT t).hopExpire handle

/-- COMPARE_PULSE_END (R279). -/
def execComparePulseEnd (out : Fin 8) (t : Nat) (s : State) : Host.Outcome State Fault Refusal :=
  s.upd fun n => n.whenUp fun n =>
    let n := n.atT t
    n.modCmp out.val (CmpOut.endPulse n.now)

/-- FIRED_ENTRY_JUDGEMENT. -/
def execFiredEntryJudgement (handle t : Nat) (s : State) : Host.Outcome State Fault Refusal :=
  s.upd fun n => n.whenUp fun n => (n.atT t).judgeFired handle

end Sys2Proof.Machine
end

