-- ==== Sys2Proof/Machine/Pins.lean ====
section
/-!
DEFINITION. What the balls carry: the interlock and request pins, true for low, and the excitation, SSI clock, compare and fan
outputs, none where high impedance or released (03_steep_and_cask.md R113; 05_resolver_front_end.md R161 to R163, R183;
11_sound_heat_air.md R385; 15_faults_and_pitch_points.md R499; 18_pins_and_host_port.md R579 to R581, R600), and the boundary register
where it drives them (R602 to R604). The analogue outputs, which it does not hold, are `Node.pin`.
-/
namespace Sys2Proof.Machine

/-- A digital ball whose data cell is `data` and whose enable cell follows it (R602 to R604): EXTEST and CLAMP put the cells on the ball,
HIGHZ releases it, and under any other instruction the node drives it. Bit i of the register is the i-th cell from TDI, the balls in the
order of their table (log entry 125). -/
def Node.scanned (n : Node) (data : Nat) (own : Option Bool) : Option Bool :=
  let cell := n.power.boundary.getLsbD
  match n.power.tapIr with
  | 0 | 3 => if cell (data + 1) then some (cell data) else none
  | 2 => none
  | _ => own

/-- FAULTN is low (R499, R579, R581): a class-2 or class-3 instance is active, or the core is in reset or in Steep. In a
pair the lower member's S40 carries the higher class of both (R483). -/
def Node.faultnLow (n : Node) : Bool :=
  let low := !n.up || decide (2 ≤ if n.isLower then max n.core.faults.topClass n.lane.pkt.cls else n.core.faults.topClass)
  n.scanned 75 (some !low) == some false

/-- CASKN is low (R579, R581). -/
def Node.casknLow (n : Node) : Bool := n.scanned 77 (some !(!n.up || n.core.mode == .cask)) == some false

/-- IRQN is low (R580, R600): the core is up and a cause is set in the mask. -/
def Node.irqnLow (n : Node) : Bool :=
  n.power.vcel && n.power.cresetn && n.up && BitVec.ofNat 16 n.host.causeWord &&& n.host.mask != 0

/-- SYNCOUT is high (R143, R580). -/
def Node.syncoutHigh (n : Node) : Bool :=
  n.power.vcel && n.power.cresetn && match n.power.syncoutHighUntil with
    | some e => decide (n.power.syncoutFrom ≤ n.now) && decide (n.now < e)
    | none => false

/-- V_exc at EXCPn/EXCNn, fx of 0.1 V (R161, R162): `√2 · amplitude · sin(2π · EXC.FREQ · (t − t0))` with the ramp of R163 and, in
buffer mode, EXC.AMPL / EXC.BUFGAIN; none is a driver that is off, high impedance. -/
def Node.excPin (n : Node) (c : Ch) : Option Int :=
  let x := (n.core.fronts.get c).exc
  if !n.up || !x.on then none
  else
    let ph := excPhase x.freq n.time.k48 n.time.rate + fxRat ((x.freq * n.time.dt : Nat) : Int) 1000000000
    some (fxMul (fxMul fxSqrt2 (excAmplitude n.now x)) (fxSin ph))

/-- The level of SCLKn (R113, R183, R579): high when idle, and in a read low for the first half of each clock period from the read's
P0; none where the ball is no output. -/
def Node.sclkPin (n : Node) (c : Ch) : Option Bool :=
  n.scanned (3 * c.val + 1) <|
  if !n.up || n.mode c ≠ .ssi then none
  else match (n.core.fronts.get c).ssi.reading with
    | none => some true
    | some st =>
      let period := 1000000000 / max 1 (n.parN Pid.inSsiclk c.val)
      let t := n.now - st.e
      some (decide ((n.parN Pid.inSsibits c.val + 1) * period ≤ t) || decide (period ≤ 2 * (t % max 1 period)))

/-- The level at a CMP ball (R113, R279): none is high impedance. -/
def Node.cmpPin (n : Node) (i : Nat) : Option Bool :=
  n.scanned (56 + 2 * i) <| if !n.up then none else some (((n.core.cmps[i]?).getD {}).active == (n.parN Pid.hopCmppol 0).testBit i)

/-- The duty at a FAN ball, the fraction of each PWM period during which it is released, in its steps of 0.1 % (R113, R385): 0 sinks
throughout, 1,000 is released throughout, and none is released throughout, while the core is in reset or in Steep. -/
def Node.fanPin (n : Node) (b : Bool) : Option Nat :=
  if [0, 2, 3].contains n.power.tapIr then
    if n.scanned (if b then 82 else 80) none == some false then some 0 else none
  else if !n.up then none else some (clampI 0 1000 (roundDiv (n.fan b).duty fxOne)).toNat

/-- The levels at the balls ENAn, ENBn and ENZn (R284, R603): those of `Node.emuPins`, or of the boundary register. -/
def Node.enPins (n : Node) (c : Ch) : Option Bool × Option Bool × Option Bool :=
  let own := n.emuPins c
  (n.scanned (32 + 2 * c.val) (own.map (·.1)), n.scanned (40 + 2 * c.val) (own.map (·.2.1)), n.scanned (48 + 2 * c.val) (own.map (·.2.2)))

end Sys2Proof.Machine
end

