-- ==== Sys2Proof/Machine/HostRows.lean ====
section
/-!
DEFINITION. The host-port transactions, each judged whole at its CSN rise (18_pins_and_host_port.md R587 to R600).
-/
namespace Sys2Proof.Machine

/-! ### Packets of context L -/

/-- A packet of context L has arrived (R58, R588): it commits at the first tick from now. -/
def Node.hostArrive (bs : List Byte) (n : Node) : Node :=
  match packetOfBytes .host bs with
  | none => n
  | some (p, ok) => (n.arrive p ok (wrapK (n.time.k48 + 1))).2

/-- Takes packets out of the receive buffer while the reply buffer has room (R589). -/
def Node.takeRx : Nat → Node → Node
  | 0, n => n
  | f + 1, n =>
    if !n.host.overflow.isEmpty then n else
    match n.host.rx with
    | [] => n
    | b :: bs => takeRx f ((n.modHost fun h => { h with rx := bs }).hostArrive b)

/-- Moves waiting replies into the reply buffer, and then takes packets from the receive buffer (R589). -/
def Node.hostFlow (n : Node) : Node :=
  let n := n.modHost fun h => refillReplies h.overflow.length h
  n.takeRx n.host.rx.length

/-- A write transaction as the node judges it (R587): discarded and counted where its length is wrong, where CSN rose within
a byte, or where it does not suit the node's role. -/
def Node.hostWrite (w : HostWrite) (t : Nat) (suits : Node → Bool) (f : Node → Node) (n : Node) : Node :=
  n.whenCellar fun n =>
    let n := n.atT t
    if w.cutInByte || w.bytes.length != w.len.toNat || !suits n then n.hostErrors 1 else f n

/-- PACKET_WRITE (R588): a packet that does not fit, or that fails its packet check, is discarded and counted. -/
def execPacketWrite (w : HostWrite) (t : Nat) (s : State) : Host.Outcome State Fault Refusal :=
  s.upd (Node.hostWrite w t (fun _ => true) fun n =>
    if n.host.rxFree < w.bytes.length ∨ packetOfBytes .host w.bytes = none then n.hostErrors 1
    else (n.modHost fun h => { h with rx := h.rx ++ [w.bytes] }).hostFlow)

/-! ### Line traffic of a heading node -/

/-- Marks the line queue as above half (R599). -/
def HostPort.markHigh (h : HostPort) : HostPort := { h with lineqHigh := h.lineqHigh || decide (8192 < h.lineUsed) }

/-- LINE_WRITE (R591). -/
def execLineWrite (w : HostWrite) (t : Nat) (s : State) : Host.Outcome State Fault Refusal :=
  s.upd (Node.hostWrite w t Node.heading fun n =>
    if w.bytes.length < 2 ∨ 16384 < n.host.lineUsed + w.bytes.length then n.hostErrors 1
    else n.modHost fun h =>
      HostPort.markHigh { h with lineQueue := h.lineQueue ++ [(BitVec.ofNat 16 (natBE (w.bytes.take 2)), w.bytes.drop 2)] })

/-- MNT_WRITE (R592): only an image block of at most LINE.CMDBYTES bytes, and at most four wait. -/
def execMntWrite (w : HostWrite) (t : Nat) (s : State) : Host.Outcome State Fault Refusal :=
  s.upd (Node.hostWrite w t Node.heading fun n =>
    if w.bytes.headD 0 ≠ 0x20 ∨ n.parN Pid.lineCmdbytes 0 < w.bytes.length ∨ 4 ≤ n.host.mntQueue.length then n.hostErrors 1
    else n.modHost fun h => { h with mntQueue := h.mntQueue ++ [w.bytes] })

/-- SLOTS_WRITE (R593): the payload of the cycles that start at least 10 µs from now; those before carry the earlier one. -/
def execSlotsWrite (w : HostWrite) (t : Nat) (s : State) : Host.Outcome State Fault Refusal :=
  s.upd (Node.hostWrite w t (fun n => n.heading && w.bytes.length == (n.line.count - 1) * n.parN Pid.lineOutlen 0) fun n =>
    n.modHost fun h =>
      let old := match h.slots with
        | some (e, bs) => if e + 10000 ≤ n.now then bs else h.slotsOld
        | none => h.slotsOld
      { h with slots := some (n.now, w.bytes), slotsOld := old })

/-! ### Reads -/

/-- The bytes a read transaction drives (R586): the data, then 0x00 for what the host clocks beyond its end. -/
def drivenBytes (clocked : Nat) (data : List Byte) : List Byte := padTo clocked data

/-- REPLY_READ (R590): `clocked` counts the data bytes that the host clocked, the two length bytes among them. -/
def execReplyRead (clocked t : Nat) (s : State) : Host.Outcome State Fault Refusal :=
  s.upd fun n => n.whenCellar fun n =>
    let n := n.atT t
    match n.host.replies with
    | [] => n.modHost fun h => { h with driven := drivenBytes clocked [] }
    | p :: ps =>
      let data := bytesBE 2 p.size ++ p.bytes
      let n := n.modHost fun h => { h with driven := drivenBytes clocked data }
      if clocked < data.length then n else (n.modHost fun h => { h with replies := ps }).hostFlow

/-- CYCLIC_READ (R594 to R596): the oldest cycle block, or the latest outbound slot with its cycle number. -/
def execCyclicRead (clocked t : Nat) (s : State) : Host.Outcome State Fault Refusal :=
  s.upd fun n => n.whenCellar fun n =>
    let n := n.atT t
    match n.host.blocks with
    | [] => n.modHost fun h => { h with driven := drivenBytes clocked [] }
    | b :: bs =>
      let data := bytesBE 4 b.length ++ b
      n.modHost fun h => { h with driven := drivenBytes clocked data, blocks := if clocked < data.length then b :: bs else bs }

/-- The sixteen bytes of STATUS_READ (R597). -/
def Node.statusBytes (n : Node) : List Byte :=
  let h := n.host
  bytesBE 2 h.causeWord ++ bytesBE 2 h.mask.toNat ++ bytesBE 2 (h.replies.head?.elim 0 ReplyPkt.size) ++ bytesBE 2 h.rxFree ++
  bytesBE 2 (if n.heading then 16384 - h.lineUsed else 0) ++
  bytesBE 1 (flag n.up 0 + flag n.heading 1 + flag h.overrun 2 + flag (decide (4 ≤ h.mntQueue.length)) 3) ++
  bytesBE 1 n.line.role.code ++ bytesBE 4 h.errors.toNat

/-- STATUS_READ (R597). -/
def execStatusRead (clocked t : Nat) (s : State) : Host.Outcome State Fault Refusal :=
  s.upd fun n => n.whenCellar fun n =>
    let n := n.atT t
    n.modHost fun h => { h with driven := drivenBytes clocked n.statusBytes, overrun := false }

/-- CONTROL_WRITE (R599): clears the causes of the clear-on-write kind and sets the mask. -/
def execControlWrite (w : HostWrite) (t : Nat) (s : State) : Host.Outcome State Fault Refusal :=
  s.upd (Node.hostWrite w t (fun _ => w.bytes.length == 4) fun n =>
    n.modHost fun h =>
      { h with
        causes := h.causes &&& ~~~(BitVec.ofNat 16 (natBE (w.bytes.take 2)) &&& 0x7C)
        mask := BitVec.ofNat 16 (natBE (w.bytes.drop 2)) })

end Sys2Proof.Machine
end

