-- ==== Sys2Proof/Machine/LatchRows.lean ====
section
/-!
DEFINITION. Latches: LATCH_ARM, LATCH_READ, accepted edges, index edges, entries that become readable, and the ends of
the 10 ms windows (06_tracking_converter.md R223; 07_green_and_kilned.md R244, R245; 08_latch_hop_emulation.md R253 to
R263).
-/
namespace Sys2Proof.Machine

/-- Whether an input accepts a level that held for `held` ns: the filter in µs, or 20 ns with the filter off (R253). -/
def heldLong (filter held : Nat) : Bool := if filter = 0 then decide (20 ≤ held) else decide (filter * 1000 ≤ held)

/-- Whether an arming captures an edge (R255). -/
def ArmEdge.takes (e : ArmEdge) (falling : Bool) : Bool :=
  match e with
  | .rising => !falling
  | .falling => falling
  | .both => true

/-- The modes of R255 with count `n`: none for OFF. -/
def armModeOf : Nat → Option ArmMode
  | 1 => some .once
  | 2 => some .count
  | 3 => some .continuous
  | _ => none

/-- The edges of R255. -/
def armEdgeOf : Nat → ArmEdge
  | 0 => .rising
  | 1 => .falling
  | _ => .both

/-- An arming takes an accepted edge at or after its P0 (R256): ONCE and COUNT end at their last capture. -/
def Node.armTakes (c : Ch) (b falling : Bool) (st : Stamp) (n : Node) : Node :=
  match (n.core.pos.get c).latch.arm b with
  | none => n
  | some a =>
    if !a.edge.takes falling || decide (st.e < a.since) then n else
    let src : LatchSource := if b then .latB else .latA
    let a' : Arming := { a with captures := a.captures + 1, lastSeq := (n.core.pos.get c).latch.seqFor src st }
    let n := (n.capture c src falling st).modPos c fun p => { p with latch := p.latch.setArm b (some a') }
    let ended := match a.mode with
      | .once => true
      | .count => decide (a.n ≤ a'.captures)
      | .continuous => false
    if ended then (n.modPos c fun p => { p with latch := p.latch.setArm b none }).endOrder a.op .done a'.words else n

/-- Whether the arming of an input takes an edge (R255, R256). -/
def Latch.wants (l : Latch) (b falling : Bool) (st : Stamp) : Bool :=
  match l.arm b with
  | none => false
  | some a => a.edge.takes falling && decide (a.since ≤ st.e)

/-- An accepted edge is captured by the arming of its input, or kept until the next P0 for one that commits at the P0 before it. An
edge is captured once (log entry 93). -/
def Node.offerEdge (c : Ch) (b falling : Bool) (st : Stamp) (n : Node) : Node :=
  if (n.core.pos.get c).latch.wants b falling st then n.armTakes c b falling st
  else n.modPos c fun p => { p with latch := { p.latch with edges := p.latch.edges ++ [(b, falling, st)] } }

/-- LATCH_ARM (R255 to R257): the earlier arming ends; accepted edges of the tick in progress that no arming has captured count. -/
def cmdLatchArm (op : PoolOp) (n : Node) : Ans × Node :=
  let w := pw op.packet 0
  let c := n.chan op.packet
  let b := bitOf w 0
  let n := n.endArm c b
  match armModeOf (fld w 4 3) with
  | none => (.ok [0], n)
  | some m =>
    let a : Arming := { op := op.order, mode := m, edge := armEdgeOf (fld w 2 1), n := fld w 20 5, since := n.time.p0e }
    let past := fun (e : Bool × Bool × Stamp) => e.1 == b && decide (n.time.p0e ≤ e.2.2.e)
    let es := (n.core.pos.get c).latch.edges.filter past
    let n := n.modPos c fun p => { p with latch := { p.latch.setArm b (some a) with edges := p.latch.edges.filter fun e => !past e } }
    (.wait, eachOf es (fun e m => m.offerEdge c b e.2.1 e.2.2) n)

/-- The readable entries at the head of the FIFO, at most `k`. -/
def readableTake (k : Nat) (es : List LatchEntry) : List LatchEntry := (es.filter LatchEntry.readable).take k

/-- LATCH_READ (R262): the entries, with GREEN_OK the green group after the last one. -/
def cmdLatchRead (op : PoolOp) (n : Node) : Ans × Node :=
  let p := op.packet
  let c := n.chan p
  let w := pw p 0
  let es := readableTake (fld w 6 0) (n.core.pos.get c).latch.fifo
  let chunks := (chunksOf 41 es.length es).map fun xs => xs.flatMap (n.latchWords c false)
  let chunks := if p.greenOk then chunks.dropLast ++ [chunks.getLast?.getD [] ++ n.greenGroup c] else chunks
  let taken := es.map fun e => e.seq
  let n := if bitOf w 7 then n else
    n.modPos c fun q => { q with latch := { q.latch with fifo := q.latch.fifo.filter fun e => !(e.readable && taken.contains e.seq) } }
  (.final .done chunks p.greenOk, n)

/-- A level shorter than a filter is rejected and counted (R253). -/
def Node.latchReject (c : Ch) (filter : Nat) (n : Node) : Node :=
  if filter = 0 then n else n.modPos c fun p => { p with latch := { p.latch with reject := p.latch.reject + 1 } }

/-- An edge of LATA or LATB (R253 to R256, R259): latches run while the channel tracks (R21); a playback that waits for the
edge starts (R350). -/
def Node.latchEdge (c : Ch) (b falling : Bool) (held : Nat) (n : Node) : Node :=
  if !(n.core.fronts.get c).trk.running then n else
  let filter := n.parN (if b then Pid.latFiltb else Pid.latFilta) c.val
  if !heldLong filter held then n.latchReject c filter else
  let st := n.stamp
  let n := n.modPos c fun p =>
    { p with latch := { p.latch with edges := p.latch.edges.filter fun e => decide (n.time.p0e ≤ e.2.2.e) } }
  (n.offerEdge c b falling st).waveTrigger fun p => p.trigger == .latch c b falling

/-- An index edge on a SINCOS or HALL channel (R223, R258): it counts on the rising edge while D is forward and on the
falling edge while D is reverse, with IN.IDXGATE only while both tracks are positive; the first sample after it latches. -/
def Node.indexEdge (c : Ch) (falling bothPos : Bool) (held : Nat) (n : Node) : Node :=
  let t := (n.core.fronts.get c).trk
  let mode := n.mode c
  if !t.running || !(decide (mode = .sincos) || decide (mode = .hall)) then n else
  let filter := n.parN Pid.latFilti c.val
  let gated := decide (mode = .sincos) && n.parN Pid.inIdxgate c.val == 1 && !bothPos
  if !heldLong filter held then n.latchReject c filter
  else if gated || (falling == t.dir) then n
  else
    let st := n.stamp
    (n.modFront c fun f => { f with trk := { f.trk with idxDue := f.trk.idxDue ++ [st] } }).indexFifo c falling st

/-- The end of a channel's refutation window (R244). -/
def Node.refutedWindowEnd (c : Ch) (n : Node) : Node :=
  match (n.core.pos.get c).refuted with
  | none => n
  | some w =>
    if n.now < w.ends then n
    else if w.count = 0 then n.modPos c fun p => { p with refuted := none }
    else
      let w' : EvWindow := { w with ends := n.now + 10000000, count := 0, r := 0, catchUp := 0 }
      (n.refutedEvent c w w.count).modPos c fun p => { p with refuted := some w' }

/-- The end of a channel's latch-loss window (R244, R260). -/
def Node.lostWindowEnd (c : Ch) (n : Node) : Node :=
  match (n.core.pos.get c).latchLost with
  | none => n
  | some w =>
    if n.now < w.ends then n
    else if w.count = 0 then n.modPos c fun p => { p with latchLost := none }
    else
      let w' : EvWindow := { w with ends := n.now + 10000000, count := 0 }
      (n.event .latchLost c.val w.first [wN w.count]).modPos c fun p => { p with latchLost := some w' }

/-- The end of the hop-mismatch window (R244, R436). -/
def Node.mismatchWindowEnd (n : Node) : Node :=
  match n.line.mismatchWindow with
  | none => n
  | some (e, k, lt, m) =>
    if n.now < e then n
    else if k = 0 then n.modLine fun l => { l with mismatchWindow := none }
    else (n.mismatchEvent lt m).modLine fun l => { l with mismatchWindow := some (n.now + 10000000, 0, lt, m) }

/-! ### Rows -/

/-- LATCH_ARM. -/
def execLatchArm (p : Packet) (s : State) : Host.Outcome State Fault Refusal :=
  s.upd (Node.packetRow cmdLatchArm (asRow .latchArm p))

/-- LATCH_ARM, mode OFF. -/
def execLatchArmOff (p : Packet) (s : State) : Host.Outcome State Fault Refusal :=
  s.upd (Node.packetRow cmdLatchArm (withBits 3 2 0 (asRow .latchArm p)))

/-- LATCH_READ. -/
def execLatchRead (p : Packet) (s : State) : Host.Outcome State Fault Refusal :=
  s.upd (Node.packetRow cmdLatchRead (asRow .latchRead p))

/-- LATCH_EDGE. -/
def execLatchEdge (ch : Ch) (b falling : Bool) (held t : Nat) (s : State) : Host.Outcome State Fault Refusal :=
  s.upd fun n => n.whenUp fun n => (n.atT t).latchEdge ch b falling held

/-- INDEX_EDGE. -/
def execIndexEdge (ch : Ch) (falling bothPos : Bool) (held t : Nat) (s : State) : Host.Outcome State Fault Refusal :=
  s.upd fun n => n.whenUp fun n => (n.atT t).indexEdge ch falling bothPos held

/-- LATCH_ENTRY_READY (R245, R263). -/
def execLatchEntryReady (ch : Ch) (t : Nat) (s : State) : Host.Outcome State Fault Refusal :=
  s.upd fun n => n.whenUp fun n => (n.atT t).readyLatches ch

/-- EVENT_WINDOW_END (R244). -/
def execEventWindowEnd (k : WindowKind) (ch : Ch) (t : Nat) (s : State) : Host.Outcome State Fault Refusal :=
  s.upd fun n => n.whenCellar fun n =>
    let n := n.atT t
    match k with
    | .refuted => if n.up then n.refutedWindowEnd ch else n
    | .latchLost => if n.up then n.lostWindowEnd ch else n
    | .hopMismatch => n.mismatchWindowEnd

end Sys2Proof.Machine
end

