-- ==== Sys2Proof/Machine/ModeRows.lean ====
section
/-!
DEFINITION. Mode changes, STEEP_RUN and STATUS, the automatic transition, and the limit of a CASK-to-TRACK change
(01_node_and_modes.md R32 to R45; 03_steep_and_cask.md R114 to R120; 17_opcode_reference.md R568, R569).
-/
namespace Sys2Proof.Machine

/-! ### SET_MODE -/

/-- The automatic transition's wait ends when a SET_MODE commits (R118). -/
def Node.endAuto (n : Node) : Node := n.modCore fun k => { k with auto := .none }

/-- The channels whose loop is enabled. -/
def Node.enabledChs (n : Node) : List Ch := ([0, 1, 2, 3] : List Ch).filter fun c => (n.core.slots.get c).enabled

/-- Whether a client owns every loop-enabled channel (R32, R70). -/
def Node.ownsAll (n : Node) (cl : Client) : Bool :=
  n.enabledChs.all fun c => match cl with
    | .ctxL => true
    | .line i => (n.core.slots.get c).owner == some i

/-- SET_MODE to CASK (R32, R34, R40). -/
def cmdToCask (_ : PoolOp) (n : Node) : Ans × Node := (.ok [], n.endAuto.caskEntry)

/-- CASK to TRACK (R32, R36): DONE at once where no channel's first kilned sample is awaited. -/
def caskToTrack (op : PoolOp) (n : Node) : Ans × Node :=
  if n.lockState = 2 ∨ n.core.faults.topClass = 3 then (.fail .refusedUnsafe, n) else
  let n := n.enterTrack (some op.order)
  match n.core.trackEntry with
  | some t => if t.waiting.isEmpty then (.ok [], n.modCore fun k => { k with trackEntry := none }) else (.wait, n)
  | none => (.ok [], n)

/-- DRIVE to TRACK (R32, R39): every running slot that moves stops under control; the mode changes when all are at rest. -/
def driveToTrack (op : PoolOp) (n : Node) : Ans × Node :=
  if !n.ownsAll op.client then (.fail .notOwner, n) else
  let n := eachCh (fun c m => if m.slotRunning c then m.stopBy c else m) n
  let w : RestWait := { op := some op.order, kind := .toTrack, chs := n.enabledChs }
  (.wait, (n.modCore fun k => { k with rests := k.rests ++ [w] }).settleRests)

/-- SET_MODE to TRACK (R32, R34 to R36, R39). -/
def cmdToTrack (op : PoolOp) (n : Node) : Ans × Node :=
  let n := n.endAuto
  match n.core.mode with
  | .track => (.ok [], n)
  | .cask => caskToTrack op n
  | .drive => driveToTrack op n
  | .tandem => (.fail .wrongMode, n)

/-- Pitch points are disarmed at an entry into DRIVE or TANDEM while NODE.PITCHDRIVE is 0 (R533). -/
def Node.disarmAtDrive (n : Node) : Node :=
  if n.parN Pid.nodePitchdrive 0 = 0 then n.modFaults fun f => { f with points := [] } else n

/-- TRACK to DRIVE (R32, R38). -/
def trackToDrive (op : PoolOp) (n : Node) : Ans × Node :=
  if !n.ownsAll op.client then (.fail .notOwner, n)
  else if n.enabledChs.any n.hasClass2 then (.fail .refusedUnsafe, n)
  else match n.admissionNow with
    | some ws => (.final .overBudget [ws] false, n)
    | none =>
      let n := eachOf n.enabledChs Node.startSlot n
      (.ok [], (n.modCore fun k => { k with mode := .drive }).disarmAtDrive)

/-- SET_MODE to DRIVE (R32, R34, R35, R38). -/
def cmdToDrive (op : PoolOp) (n : Node) : Ans × Node :=
  let n := n.endAuto
  match n.core.mode with
  | .drive => (.ok [], n)
  | .track => trackToDrive op n
  | _ => (.fail .wrongMode, n)

/-- SET_MODE (R568): code 3 asks for a change that R32 does not list. -/
def cmdSetMode (op : PoolOp) (n : Node) : Ans × Node :=
  match fld (pw op.packet 0) 1 0 with
  | 0 => cmdToCask op n
  | 1 => cmdToTrack op n
  | 2 => cmdToDrive op n
  | _ => (.fail .wrongMode, n.endAuto)

/-- SET_MODE to CASK. -/
def execSetModeCask (p : Packet) (s : State) : Host.Outcome State Fault Refusal :=
  s.upd (Node.packetRow cmdSetMode (withBits 0 2 0 (asRow .setMode p)))

/-- SET_MODE to TRACK. -/
def execSetModeTrack (p : Packet) (s : State) : Host.Outcome State Fault Refusal :=
  s.upd (Node.packetRow cmdSetMode (withBits 0 2 1 (asRow .setMode p)))

/-- SET_MODE to DRIVE. -/
def execSetModeDrive (p : Packet) (s : State) : Host.Outcome State Fault Refusal :=
  s.upd (Node.packetRow cmdSetMode (withBits 0 2 2 (asRow .setMode p)))

/-! ### STEEP_RUN and STATUS -/

/-- STEEP_RUN (R114 to R116): the cellar holds its tag, every other operation ends as by a core reset, and Steep starts. -/
def cmdSteepRun (op : PoolOp) (n : Node) : Ans × Node :=
  let h : HeldTag := { client := op.client, packet := op.packet, order := op.order }
  let n := { n with held := some h }
  (.gone, (n.coreReset .steepRun .steepRun none).beginSteep)

/-- STEEP_RUN. -/
def execSteepRun (p : Packet) (s : State) : Host.Outcome State Fault Refusal :=
  s.upd (Node.packetRow cmdSteepRun (asRow .steepRun p))

/-- STATUS (R45, R569): reading clears the client's refutation bit. -/
def cmdStatus (op : PoolOp) (n : Node) : Ans × Node :=
  let r := n.clientRec op.client
  let ws := [n.s40 r.refuted (decide (0 < n.eventsPending op.client)), n.steepWord]
  (.ok ws, n.setClient { r with refuted := false })

/-- STATUS. -/
def execStatus (p : Packet) (s : State) : Host.Outcome State Fault Refusal :=
  s.upd (Node.packetRow cmdStatus (asRow .status p))

/-! ### Transitions without a command -/

/-- AUTOTRACK (R118, R120): the automatic CASK-to-TRACK transition commits at P0, unless a class-3 fault is active. -/
def execAutotrack (s : State) : Host.Outcome State Fault Refusal :=
  s.upd fun n => n.whenUp fun n =>
    if n.core.auto = .due ∧ n.core.mode = .cask then
      if n.core.faults.topClass = 3 then n.endAuto
      else (n.enterTrack none).event .autotrack 0xFF n.p0Stamp []
    else n

/-- The detector fault of a channel without a kilned sample 50 ms after the commit (R37, R175, R218). -/
def Node.entryFault (n : Node) (c : Ch) : FaultCode :=
  let f := n.core.fronts.get c
  let meas := if n.mode c = .resolver then f.exc.meas else none
  match meas with
  | some m => if m.judged = 0 ∨ m.judged = m.low then .los else .carrierPhase
  | none => if f.trk.losLow then .los else if f.trk.dosLow then .dos else .lot

/-- TRACK_ENTRY_TIMEOUT (R37): the channels still without a kilned sample raise their fault; SET_MODE ends DONE. -/
def execTrackEntryTimeout (t : Nat) (s : State) : Host.Outcome State Fault Refusal :=
  s.upd fun n => n.whenUp fun n =>
    let n := n.atT t
    match n.core.trackEntry with
    | none => n
    | some e =>
      if n.now < e.ends then n else
      let n := eachOf e.waiting (fun c m => m.trip (m.entryFault c) (m.entryFault c).dfltClass c.val 0 false) n
      (n.endOpt e.op .done []).modCore fun k => { k with trackEntry := none }

end Sys2Proof.Machine
end

