-- ==== Sys2Proof/Machine/OutputRows.lean ====
section
/-!
DEFINITION. The analogue outputs' commands and events: DAC_WRITE, DAC_STROBE, LDAC edges, current limit, compliance and
rails (10_analog_outputs.md R336, R341 to R344, R364).
-/
namespace Sys2Proof.Machine

/-- DAC_WRITE (R341): every named output's source is DIRECT, or nothing is written. -/
def cmdDacWrite (op : PoolOp) (n : Node) : Ans × Node :=
  let cs := n.chans op.packet
  if cs.any fun c => decide (n.src c ≠ 2) then (.fail .refusedUnsafe, n)
  else (.ok [], eachOf (cs.zip op.packet.words) (fun e m => m.modOut e.1 (writeInput (BitVec.ofNat 18 (fld e.2 17 0)))) n)

/-- DAC_STROBE (R343): the named groups are strobed at P3 of the commit tick. -/
def cmdDacStrobe (op : PoolOp) (n : Node) : Ans × Node :=
  let m := fld (pw op.packet 0) 1 0
  let bad := fun (b : Bool) => m.testBit (if b then 1 else 0) && n.strobeSource b != 2
  if bad false || bad true then (.fail .refusedUnsafe, n)
  else
    let n := n.modCore fun k => { k with strobes := k.strobes ||| m }
    if !n.time.outDone then (.ok [], n) else
    let n := if m.testBit 0 then n.strobeGroup false else n
    let n := if m.testBit 1 then n.strobeGroup true else n
    (.ok [], n.modCore fun k => { k with strobes := 0 })

/-- A falling edge of LDACA or LDACB that stays low for `low` ns (R342): the strobe comes 50 ns after it. -/
def Node.ldacEdge (b : Bool) (low : Nat) (n : Node) : Node :=
  if n.strobeSource b ≠ 1 ∨ low < 50 then n
  else if (n.core.ldacLast.get b).any fun e => decide (n.now < e + 2000) then
    n.modCore fun k => { k with ldacIgn := k.ldacIgn.set b (k.ldacIgn.get b + 1) }
  else
    let n := n.modCore fun k => { k with ldacLast := k.ldacLast.set b (some n.now) }
    (n.atT (n.time.dt + 50)).strobeGroup b

/-- A voltage output's driver enters or leaves its current limit (R364). -/
def Node.currentLimit (c : Ch) (on : Bool) (n : Node) : Node :=
  if rangeCurrent (n.parN Pid.dacRange c.val) then n
  else if on then
    n.modOut c fun o => { o with currentLimit := true, shortAt := o.shortAt.or (some (n.now + n.parN Pid.dacShorttime c.val * 1000)) }
  else (n.modOut c fun o => { o with currentLimit := false, shortAt := none }).cease .dacShort c.val

/-- A current output loses or regains compliance (R364). -/
def Node.compliance (c : Ch) (lost : Bool) (n : Node) : Node :=
  if !rangeCurrent (n.parN Pid.dacRange c.val) then n
  else if lost then
    n.modOut c fun o => { o with complianceLost := true, openAt := o.openAt.or (some (n.now + n.parN Pid.dacOpentime c.val * 1000000)) }
  else (n.modOut c fun o => { o with complianceLost := false, openAt := none }).cease .dacOpen c.val

/-- Whether a deadline has come. -/
def Node.due (n : Node) (d : Option Nat) : Bool := d.any fun e => decide (e ≤ n.now)

/-- The current limit has lasted for DAC.SHORTTIME (R364). -/
def Node.shortTimeout (c : Ch) (n : Node) : Node :=
  if n.due (n.core.outs.get c).shortAt then
    ((n.modOut c fun o => { o with shortAt := none }).shortOff c).trip .dacShort FaultCode.dacShort.dfltClass c.val 0 false
  else n

/-- The loss of compliance has lasted for DAC.OPENTIME (R364). -/
def Node.openTimeout (c : Ch) (n : Node) : Node :=
  if n.due (n.core.outs.get c).openAt then
    (n.modOut c fun o => { o with openAt := none }).trip .dacOpen FaultCode.dacOpen.dfltClass c.val 0 false
  else n

/-- A rail has stayed outside the output's limit for 1 ms (R336). -/
def Node.supplyTimeout (c : Ch) (n : Node) : Node :=
  if n.due (n.core.outs.get c).railAt then
    (n.modOut c fun o => { o with railShort := true }).trip .supply FaultCode.supply.dfltClass c.val 0 false
  else n

/-! ### Rows -/

/-- DAC_WRITE. -/
def execDacWrite (p : Packet) (s : State) : Host.Outcome State Fault Refusal :=
  s.upd (Node.packetRow cmdDacWrite (asRow .dacWrite p))

/-- DAC_STROBE. -/
def execDacStrobe (p : Packet) (s : State) : Host.Outcome State Fault Refusal :=
  s.upd (Node.packetRow cmdDacStrobe (asRow .dacStrobe p))

/-- LDAC_EDGE: `t` is the instant of the edge. -/
def execLdacEdge (b : Bool) (low t : Nat) (s : State) : Host.Outcome State Fault Refusal :=
  s.upd fun n => n.whenUp fun n => (n.atT t).ldacEdge b low

/-- CURRENT_LIMIT_CHANGE. -/
def execCurrentLimitChange (ch : Ch) (on : Bool) (t : Nat) (s : State) : Host.Outcome State Fault Refusal :=
  s.upd fun n => n.whenUp fun n => (n.atT t).currentLimit ch on

/-- COMPLIANCE_CHANGE. -/
def execComplianceChange (ch : Ch) (lost : Bool) (t : Nat) (s : State) : Host.Outcome State Fault Refusal :=
  s.upd fun n => n.whenUp fun n => (n.atT t).compliance ch lost

/-- DAC_SHORT_TIMEOUT. -/
def execDacShortTimeout (ch : Ch) (t : Nat) (s : State) : Host.Outcome State Fault Refusal :=
  s.upd fun n => n.whenUp fun n => (n.atT t).shortTimeout ch

/-- DAC_OPEN_TIMEOUT. -/
def execDacOpenTimeout (ch : Ch) (t : Nat) (s : State) : Host.Outcome State Fault Refusal :=
  s.upd fun n => n.whenUp fun n => (n.atT t).openTimeout ch

/-- SUPPLY_TIMEOUT. -/
def execSupplyTimeout (ch : Ch) (t : Nat) (s : State) : Host.Outcome State Fault Refusal :=
  s.upd fun n => n.whenUp fun n => (n.atT t).supplyTimeout ch

/-- RAIL_LIMIT_CROSSING (R336): AVDDH and AVSS in mV. -/
def execRailLimitCrossing (avddh avss : Int) (t : Nat) (s : State) : Host.Outcome State Fault Refusal :=
  s.upd fun n => n.whenCellar fun n =>
    let n : Node := { n with power := { n.power with avddh := avddh, avss := avss } }
    let n := n.atT t
    if n.up then eachCh Node.judgeRail n else n

end Sys2Proof.Machine
end

