-- ==== Sys2Proof/Machine/ParamRows.lean ====
section
/-!
DEFINITION. The parameter commands: PARAM_READ, PARAM_WRITE with the rows of single items, SOUND_CONFIG, SET_LIMITS,
GAIN_SET, EMU_SET, DAC_CONFIG, PARAM_SAVE, PARAM_RESTORE, PARAM_DEFAULTS, and a waiting rate change
(04_frame_tick_and_time.md R127, R128; 16_firmware_and_store.md R538 to R543; 17_opcode_reference.md R570 to R578).
-/
namespace Sys2Proof.Machine

/-- PARAM_READ (R570). -/
def cmdParamRead (op : PoolOp) (n : Node) : Ans × Node :=
  (.ok (op.packet.words.map fun w => n.paramValue (n.localId (fld w 15 0))), n)

/-- A list of items is judged and written (R571); a rate change that waits sends its final reply later (R128). -/
def Node.writeJudged (items : List (Nat × Word)) (op : PoolOp) (n : Node) : Ans × Node :=
  match n.judgeItems op.client items with
  | some (s, ws) => (.final s [ws] false, n)
  | none =>
    let r := n.commitItems op.order items
    if r.1 then (.ok [], r.2) else (.wait, r.2)

/-- PARAM_WRITE (R571). -/
def cmdParamWrite (op : PoolOp) (n : Node) : Ans × Node := n.writeJudged (n.localItems op.packet) op

/-- SOUND_CONFIG (R578). -/
def cmdSoundConfig (op : PoolOp) (n : Node) : Ans × Node := n.writeJudged (n.localItems op.packet) op

/-- The items that a command with a fixed layout writes on every channel it names, each once. -/
def Node.opItemsAll (n : Node) (oc : Opcode) (p : Packet) : List (Nat × Word) :=
  ((n.chans p).flatMap fun c => (opItems oc p c.val).map n.localItem).eraseDups

/-- A command that writes items: its refusals carry no word except those of the cycle budget (R303, R308, R366, R576). -/
def Node.writeOp (oc : Opcode) (op : PoolOp) (n : Node) : Ans × Node :=
  let items := n.opItemsAll oc op.packet
  match n.judgeItems op.client items with
  | some (.overBudget, ws) => (.final .overBudget [ws.drop 1] false, n)
  | some (s, _) => (.fail s, n)
  | none => (.ok [], n.writeItems items)

/-- PARAM_SAVE (R541). -/
def cmdParamSave (op : PoolOp) (n : Node) : Ans × Node :=
  if n.store.configBusy then (.fail .busy, n) else (.wait, n.saveConfig n.workingConfig (some op.order))

/-- The items that change when a loaded set replaces the working set; LINE.HEADEN only for context L (R404, R543). -/
def Node.changedItems (n : Node) (headen : Bool) (ps : ParamMem) : List (Nat × Word) :=
  (writableIds.filter fun id =>
    (headen || id != Pid.lineHeaden) && id != Pid.tickRate && id != Pid.tickOutat && n.core.params.get id != ps.get id).map
    fun id => (id, ps.get id)

/-- A loaded tick rate and output instant come into force (R128, R540): the rate at the next boundary of both rates, for no command. -/
def Node.putRate (r : TickRate) (o : Nat) (n : Node) : Node :=
  if r = n.time.rate then (n.setPar Pid.tickOutat 0 (wN o)).modTime fun t => { t with outat := o }
  else ((n.acceptRate r (some o) n.core.nextOrder false).2).modCore fun k => { k with nextOrder := k.nextOrder + 1 }

/-- Takes the tick rate and output instant of a restored configuration (R128, R542): behind a change that is pending already, whose
command still completes. -/
def Node.takeRate (ps : ParamMem) (n : Node) : Node :=
  let r := TickRate.ofKhz (ps.nat Pid.tickRate 0)
  let o := ps.nat Pid.tickOutat 0
  if n.time.pendingRate.isSome then n.modTime fun t => { t with nextRate := some (r, o) }
  else n.putRate r o

/-- PARAM_RESTORE (R542): the previous configuration becomes the working set and the current configuration. -/
def cmdParamRestore (op : PoolOp) (n : Node) : Ans × Node :=
  let prev := n.store.previous
  if n.store.configBusy then (.fail .busy, n)
  else if prev.generation = 0 ∨ n.store.cfgBad.get n.store.otherSlot then (.fail .refusedUnsafe, n)
  else
    let l := loadRecords prev.records
    let n := n.writeItems (n.changedItems op.client.isL l.1)
    let n := (n.takeRate l.1).modCore fun k => { k with cfgFix := l.2 }
    let n := eachCh (fun c m => m.modFront c fun f => { f with trk := { f.trk with map := prev.maps.get c, mapNext := none } }) n
    (.wait, n.saveConfig { prev with generation := n.store.current.generation + 1, version := n.version } (some op.order))

/-- PARAM_DEFAULTS (R543). -/
def cmdParamDefaults (op : PoolOp) (n : Node) : Ans × Node :=
  if n.time.pendingRate.isSome then (.fail .busy, n)
  else if n.time.rate = .k16 then (.ok [], n.setDefaults op.client.isL)
  else
    let r := n.acceptRate .k16 none op.order true
    if r.1 then (.ok [], r.2.setDefaults op.client.isL) else (.wait, r.2)

/-- TICK_RATE_CHANGE (R128, R543): at a P0 that is a boundary of both rates the waiting change takes effect. -/
def Node.rateChange (n : Node) : Node :=
  match n.time.pendingRate with
  | none => n
  | some (r, outat, o, dflt) =>
    if n.time.lt % r.ns ≠ 0 ∨ n.time.lt % n.tick ≠ 0 then n else
    let headen := (n.opOf o).any fun x => x.client.isL
    let n := n.rateEffect r outat
    let n := if dflt then n.setDefaults headen else n
    let n := n.endOrder o .done []
    match n.time.nextRate with
    | some (r, o) => (n.modTime fun t => { t with nextRate := none }).putRate r o
    | none => n

/-! ### Rows -/

/-- A packet of one PARAM_WRITE item. -/
def writeOf (p : Packet) (id : Nat) (v : Word) : Packet := { asRow .paramWrite p with words := [wN id, v] }

/-- PARAM_READ. -/
def execParamRead (p : Packet) (s : State) : Host.Outcome State Fault Refusal :=
  s.upd (Node.packetRow cmdParamRead (asRow .paramRead p))

/-- PARAM_WRITE. -/
def execParamWrite (p : Packet) (s : State) : Host.Outcome State Fault Refusal :=
  s.upd (Node.packetRow cmdParamWrite (asRow .paramWrite p))

/-- A write of TICK.RATE. -/
def execTickRateWrite (p : Packet) (v : Word) (s : State) : Host.Outcome State Fault Refusal :=
  s.upd (Node.packetRow cmdParamWrite (writeOf p Pid.tickRate v))

/-- A write of TICK.OUTAT. -/
def execTickOutatWrite (p : Packet) (v : Word) (s : State) : Host.Outcome State Fault Refusal :=
  s.upd (Node.packetRow cmdParamWrite (writeOf p Pid.tickOutat v))

/-- A write of NODE.CASKEXC. -/
def execNodeCaskexcWrite (p : Packet) (v : Word) (s : State) : Host.Outcome State Fault Refusal :=
  s.upd (Node.packetRow cmdParamWrite (writeOf p Pid.nodeCaskexc v))

/-- A write of a CASK item of block EXC or IN (R194). -/
def execCaskItemWriteExcited (p : Packet) (item : CaskItem) (ch : Ch) (v : Word) (s : State) :
    Host.Outcome State Fault Refusal :=
  s.upd (Node.packetRow cmdParamWrite
    (writeOf p (pidAt ((if item.inBlock then 0x05 else 0x04) * 1024 + item.item.toNat) ch.val) v))

/-- A write of POS.OFFSET. -/
def execPosOffsetWrite (p : Packet) (ch : Ch) (v : Word) (s : State) : Host.Outcome State Fault Refusal :=
  s.upd (Node.packetRow cmdParamWrite (writeOf p (pidAt Pid.posOffset ch.val) v))

/-- A write of DAC.SRC. -/
def execDacSrcWrite (p : Packet) (ch : Ch) (v : Word) (s : State) : Host.Outcome State Fault Refusal :=
  s.upd (Node.packetRow cmdParamWrite (writeOf p (pidAt Pid.dacSrc ch.val) v))

/-- A write of DAC.CLREN. -/
def execDacClrenWrite (p : Packet) (ch : Ch) (v : Word) (s : State) : Host.Outcome State Fault Refusal :=
  s.upd (Node.packetRow cmdParamWrite (writeOf p (pidAt Pid.dacClren ch.val) v))

/-- A write of DAC.CLRCODE. -/
def execDacClrcodeWrite (p : Packet) (ch : Ch) (v : Word) (s : State) : Host.Outcome State Fault Refusal :=
  s.upd (Node.packetRow cmdParamWrite (writeOf p (pidAt Pid.dacClrcode ch.val) v))

/-- A write of DAC.RANGE. -/
def execDacRangeWrite (p : Packet) (ch : Ch) (v : Word) (s : State) : Host.Outcome State Fault Refusal :=
  s.upd (Node.packetRow cmdParamWrite (writeOf p (pidAt Pid.dacRange ch.val) v))

/-- A write of REF.TSEL. -/
def execRefTselWrite (p : Packet) (v : Word) (s : State) : Host.Outcome State Fault Refusal :=
  s.upd (Node.packetRow cmdParamWrite (writeOf p Pid.refTsel v))

/-- A write of LINE.CYCLE. -/
def execLineCycleWrite (p : Packet) (v : Word) (s : State) : Host.Outcome State Fault Refusal :=
  s.upd (Node.packetRow cmdParamWrite (writeOf p Pid.lineCycle v))

/-- The ID of an item of R420. -/
def recordItemId : RecordItem → Nat
  | .reclen => Pid.lineReclen
  | .recch => Pid.lineRecch
  | .recvel => Pid.lineRecvel
  | .replyq => Pid.lineReplyq

/-- A write of LINE.RECLEN, LINE.RECCH, LINE.RECVEL or LINE.REPLYQ (R420): in force from the next roll call. -/
def execLineRecordWrite (p : Packet) (item : RecordItem) (v : Word) (s : State) : Host.Outcome State Fault Refusal :=
  s.upd (Node.packetRow cmdParamWrite (writeOf p (recordItemId item) v))

/-- SOUND_CONFIG. -/
def execSoundConfig (p : Packet) (s : State) : Host.Outcome State Fault Refusal :=
  s.upd (Node.packetRow cmdSoundConfig (asRow .soundConfig p))

/-- SET_LIMITS (R308, R316 to R318). -/
def cmdSetLimits (op : PoolOp) (n : Node) : Ans × Node := n.writeOp .setLimits op

/-- SET_LIMITS. -/
def execSetLimits (p : Packet) (s : State) : Host.Outcome State Fault Refusal :=
  s.upd (Node.packetRow cmdSetLimits (asRow .setLimits p))

/-- GAIN_SET (R303). -/
def cmdGainSet (op : PoolOp) (n : Node) : Ans × Node := n.writeOp .gainSet op

/-- GAIN_SET. -/
def execGainSet (p : Packet) (s : State) : Host.Outcome State Fault Refusal :=
  s.upd (Node.packetRow cmdGainSet (asRow .gainSet p))

/-- EMU_SET (R288, R289, R576). -/
def cmdEmuSet (op : PoolOp) (n : Node) : Ans × Node := n.writeOp .emuSet op

/-- EMU_SET. -/
def execEmuSet (p : Packet) (s : State) : Host.Outcome State Fault Refusal :=
  s.upd (Node.packetRow cmdEmuSet (asRow .emuSet p))

/-- DAC_CONFIG (R366, R577). -/
def cmdDacConfig (op : PoolOp) (n : Node) : Ans × Node := n.writeOp .dacConfig op

/-- DAC_CONFIG. -/
def execDacConfig (p : Packet) (s : State) : Host.Outcome State Fault Refusal :=
  s.upd (Node.packetRow cmdDacConfig (asRow .dacConfig p))

/-- PARAM_SAVE. -/
def execParamSave (p : Packet) (s : State) : Host.Outcome State Fault Refusal :=
  s.upd (Node.packetRow cmdParamSave (asRow .paramSave p))

/-- PARAM_RESTORE. -/
def execParamRestore (p : Packet) (s : State) : Host.Outcome State Fault Refusal :=
  s.upd (Node.packetRow cmdParamRestore (asRow .paramRestore p))

/-- PARAM_DEFAULTS. -/
def execParamDefaults (p : Packet) (s : State) : Host.Outcome State Fault Refusal :=
  s.upd (Node.packetRow cmdParamDefaults (asRow .paramDefaults p))

/-- TICK_RATE_CHANGE, at P0 of the tick in progress. -/
def execTickRateChange (s : State) : Host.Outcome State Fault Refusal := s.upd fun n => n.whenUp Node.rateChange

end Sys2Proof.Machine
end

