-- ==== Sys2Proof/Machine/Power.lean ====
section
/-!
DEFINITION. Supplies, resets and interlock pins of core and cellar, the watchdog, the steps of Steep, and the TAP
(03_steep_and_cask.md R88 to R117; 15_faults_and_pitch_points.md R509, R521; 16_firmware_and_store.md R555;
18_pins_and_host_port.md R579 to R604).
-/
namespace Sys2Proof.Machine

/-- Changes the supplies and pins. -/
def Node.modPower (f : Power → Power) (n : Node) : Node := { n with power := f n.power }

/-- The core is held in reset from now on (R88, R90, R92, R442, R604): a core that ran is reset, a Steep is abandoned
under a new trigger where one is given. A core that is held already takes the new trigger too, but for the Steep of a power-up, which
the release of RESETN does not turn into one of a core reset (R89; DESIGN CHOICE, log entry 112). -/
def Node.holdCore (inSteep : Option SteepTrigger) (n : Node) : Node :=
  match n.core.run with
  | .held => (match inSteep with
    | none => n
    | some t => if n.restart.trigger = .powerUp then n else { n with restart := { n.restart with trigger := t, updating := false } })
  | .up => n.coreReset .coreReset .coreReset none
  | .steep _ =>
    let n := n.modCore fun k => { k with run := .held }
    match inSteep with
    | none => n
    | some t => { n with restart := { n.restart with trigger := t, updating := false } }

/-- The cellar is reset (R90, R555): the store, the lock page and the pins stay; time, line, clients and the core start
as at power-up. The open transfer closes and waiting store writes are lost. -/
def Node.cellarReset (n : Node) : Node :=
  let n := n.dropTransfer
  { store := { n.store with writes := [] }, line := { lock := n.line.lock }, nonces := n.nonces, free := n.free
    power := { n.power with railsGood := false, syncoutHighUntil := none, syncoutLowUntil := 0 } }

/-- VCEL_VALID (R17, R88, R132, R429, R430): the cellar starts. -/
def execVcelValid (s : State) : Host.Outcome State Fault Refusal :=
  s.upd fun n => if n.power.vcel then n else n.modPower fun p => { p with vcel := true }

/-- VCEL_LOST (R555, R580). -/
def execVcelLost (s : State) : Host.Outcome State Fault Refusal :=
  s.upd fun n => if n.power.vcel then n.cellarReset.modPower fun p => { p with vcel := false } else n

/-- PWRGOOD (R88, R89, R92): every rail has been in its range for 1 ms with RESETN and CRESETN high; Steep starts. -/
def execPwrgood (avddh avss : Int) (t : Nat) (s : State) : Host.Outcome State Fault Refusal :=
  s.upd fun n => n.whenCellar fun n =>
    let n := n.atT t
    if n.power.railsGood || !n.power.resetn then n else
    let n := n.modPower fun p => { p with railsGood := true, avddh := avddh, avss := avss }
    match n.core.run with
    | .held => n.beginSteep
    | _ => n

/-- PWRGOOD_DROP (R92, R442): the core is held until the next PWRGOOD. -/
def execPwrgoodDrop (t : Nat) (s : State) : Host.Outcome State Fault Refusal :=
  s.upd fun n => n.whenCellar fun n =>
    let n := n.atT t
    if n.power.railsGood then (n.holdCore none).modPower fun p => { p with railsGood := false } else n

/-- RESETN_FALL (R442, R581): the core is reset and its outputs go high impedance. -/
def execResetnFall (t : Nat) (s : State) : Host.Outcome State Fault Refusal :=
  s.upd fun n =>
    let n := n.modPower fun p => { p with resetn := false }
    n.whenCellar fun n => ((n.atT t).holdCore (some .coreReset)).modPower fun p => { p with railsGood := false }

/-- RESETN_RISE (R88, R89): Steep follows at the next PWRGOOD. -/
def execResetnRise (t : Nat) (s : State) : Host.Outcome State Fault Refusal :=
  s.upd fun n =>
    let n := n.modPower fun p => { p with resetn := true }
    n.whenCellar fun n => n.atT t

/-- CRESETN_FALL (R90, R555, R580): the cellar is reset and the core held. -/
def execCresetnFall (_t : Nat) (s : State) : Host.Outcome State Fault Refusal :=
  s.upd fun n => if n.power.cresetn then n.cellarReset.modPower fun p => { p with cresetn := false } else n

/-- CRESETN_RISE (R90): the cellar starts as at power-up. -/
def execCresetnRise (_t : Nat) (s : State) : Host.Outcome State Fault Refusal :=
  s.upd fun n => n.modPower fun p => { p with cresetn := true }

/-- A watchdog expiry during the Steep of an image on trial counts as a failed Steep (R105). -/
def Node.trialExpiry (b : Bool) (n : Node) : Node :=
  n.modImage b fun i => { i with state := .trial, failed := i.failed + 1 }

/-- The image on trial of a Steep in progress: the valid image of the higher sequence number, while it is pending or on
trial (R104, R105). -/
def Node.trialImage (n : Node) : Option Bool :=
  let b := decide (n.store.images.a.seq < n.store.images.b.seq)
  let s := n.store.images.get b
  if s.state = .pending ∨ s.state = .trial then some b else none

/-- The revert of an image whose second Steep on trial failed (R106). -/
def Node.revert (b : Bool) (n : Node) : Node :=
  let n := n.modImage b fun i => { i with state := .rejected }
  { n with restart := { n.restart with trigger := .activation, revert := true, updating := true } }

/-- WATCHDOG_EXPIRY (R89, R105, R106, R442, R509, R521). -/
def execWatchdogExpiry (t : Nat) (s : State) : Host.Outcome State Fault Refusal :=
  s.upd fun n => n.whenCellar fun n =>
    let n := n.atT t
    match n.core.run with
    | .held => n
    | .up => (n.coreReset .coreReset .coreReset (some (n.injecting .watchdog 0xFF))).beginSteep
    | .steep _ =>
      let n := { n with restart := { n.restart with trigger := .coreReset, watchdog := some false, updating := false } }
      let n := match n.trialImage with
        | none => n
        | some b =>
          let n := n.trialExpiry b
          if 2 ≤ (n.store.images.get b).failed then n.revert b else n
      (n.modCore fun k => { k with run := .held }).beginSteep

/-! ### The steps of Steep -/

/-- Changes the running Steep. -/
def Node.modSteep (f : SteepRun → SteepRun) (n : Node) : Node :=
  match n.core.run with
  | .steep r => n.modCore fun k => { k with run := .steep (f r) }
  | _ => n

/-- STEEP_STEP_LIMIT (R93, R95): a step is abandoned with its unfinished checks; without PLL lock step 1 is to be repeated. -/
def execSteepStepLimit (x : StepCut) (t : Nat) (s : State) : Host.Outcome State Fault Refusal :=
  s.upd fun n => n.whenCellar fun n =>
    (n.atT t).modSteep fun r => match x with
      | .pll => { r with locked := false }
      | .checks i => { r with abandoned := r.abandoned ||| 2 ^ i.val }

/-- PLL_RETRY (R95): step 1 is repeated; Steep goes on when the PLL locks. -/
def execPllRetry (locked : Bool) (t : Nat) (s : State) : Host.Outcome State Fault Refusal :=
  s.upd fun n => n.whenCellar fun n =>
    (n.atT t).modSteep fun r => if r.locked then r else { r with locked := locked }

/-- STEEP_END (R94 to R117): Steep ends with CASK entry, or with a revert. -/
def execSteepEnd (r : SteepResults) (t : Nat) (s : State) : Host.Outcome State Fault Refusal :=
  s.upd fun n => n.whenCellar fun n =>
    let n := n.atT t
    match n.core.run with
    | .steep run => if run.locked then n.steepDone r run else n
    | _ => n

/-! ### CLRN -/

/-- Raises EV.CLRN at an edge (R359). -/
def Node.clrnEvent (falling : Bool) (n : Node) : Node := n.event .clrn 0xFF n.stamp [wN (flag falling 0)]

/-- CLRN_FALL (R359, R360): the outputs with DAC.CLREN = 1 take their clear codes; running LOOP slots hold. -/
def execClrnFall (t : Nat) (s : State) : Host.Outcome State Fault Refusal :=
  s.upd fun n =>
    let n := n.modPower fun p => { p with clrn := false }
    n.whenUp fun n => (n.atT t).clearsLow.clrnEvent true

/-- CLRN_RISE (R361): the clear ends. -/
def execClrnRise (t : Nat) (s : State) : Host.Outcome State Fault Refusal :=
  s.upd fun n =>
    let n := n.modPower fun p => { p with clrn := true }
    n.whenUp fun n => (eachCh Node.endClear (n.atT t)).clrnEvent false

/-! ### The TAP -/

/-- A TAP instruction comes into force (R602, R604): EXTEST, HIGHZ and CLAMP hold the core in reset; when one of them is
replaced by another instruction the core restarts with a Steep of trigger 0b01. -/
def Node.tapTo (ir : Nat) (cells : Option (BitVec 86)) (t : Nat) (n : Node) : Node :=
  let was := [0, 2, 3].contains n.power.tapIr
  let holds := [0, 2, 3].contains ir
  let n := n.modPower fun p => { p with tapIr := ir, boundary := cells.getD p.boundary }
  n.whenCellar fun n =>
    let n := n.atT t
    if holds then n.holdCore (some .coreReset)
    else if was && n.mayRun then
      let n := { n with restart := { n.restart with trigger := .coreReset } }
      n.beginSteep
    else n

/-- EXTEST with the cells shifted in. -/
def execExtest (cells : BitVec 86) (t : Nat) (s : State) : Host.Outcome State Fault Refusal := s.upd (Node.tapTo 0 (some cells) t)

/-- SAMPLE/PRELOAD with the cells shifted in. -/
def execSamplePreload (cells : BitVec 86) (t : Nat) (s : State) : Host.Outcome State Fault Refusal :=
  s.upd (Node.tapTo 1 (some cells) t)

/-- HIGHZ. -/
def execHighz (t : Nat) (s : State) : Host.Outcome State Fault Refusal := s.upd (Node.tapTo 2 none t)

/-- CLAMP. -/
def execClamp (t : Nat) (s : State) : Host.Outcome State Fault Refusal := s.upd (Node.tapTo 3 none t)

/-- BYPASS. -/
def execBypass (t : Nat) (s : State) : Host.Outcome State Fault Refusal := s.upd (Node.tapTo 15 none t)

/-- TAP reset: the selected register is BYPASS. -/
def execTapReset (t : Nat) (s : State) : Host.Outcome State Fault Refusal := s.upd (Node.tapTo 15 none t)

end Sys2Proof.Machine
end

