-- ==== Sys2Proof/Machine/SoundRows.lean ====
section
/-!
DEFINITION. The sound-and-heat unit: measuring rounds, ultrasonic paths, the medium, RTD inputs, zero-flow calibration, and
SOUND_READ, RTD_READ and ZERO_FLOW_CAL (11_sound_heat_air.md R367 to R384, R387, R388, R398; 03_steep_and_cask.md R99).
-/
namespace Sys2Proof.Machine

/-! ### One path -/

/-- Whether a path is fitted (R399): 1 is A alone, 2 is A and B. -/
def pathFitted (ps : ParamMem) (b : Bool) : Bool := decide (idx b < ps.nat Pid.sndPaths 0)

/-- An M40 item of a path or input, fx. -/
def mPar (ps : ParamMem) (pid i : Nat) : Int := m40ToFx (ps.get (pidAt pid i))

/-- Whether a peak exceeds λ (R371): 40 % of the level, and SND.AMPMIN. -/
def exceeds (ps : ParamMem) (i : Nat) (level : Option Nat) (peak : Nat) : Bool :=
  decide (ps.nat Pid.sndAmpmin i * 1000000 < peak * 65536) && level.all fun a => decide (4 * a < 10 * peak)

/-- The transit time of a shot in ps (R367, R371, R372): none where no half-wave exceeds λ or the time is out of range. -/
def shotTime (ps : ParamMem) (i : Nat) (level : Option Nat) (ws : List HalfWave) : Option Int :=
  match ws.find? fun w => exceeds ps i level w.peakUv with
  | none => none
  | some w =>
    let t : Int := w.zcPs - ps.nat Pid.sndTdel i * 1000
    let stop : Int := (ps.nat Pid.sndShotgap i - 100) * 1000000
    if w.zcPs < 500000 ∨ 4000000000 < w.zcPs ∨ t < 500000 ∨ stop < t then none else some t

/-- The received amplitude of a shot: its largest peak, µV (R371). -/
def shotAmp (ws : List HalfWave) : Nat := ws.foldl (fun a w => max a w.peakUv) 0

/-- The mean received amplitude of a direction, µV (R371). -/
def meanAmp (shots : List (List HalfWave)) : Nat := shots.foldl (fun a w => a + shotAmp w) 0 / max 1 shots.length

/-- A direction's transit time, fx ps (R372): the mean of its valid shots, where at least half are valid. -/
def dirTime (ps : ParamMem) (i : Nat) (level : Option Nat) (shots : List (List HalfWave)) : Option Int :=
  let ts := shots.filterMap (shotTime ps i level)
  let med := (sortInts ts).getD ((ts.length - 1) / 2) 0
  let good := ts.filter fun t => decide ((t - med).natAbs * (4 * ps.nat Pid.sndFreq i) ≤ 1000000000000)
  if good.isEmpty || decide (2 * good.length < ps.nat Pid.sndShots i) then none
  else some (good.foldl (· + ·) 0 * fxOne / good.length)

/-- `273.15`, fx. -/
def fxKelvin : Int := fxRat 27315 100

/-- The medium code of a path (R375): `c` valid or not, T_air, and T_ref where there is one. -/
def mediumOf (ps : ParamMem) (cOk : Bool) (c tAir : Int) (tRef : Option Int) : Nat :=
  let foreign := match tRef with
    | some t =>
      let e := fxMul (mPar ps Pid.sndC0 0) (fxSqrt (fxOne + fxDiv t fxKelvin))
      decide (ps.nat Pid.sndCtol 0 * e < 100 * (c - e).natAbs)
    | none => decide (c < mPar ps Pid.sndCmin 0) || decide (mPar ps Pid.sndCmax 0 < c)
  if !cOk then 4 else if 1000 * fxOne ≤ c then 3 else if foreign then 2
  else if mPar ps Pid.sndHotlim 0 < tAir then 1 else 0

/-- A path's result from its shots (R370 to R375); `forced` sets c to 267 m/s (R397). -/
def pathResult (ps : ParamMem) (b : Bool) (level : Option Nat) (x : PathShots) (tRef : Option Int) (forced : Bool) :
    PathResult :=
  let i := idx b
  let k := ps.nat Pid.sndShots i
  let dn := x.dn.take k
  let up := x.up.take k
  let amp := min (meanAmp dn) (meanAmp up)
  match dirTime ps i level dn, dirTime ps i level up with
  | some td, some tu =>
    let len := mPar ps Pid.sndLen i
    let inv := fun (t : Int) => 1000000000000 * fxOne * fxOne / t
    let c := if forced then 267 * fxOne else fxMul len (inv td + inv tu) / 2
    let dt := tu - td
    let zero := ps.int Pid.sndZero i * fxOne
    let cos2 := 2 * fxCos (fxRat (ps.nat Pid.sndAngle i) 3600)
    let kl := fxMul (g40ToFx (ps.get (pidAt Pid.sndKprof i))) len
    let v0 := fxDiv (fxMul kl (fxMul (fxMul (inv tu) (inv td)) (dt - zero) / 1000000000000)) cos2
    let v := roundDiv (v0 * 1000) fxOne * fxOne / 1000
    let q := fxDiv c (mPar ps Pid.sndC0 0)
    let tAir := fxMul fxKelvin (fxMul q q - fxOne)
    let cOk := decide (200 * fxOne ≤ c) && decide (c ≤ 2000 * fxOne)
    let med := mediumOf ps cOk c tAir tRef
    let beyond := cOk && decide (40 * fxOne < v.natAbs)
    { fitted := true, medium := med, cOk := cOk, vOk := cOk && decide (med ≤ 1) && !beyond, beyond := beyond
      v := v, c := c, tAir := tAir, amp := amp, dt := dt }
  | _, _ => { fitted := true, amp := amp }

/-! ### RTD inputs -/

/-- R0 of an input in mΩ (R383). -/
def rtdR0 (ps : ParamMem) (i : Nat) : Int := if ps.nat Pid.rtdType i = 1 then 1000000 else 100000

/-- IEC 60751 coefficients A and B as fx; C is `-4183 / 10^15` (R383). -/
def rtdA : Int := fxRat 39083 10000000
/-- See `rtdA`. -/
def rtdB : Int := fxRat (-5775) 10000000000

/-- R / R0 below 0 °C, fx, of a temperature in fx (R383). -/
def rtdLow (t : Int) : Int :=
  let t2 := fxMul t t
  fxOne + fxMul rtdA t + fxMul rtdB t2 + fxMul (fxMul t2 t) (t - 100 * fxOne) * (-4183) / 1000000000000000

/-- Bisection of `rtdLow` from `lo` upward in steps of halved width. -/
def rtdSolve (r : Int) : Nat → Int → Int → Int
  | 0, lo, _ => lo
  | f + 1, lo, w => if rtdLow (lo + w / 2) ≤ r then rtdSolve r f (lo + w / 2) (w / 2) else rtdSolve r f lo (w / 2)

/-- Temperature of R_x / R0, fx °C (R383): below R0 the full equation is solved over -256 to 0 °C, to 2^-24 K. -/
def rtdTemp (r : Int) : Int :=
  if fxOne ≤ r then fxDiv (-rtdA + fxSqrt (fxMul rtdA rtdA - 4 * fxMul rtdB (fxOne - r))) (2 * rtdB)
  else rtdSolve r 32 (-256 * fxOne) (256 * fxOne)

/-- Whether the equation of R383 has a solution at R_x / R0. -/
def rtdSolvable (r : Int) : Bool := decide (0 ≤ fxMul rtdA rtdA - 4 * fxMul rtdB (fxOne - r))

/-- An interval the converter can give (R367): 0.5 µs to 4 ms; any other gives no value. -/
def tdcValue (ps : Option Nat) : Option Nat := ps.filter fun t => decide (500000 ≤ t) && decide (t ≤ 4000000000)

/-- A discharge has not reached 40 % within 4 ms (R397). -/
def tdcLate (ps : Option Nat) : Bool := ps.all fun t => decide (4000000000 < t)

/-- An input's result from its discharge times (R382 to R384, R397); `o`, `s`, `h` say which signal-path injections act.
Where the discharges or R_x give none, the latest R_x and T stay (R399). A reading that F.RTD_HOT judges stays valid (log entry 123). -/
def rtdResult (ps : ParamMem) (i t0 : Nat) (x : RtdShot) (old : RtdResult) (o s h : Bool) : RtdResult :=
  let r0 := rtdR0 ps i
  let rx : Option Int :=
    if o then none else if s then some (r0 / 10) else
    match tdcValue x.tRef, tdcValue x.tX with
    | some a, some b => if a = t0 then none else some (roundDiv ((ps.nat Pid.rtdRref i : Int) * ((b : Int) - t0)) ((a : Int) - t0))
    | _, _ => none
  let isOpen := match rx with
    | none => o || tdcLate x.tRef || tdcLate x.tX
    | some r => decide (42 * r0 < 10 * r)
  let short := match rx with
    | none => false
    | some r => decide (100 * r < 15 * r0)
  let t : Option Int := (rx.filter fun r => rtdSolvable (fxRat r r0)).map fun r => rtdTemp (fxRat r r0) + (if h then 200 * fxOne else 0)
  let ok := t.any (fun t => decide (-200 * fxOne ≤ t) && decide (t ≤ 850 * fxOne)) && !short && !isOpen
  let warn := ok && t.any fun t => decide (mPar ps Pid.rtdWarn i < t)
  let trip := ok && t.any fun t => decide (mPar ps Pid.rtdTrip i < t)
  { enabled := true, valid := ok, isOpen := isOpen, short := short, warn := warn, trip := trip
    t := t.getD old.t, r := rx.getD old.r
    openRounds := if isOpen then old.openRounds + 1 else 0
    shortRounds := if short then old.shortRounds + 1 else 0
    tripRounds := if trip then old.tripRounds + 1 else 0 }

/-- The scope of an input's faults (R384). -/
def rtdScope (ps : ParamMem) (c : Ch) : Nat := if ps.nat Pid.rtdChan c.val < 4 then ps.nat Pid.rtdChan c.val else 0xFF

/-! ### Rounds -/

/-- A round of the ordinary schedule (R368). -/
def Node.normalRound (n : Node) : Node :=
  if n.roundsRun && n.time.lt % (n.parN Pid.sndRound 0 * 1000000) == 0 then
    n.modSound fun s =>
      { s with
        round := some { start := n.p0Stamp, items := n.core.params, pathA := pathFitted n.core.params false
                        pathB := pathFitted n.core.params true, rtds := true, cal := false } }
  else n

/-- D_c of a calibration as a period in ns (R378): the smallest whole multiple of 10 ms that is at least D_c. -/
def Node.calPeriod (n : Node) (c : Calib) : Nat :=
  let path := fun (on b : Bool) => if on then 2 * n.parN Pid.sndShots (idx b) * n.parN Pid.sndShotgap (idx b) else 0
  ceilDiv (path c.pathA false + path c.pathB true) 10000 * 10000000

/-- A measuring round starts at P0 (R368, R378): a calibration's when its period has ended, else at each whole multiple of
SND.ROUND of the time in force. -/
def Node.startRound (n : Node) : Node :=
  let s := n.core.sound
  if s.noRounds || s.round.isSome then n else
  match s.cal with
  | none => n.normalRound
  | some c =>
    match c.nextRound with
    | none => n.normalRound
    | some e =>
      if n.time.p0e < e ∨ c.want ≤ c.rounds then n else
      let r : RoundRun :=
        { start := n.p0Stamp, items := n.core.params, pathA := c.pathA, pathB := c.pathB, rtds := false, cal := true }
      let c' : Calib := { c with nextRound := some (n.time.p0e + n.calPeriod c) }
      n.modSound fun s => { s with cal := some c', round := some r }

/-- The results of a round's RTD inputs (R382 to R384). -/
def Node.rtdResults (n : Node) (r : RoundRun) (x : RoundData) : Quad RtdResult :=
  let ps := r.items
  let one := fun (c : Ch) =>
    let old := n.core.sound.rtds.get c
    if !r.rtds then old
    else if ps.nat Pid.rtdEn c.val ≠ 1 then ({} : RtdResult)
    else if n.core.noRtd then { enabled := true }
    else
      let sc := rtdScope ps c
      rtdResult ps c.val n.core.sound.t0 (x.rtds.get c) old (n.injecting .rtdOpen sc) (n.injecting .rtdShort sc) (n.injecting .rtdHot sc)
  ⟨one 0, one 1, one 2, one 3⟩

/-- T_ref of R375 from the RTD results of the round. -/
def airRef (ps : ParamMem) (rs : Quad RtdResult) : Option Int :=
  let i := ps.nat Pid.sndAirrtd 0
  if 4 ≤ i then none else
  let r := rs.get (Fin.ofNat 4 i)
  if r.enabled && r.valid then some r.t else none

/-- The verdicts on the RTD inputs (R384, R397), one scope at a time. -/
def Node.rtdVerdicts (ps : ParamMem) (n : Node) : Node :=
  eachOf [0, 1, 2, 3, 0xFF] (fun sc m =>
    let ins := ([0, 1, 2, 3] : List Ch).filter fun c => ps.nat Pid.rtdEn c.val == 1 && rtdScope ps c == sc
    let any := fun (f : RtdResult → Nat) => ins.any fun c => decide (2 ≤ f (m.core.sound.rtds.get c))
    let judge := fun (f : FaultCode) (cls : Nat) (cond : Bool) (m : Node) =>
      let m := if cond then m.trip f cls sc 0 (m.injecting f sc) else m.cease f sc
      if ins.isEmpty then m else m.useInjection f sc 1
    let m := judge .rtdOpen 1 (any RtdResult.openRounds) m
    let m := judge .rtdShort 1 (any RtdResult.shortRounds) m
    judge .rtdHot (if sc = 0xFF then 1 else 2) (any RtdResult.tripRounds) m) n

/-- The verdict on the medium (R376), with the items the round started with (R369). -/
def Node.mediumVerdict (ps : ParamMem) (n : Node) : Node :=
  let s := n.core.sound
  let need := ps.nat Pid.sndMedrounds 0
  let bad := fun (b : Bool) => decide (need ≤ s.mediumRounds.get b) && decide (0 < s.mediumRounds.get b)
  let inj := n.injecting .medium 0xFF
  let n :=
    if bad false then n.trip .medium 1 0xFF (wN (s.paths.a.medium * 2)) inj
    else if bad true then n.trip .medium 1 0xFF (wN (1 + s.paths.b.medium * 2)) false
    else n.cease .medium 0xFF
  if s.paths.a.fitted then n.useInjection .medium 0xFF need else n

/-- A path measured in a round. -/
def RoundRun.has (r : RoundRun) (b : Bool) : Bool := if b then r.pathB else r.pathA

/-- One step of the AIRFLOW source (R388) with the SND.ROUND of its round (R369); a source written while a duty is held takes effect
later (R394). -/
def Node.airflowStep (ps : ParamMem) (b : Bool) (n : Node) : Node :=
  if n.parN Pid.fanSrc (idx b) ≠ 2 || (n.fan b).held then n else
  match n.ductV b with
  | none => n
  | some v =>
    let f := n.fan b
    let i := idx b
    let g := fun (pid : Nat) => g40ToFx (n.core.params.get (pidAt pid i))
    let tr := fxRat (ps.nat Pid.sndRound 0) 1000
    let min0 := n.par Pid.fanMinduty i
    let e := mPar n.core.params Pid.fanVset i - v
    let sn := f.sigma + fxMul (fxMul (g Pid.fanKia) tr) e
    let su := fxMul (g Pid.fanKpa) e + sn
    let lo := fxRat min0 1000
    let s := clampI lo fxOne su
    let sig := if su = s ∨ (fxOne < su ∧ e < 0) ∨ (su < lo ∧ 0 < e) then sn else f.sigma
    let duty :=
      if n.tachPresent b then
        clampI (min0 * fxOne) (1000 * fxOne) (f.srcDuty + 1000 * fxMul (g Pid.fanKs) (s - fxRat (n.rpm b) (n.parN Pid.fanRpmmax i)))
      else 1000 * s
    n.modFan b fun f => { f with sigma := sig, speed := s, srcDuty := duty }

/-- The collected values of a calibration round (R379): a path's Δt and c, and whether the round is good. -/
def Node.collect (n : Node) (r : RoundRun) : Node :=
  match n.core.sound.cal with
  | none => n
  | some c =>
    if !r.cal || c.nextRound.isNone then n else
    let p := n.core.sound.paths
    let good := fun (on : Bool) (x : PathResult) => !on || (x.cOk && x.vOk && x.medium == 0)
    let c' : Calib :=
      { c with
        rounds := c.rounds + 1, bad := c.bad || !(good c.pathA p.a && good c.pathB p.b)
        a := if c.pathA then (p.a.dt, p.a.c) :: c.a else c.a
        b := if c.pathB then (p.b.dt, p.b.c) :: c.b else c.b }
    n.modSound fun s => { s with cal := some c' }

/-- The probe in progress takes the latest valid duct velocity of a round that started late enough (R390); with its path NO_PATH the
fan is unattributed until a valid round (log entry 123). -/
def Node.probeTake (start : Nat) (n : Node) : Node :=
  match n.core.sound.probe with
  | none => n
  | some p =>
    let v := n.ductV p.fan
    let late := decide (p.start + n.parN Pid.fanProbe (idx p.fan) * 500000 ≤ start)
    let lost := (n.fanPath p.fan).all fun b => (n.core.sound.paths.get b).medium == 4
    let p' : Probe := { p with vp := if late && v.isSome then v else if lost then none else p.vp }
    n.modSound fun s => { s with probe := some p' }

/-- A finished round's results are published and judged at P4 (R368, R371 to R376, R384, R387). -/
def Node.publishRound (x : RoundData) (n : Node) : Node :=
  match n.core.sound.round with
  | none => n
  | some r =>
    let n := n.atT (max n.time.dt n.time.outat)
    let s := n.core.sound
    let rtds := n.rtdResults r x
    let ref := airRef r.items rtds
    let path := fun (b : Bool) =>
      if r.has b then pathResult r.items b (s.level.get b) (x.paths.get b) ref (!b && n.injecting .medium 0xFF)
      else if r.cal then s.paths.get b else {}
    let pa := path false
    let pb := path true
    let lvl := fun (b : Bool) (p : PathResult) => if !r.has b then s.level.get b else if p.medium = 4 then none else some p.amp
    let cnt := fun (b : Bool) (p : PathResult) =>
      if !r.has b then (if r.cal then s.mediumRounds.get b else 0) else if 2 ≤ p.medium then s.mediumRounds.get b + 1 else 0
    let n := n.modSound fun s =>
      { s with
        round := none, last := r.start, lastSeq := if s.published then s.lastSeq + 1 else 0, published := true
        paths := ⟨pa, pb⟩, level := ⟨lvl false pa, lvl true pb⟩, mediumRounds := ⟨cnt false pa, cnt true pb⟩, rtds := rtds }
    let n := (if r.rtds then n.rtdVerdicts r.items else n).mediumVerdict r.items
    let n := if r.rtds && rtds.toList.any (fun y => y.warn) then n.calAbort else n
    let n := (n.collect r).probeTake r.start.e
    let n := if r.cal then n else eachFan (Node.airflowStep r.items) n
    eachFan (fun b m => ((m.fanRefresh b).judgeEarly b).fanAir b) n

/-! ### Zero-flow calibration -/

/-- Whether a fan is in a start judgement, a probe or a retry sequence (R377). -/
def FanState.engaged (f : FanState) : Bool :=
  match f.phase with
  | .judging .. => true
  | .probing _ => true
  | .kicking .. => true
  | .pausing .. => true
  | _ => false

/-- ZERO_FLOW_CAL (R377, R378). -/
def cmdZeroFlowCal (op : PoolOp) (n : Node) : Ans × Node :=
  let w := pw op.packet 0
  let a := bitOf w 0
  let b := bitOf w 1
  let unfit := (a && !pathFitted n.core.params false) || (b && !pathFitted n.core.params true)
  let hot := n.core.sound.rtds.toList.any fun r => r.enabled && r.valid && r.warn
  if !(a || b) then (.fail .badParam, n)
  else if unfit || n.isActive .overtemp 0xFF || hot then (.fail .refusedUnsafe, n)
  else if n.core.sound.cal.isSome || (n.fan false).engaged || (n.fan true).engaged then (.fail .busy, n)
  else
    let c : Calib :=
      { op := op.order, pathA := a, pathB := b, waitEnd := n.now + n.parN Pid.sndCalwait 0 * 1000000000
        want := n.parN Pid.sndCaln 0 }
    (.wait, (n.modSound fun s => { s with cal := some c }).fansForCal)

/-- The wait for silent tachs ends (R378, R379). -/
def Node.calQuiet (n : Node) : Node :=
  match n.core.sound.cal with
  | none => n
  | some c =>
    if c.nextRound.isSome then n else
    let silent := fun (b : Bool) => !n.tachPresent b
    let long := fun (b : Bool) => decide ((n.fan b).silentSince + 2000000000 ≤ n.now)
    let beyond := decide (c.waitEnd ≤ n.now)
    if silent false && silent true && ((long false && long true) || beyond) then
      let c' : Calib := { c with nextRound := some n.now }
      n.modSound fun s => { s with cal := some c' }
    else if beyond then n.calEnd .calUnstable [] else n

/-- The judgement of a path's collected rounds (R379): the new SND.ZERO and the standard deviation, both in ps; none where
a limit is broken. The deviation is taken over all rounds (log entry 33). -/
def calJudge (xs : CalRounds) : Option (Int × Int) :=
  let k : Int := xs.length
  let sum := xs.foldl (fun a x => a + x.1) 0
  let sq := xs.foldl (fun a x => a + x.1 * x.1) 0
  let var := k * sq - sum * sum
  let cs := xs.map Prod.snd
  let c0 := cs.headD 0
  let lo := cs.foldl min c0
  let hi := cs.foldl max c0
  if xs.isEmpty || decide ((200 * fxOne * k) * (200 * fxOne * k) < var) || decide (fxOne < hi - lo) ||
      decide (50000 * fxOne * k < sum.natAbs) then none
  else some (roundDiv sum (k * fxOne), roundDiv (isqrt var.toNat : Nat) (k * fxOne))

/-- The collection ends (R379, R380): SND.ZERO is set in the working set and in the stored current configuration. -/
def Node.calDone (n : Node) : Node :=
  match n.core.sound.cal with
  | none => n
  | some c =>
    if c.nextRound.isNone || !(c.bad || decide (c.want ≤ c.rounds)) then n
    else if c.bad then n.calEnd .calUnstable [] else
    let a := if c.pathA then calJudge c.a else none
    let b := if c.pathB then calJudge c.b else none
    if (c.pathA && a.isNone) || (c.pathB && b.isNone) then n.calEnd .calUnstable [] else
    let one := fun (p : Bool) (r : Option (Int × Int)) => match r with
      | some (z, d) => [((pidAt Pid.sndZero (idx p), wI z), [wI z, wI d])]
      | none => []
    let rs := one false a ++ one true b
    let items := rs.map Prod.fst
    let n := (n.modCore fun k => { k with params := k.params.putAll items }).saveZero items
    n.calEnd .done (rs.flatMap Prod.snd)

/-! ### Reports -/

/-- Words 0 to 2 of SOUND_READ and RTD_READ (R398): zero before a round has been published. -/
def Node.roundWords (n : Node) : List Word :=
  let s := n.core.sound
  if !s.published then [0, 0, 0]
  else [ltHi s.last.lt 0, ltLo s.last.lt, wN (s.lastSeq.toNat + s.last.mark.code * 2 ^ 16)]

/-- The five words of a path in SOUND_READ (R398). -/
def PathResult.report (r : PathResult) : List Word :=
  if !r.fitted then [0, 0, 0, 0, 64] else
  [if r.vOk then fxToM40 r.v else 0, if r.cOk then fxToM40 r.c else 0, if r.vOk then fxToM40 r.tAir else 0,
   fxToM40 (fxRat r.amp 1000000), wN (r.medium + flag r.cOk 3 + flag r.vOk 4 + flag r.beyond 5)]

/-- SOUND_READ (R398). -/
def cmdSoundRead (_ : PoolOp) (n : Node) : Ans × Node :=
  (.ok (n.roundWords ++ n.core.sound.paths.a.report ++ n.core.sound.paths.b.report), n)

/-- The three words of an RTD input in RTD_READ (R398). -/
def RtdResult.report (r : RtdResult) : List Word :=
  [fxToM40 r.t, wI r.r, wN (flag r.enabled 0 + flag r.valid 1 + flag r.isOpen 2 + flag r.short 3 + flag r.warn 4 + flag r.trip 5)]

/-- RTD_READ (R398). -/
def cmdRtdRead (_ : PoolOp) (n : Node) : Ans × Node := (.ok (n.roundWords ++ n.core.sound.rtds.toList.flatMap RtdResult.report), n)

/-! ### Rows -/

/-- SOUND_READ. -/
def execSoundRead (p : Packet) (s : State) : Host.Outcome State Fault Refusal :=
  s.upd (Node.packetRow cmdSoundRead (asRow .soundRead p))

/-- ZERO_FLOW_CAL. -/
def execZeroFlowCal (p : Packet) (s : State) : Host.Outcome State Fault Refusal :=
  s.upd (Node.packetRow cmdZeroFlowCal (asRow .zeroFlowCal p))

/-- RTD_READ. -/
def execRtdRead (p : Packet) (s : State) : Host.Outcome State Fault Refusal :=
  s.upd (Node.packetRow cmdRtdRead (asRow .rtdRead p))

/-- SOUND_ROUND_START. -/
def execSoundRoundStart (s : State) : Host.Outcome State Fault Refusal := s.upd fun n => n.whenUp Node.startRound

/-- SOUND_ROUND_PUBLISH. -/
def execSoundRoundPublish (x : RoundData) (s : State) : Host.Outcome State Fault Refusal :=
  s.upd fun n => n.whenUp fun n => n.publishRound x

/-- ZERO_FLOW_CAL_QUIET. -/
def execZeroFlowCalQuiet (t : Nat) (s : State) : Host.Outcome State Fault Refusal :=
  s.upd fun n => n.whenUp fun n => (n.atT t).calQuiet

/-- ZERO_FLOW_CAL_DONE. -/
def execZeroFlowCalDone (t : Nat) (s : State) : Host.Outcome State Fault Refusal :=
  s.upd fun n => n.whenUp fun n => (n.atT t).calDone

end Sys2Proof.Machine
end

