-- ==== Sys2Proof/Machine/StoreRows.lean ====
section
/-!
DEFINITION. The firmware and store commands and what ends them: FW_BEGIN to FW_ACTIVATE, STORE_READ, finished store
writes, the commit checks and the end of a drain (13_line_failures.md R447, R448; 16_firmware_and_store.md R537 to R554).
-/
namespace Sys2Proof.Machine

/-- Waiting block writes of the open transfer end with it. -/
def Node.abortBlocks (n : Node) : Node :=
  let isBlock := fun (w : StoreWrite) => match w.kind with
    | .fwBlock .. => true
    | _ => false
  let gone := n.store.writes.filter isBlock
  let n := n.modStore fun s => { s with writes := s.writes.filter fun w => !isBlock w }
  eachOf gone (fun w m => m.endOpt w.op .aborted []) n

/-- FW_BEGIN (R548). -/
def cmdFwBegin (op : PoolOp) (n : Node) : Ans × Node :=
  let w := pw op.packet 0
  let onTrial : Bool := match n.core.running with
    | .image b => (n.store.images.get b).state == .trial
    | .boot => false
  let others := n.core.fw.any fun t => t.client != op.client
  if onTrial then (.fail .refusedUnsafe, n)
  else if others then (.fail .busy, n)
  else
    let n := (n.abortBlocks.endOpt n.core.fwCommit .aborted []).dropTransfer
    let b := n.targetSlot
    let t : FwTransfer := { client := op.client, id := fld w 34 19, length := fld w 18 0, slot := b }
    let n := n.modImage b fun _ => { state := .receiving, length := fld w 18 0 }
    (.ok [wN (flag b 0)], n.modCore fun k => { k with fw := some t })

/-- FW_BLOCK (R549). -/
def cmdFwBlock (op : PoolOp) (n : Node) : Ans × Node :=
  let w := pw op.packet 0
  let off := fld w 18 0
  let count := fld w 29 19
  match n.core.fw with
  | none => (.fail .refusedUnsafe, n)
  | some t =>
    if t.client != op.client then (.fail .refusedUnsafe, n)
    else if t.length < off + count then (.fail .outOfRange, n)
    else
      let bytes := ((op.packet.words.drop 1).flatMap wordBytes).take count
      (.wait, n.storeWrite (.fwBlock off bytes) (some op.order) [])

/-- FW_COMMIT (R551): its checks follow within 100 ms. -/
def cmdFwCommit (op : PoolOp) (n : Node) : Ans × Node :=
  if !(n.core.fw.any fun t => t.client == op.client) then (.final .refusedUnsafe [[0, 0]] false, n)
  else if n.core.fwCommit.isSome then (.fail .busy, n)
  else (.wait, n.modCore fun k => { k with fwCommit := some op.order })

/-- The lowest offset of an 8-byte unit that has not been written (R551 check 1). -/
def ImageSlot.unwritten (s : ImageSlot) : Option Nat := ((List.range (s.length / 8)).find? fun i => !s.units.contains i).map (8 * ·)

/-- A commit check fails (R551). -/
def Node.commitFails (o check off : Nat) (n : Node) : Node :=
  let n := if check = 1 then n.modCore fun k => { k with fwCommit := none } else n.dropTransfer
  n.endOrder o .refusedUnsafe [wN check, wN off]

/-- The commit checks (R551). -/
def Node.commitChecked (n : Node) : Node :=
  match n.core.fwCommit, n.core.fw with
  | some o, some t =>
    let s := n.store.images.get t.slot
    match s.unwritten with
    | some off => n.commitFails o 1 off
    | none =>
      if !imageHeaderOk s then n.commitFails o 2 0
      else if !imageRevisionOk s then n.commitFails o 3 0
      else if !Config.signatureOk s.length s.bytes then n.commitFails o 4 0
      else
        let seq := (n.store.images.get (!t.slot)).seq + 1
        let n := n.modImage t.slot fun s => { s with state := .pending, seq := seq, failed := 0 }
        let n := n.modCore fun k => { k with fw := none, fwCommit := none }
        n.endOrder o .done [wN seq, wN (imageVersion s.bytes)]
  | _, _ => n

/-- FW_ACTIVATE (R447, R448, R553). -/
def cmdFwActivate (op : PoolOp) (n : Node) : Ans × Node :=
  if !n.pendingImage then (.fail .refusedUnsafe, n)
  else if n.core.drain.isSome then (.fail .busy, n)
  else
    let d : Drain := { op := op.order, deadline := n.time.p0e + n.parN Pid.nodeDrain 0 * 1000000 }
    (.wait, n.modCore fun k => { k with drain := some d })

/-- The end of a drain (R448, R553): what is left in the pool ends DROPPED at once, and the activation's Steep starts. -/
def Node.drainEnd (n : Node) : Node :=
  match n.core.drain with
  | none => n
  | some d =>
    let alone := n.core.pool.all (fun o => o.order == d.op) && n.core.hops.isEmpty
    if !alone && decide (n.time.p0e < d.deadline) then n else
    let n := match n.opOf d.op with
      | some o => { n with held := some { client := o.client, packet := o.packet, order := o.order } }
      | none => n
    let n := (n.coreReset .activation .drain none).sendDropped
    let n := { n with restart := { n.restart with updating := true } }
    n.beginSteep

/-- STORE_READ (R545). -/
def cmdStoreRead (op : PoolOp) (n : Node) : Ans × Node :=
  let region := fld (pw op.packet 0) 3 0
  let off := fld (pw op.packet 0) 23 4
  let count := fld (pw op.packet 1) 10 0
  if 9 < region ∨ regionSize region < off + count then (.fail .outOfRange, n)
  else
    let bytes := (List.range count).map fun i => n.storeByte region (off + i)
    let n' : Node := { n with free := n.free + 1 }
    (.ok (packWords bytes.length bytes), n')

/-- A block enters the slot of the open transfer (R549): its bytes and the units written. -/
def Node.writeBlock (off : Nat) (bytes : List Byte) (n : Node) : Node :=
  match n.core.fw with
  | none => n
  | some t => n.modImage t.slot fun s =>
    let us := (List.range (bytes.length / 8)).map (· + off / 8)
    { s with bytes := s.bytes.putAll off bytes, units := s.units ++ us.filter fun u => !s.units.contains u }

/-- The write served next has been read back and found equal (R537): what it leaves, and the reply of its command. -/
def Node.writeDone (n : Node) : Node :=
  match n.store.nextWrite with
  | none => n
  | some (w, rest) =>
    let n := n.modStore fun s => w.kind.apply { s with writes := rest }
    let n := match w.kind with
      | .fwBlock off bytes => n.writeBlock off bytes
      | _ => n
    n.endOpt w.op .done w.words

/-! ### Rows -/

/-- FW_BEGIN. -/
def execFwBegin (p : Packet) (s : State) : Host.Outcome State Fault Refusal := s.upd (Node.packetRow cmdFwBegin (asRow .fwBegin p))

/-- FW_BLOCK. -/
def execFwBlock (p : Packet) (s : State) : Host.Outcome State Fault Refusal := s.upd (Node.packetRow cmdFwBlock (asRow .fwBlock p))

/-- FW_COMMIT. -/
def execFwCommit (p : Packet) (s : State) : Host.Outcome State Fault Refusal := s.upd (Node.packetRow cmdFwCommit (asRow .fwCommit p))

/-- FW_ACTIVATE. -/
def execFwActivate (p : Packet) (s : State) : Host.Outcome State Fault Refusal :=
  s.upd (Node.packetRow cmdFwActivate (asRow .fwActivate p))

/-- STORE_READ. -/
def execStoreRead (p : Packet) (s : State) : Host.Outcome State Fault Refusal := s.upd (Node.packetRow cmdStoreRead (asRow .storeRead p))

/-- FW_COMMIT_CHECKED: the checks of a commit have ended. -/
def execFwCommitChecked (t : Nat) (s : State) : Host.Outcome State Fault Refusal :=
  s.upd fun n => n.whenUp fun n => (n.atT t).commitChecked

/-- DRAIN_END, at P0 of the tick in progress. -/
def execDrainEnd (s : State) : Host.Outcome State Fault Refusal := s.upd fun n => n.whenUp Node.drainEnd

/-- STORE_WRITE_DONE. -/
def execStoreWriteDone (t : Nat) (s : State) : Host.Outcome State Fault Refusal :=
  s.upd fun n => n.whenUp fun n => (n.atT t).writeDone

end Sys2Proof.Machine
end

