-- ==== Sys2Proof/Machine/TandemRows.lean ====
section
/-!
DEFINITION. A tandem pair: forming, fusion, relayed commands and their results, events and records, partner loss and
splitting (14_tandem.md R471 to R498).
-/
namespace Sys2Proof.Machine

/-! ### Preconditions -/

/-- The status of a forming reason (R474). -/
def formStatus (reason : Nat) : Status :=
  match reason with
  | 1 => .wrongMode
  | 6 => .notOwner
  | 7 => .overBudget
  | 8 => .busy
  | _ => .refusedUnsafe

/-- The first of a list of preconditions that fails, by its reason; 0 where all hold. -/
def firstReason : List (Nat × Bool) → Nat
  | [] => 0
  | x :: xs => if x.2 then firstReason xs else x.1

/-- The preconditions a member judges of itself (R474): `pos` says that the positions suit, `free` that its pool holds no
operation where that is asked. -/
def Node.formReasonOf (n : Node) (cl : Client) (pos free : Bool) : Nat :=
  firstReason
    [(1, n.core.mode == .track), (2, decide (n.core.faults.topClass < 2)),
     (4, n.parN Pid.tanAllow 0 == 1 && n.parN Pid.tanSig 0 != 0), (5, n.lockState == 1 && pos), (6, n.ownsAll cl),
     (7, n.admissionNow.isNone), (8, free)]

/-- Whether the pool of the node holds no operation (R474 reason 8, R477). -/
def Node.poolFree (n : Node) : Bool := n.core.pool.isEmpty && n.core.hops.isEmpty

/-- The state shown after a forming that did not fuse (R492, R497). -/
def Lane.unformed (l : Lane) : Lane :=
  { l with state := if l.survivor then .survivor else .single, formOp := none, sending := false, sentReady := false, gotReady := false }

/-! ### Forming -/

/-- TANDEM_FORM (R474, R475): the lower member asks the node on its DN side. A second one while a forming runs is refused with
the reason of a busy pool (log entry 39). -/
def cmdTandemForm (op : PoolOp) (n : Node) : Ans × Node :=
  let want := fld (pw op.packet 0) 9 0
  let r := n.formReasonOf op.client (n.lane.dnLink && want == n.lockPos + 1) (!(n.lane.state == .forming))
  if r ≠ 0 then (.final (formStatus r) [[wN r]] false, n) else
  let kf := wrapK (n.time.k48 + 32)
  let x : FormRequest :=
    { fusionTick := BitVec.ofNat 48 kf, client := op.packet.client, fromHost := op.client.isL, version := BitVec.ofNat 32 n.version
      sig := BitVec.ofNat 16 (n.parN Pid.tanSig 0), rateKhz := n.time.rate.khz, position := BitVec.ofNat 10 n.lockPos }
  let n := n.modLane fun l =>
    { l with
      state := .forming, isLower := true, partnerPos := want, kf := kf, formOp := some op.order, formReason := none
      requester := some op.client, sentReady := false, gotReady := false, sending := false }
  (.wait, n.laneSend .dn (.formReq x))

/-- TANDEM_FORM. -/
def execTandemForm (p : Packet) (s : State) : Host.Outcome State Fault Refusal :=
  s.upd (Node.packetRow cmdTandemForm (asRow .tandemForm p))

/-- What the upper member answers to a request (R474, R475): 0 to accept, else the reason. -/
def Node.answerForm (n : Node) (x : FormRequest) (cl : Client) : Nat :=
  let own := n.formReasonOf cl (n.lane.upLink && n.lockPos == x.position.toNat + 1) n.poolFree
  let both := firstReason
    [(3, x.version.toNat == n.version), (4, x.sig.toNat == n.parN Pid.tanSig 0 && x.rateKhz == n.time.rate.khz)]
  if own = 0 then both else if both = 0 then own else min own both

/-- The client a forming request or a result names. -/
def clientOf (fromHost : Bool) (id : BitVec 8) : Client := if fromHost then .ctxL else .line id

/-- FORM_REQ (R475). -/
def execFormReq (g : LaneHdr) (x : FormRequest) (t : Nat) (s : State) : Host.Outcome State Fault Refusal :=
  s.upd fun n => n.whenUp fun n => (n.atT t).laneTake g fun n =>
    if g.port ≠ .up then n else
    let cl := clientOf x.fromHost x.client
    let r := n.answerForm x cl
    let n := if r ≠ 0 then n else n.modLane fun l =>
      { l with
        state := .forming, isLower := false, partnerPos := x.position.toNat, kf := x.fusionTick.toNat, formOp := none
        formReason := some 0, requester := some cl, sentReady := false, gotReady := false, sending := true }
    n.laneSend .up (.formAns (BitVec.ofNat 4 r))

/-- FORM_ANS (R475): from an accepting answer on the lower member sends tick packets. -/
def execFormAns (g : LaneHdr) (reason : BitVec 4) (t : Nat) (s : State) : Host.Outcome State Fault Refusal :=
  s.upd fun n => n.whenUp fun n => (n.atT t).laneTake g fun n =>
    if g.port = .dn ∧ n.lane.state = .forming ∧ n.lane.isLower then
      n.modLane fun l => { l with formReason := some reason.toNat, sending := decide (reason = 0) }
    else n

/-- A forming ends without fusion: TANDEM_FORM ends with its reason, and tick packets stop (R475, R476). -/
def Node.formFails (reason : Nat) (n : Node) : Node :=
  (n.endOpt n.lane.formOp (formStatus reason) [wN reason]).modLane Lane.unformed

/-- FORM_ANSWER_DEADLINE (R475): no accepting answer by P0 of K_f − 4. -/
def execFormAnswerDeadline (s : State) : Host.Outcome State Fault Refusal :=
  s.upd fun n => n.whenUp fun n =>
    if n.lane.state = .forming ∧ n.lane.isLower ∧ kLe n.lane.kf (n.time.k48 + 4) ∧ n.lane.formReason ≠ some 0 then
      n.formFails (n.lane.formReason.getD 5)
    else n

/-- FUSION_READY (R476): at P0 of K_f − 2 each member judges its own preconditions again. -/
def execFusionReady (s : State) : Host.Outcome State Fault Refusal :=
  s.upd fun n => n.whenUp fun n =>
    let l := n.lane
    if l.state = .forming ∧ l.sending ∧ wrapK (n.time.k48 + 2) = l.kf then
      let pos := if l.isLower then l.dnLink && l.partnerPos == n.lockPos + 1 else l.upLink && n.lockPos == l.partnerPos + 1
      let r := n.formReasonOf (l.requester.getD .ctxL) pos (l.isLower || n.poolFree)
      n.modLane fun l => { l with sentReady := decide (r = 0), formReason := some r }
    else n

/-- Renumbers the leaders of the groups of a member that becomes the upper one (R477). -/
def Slot.raise (s : Slot) : Slot := { s with leader := s.leader.map fun l => l % 4 + 4 }

/-- The node fuses (R476): it enters TANDEM, and every loop-enabled channel starts as R38 sets; F.PARTNER_LOST ceases with S40
bit 6. -/
def Node.fuse (n : Node) : Node :=
  let n := n.modCore fun k => { k with mode := .tandem, slots := if n.lane.isLower then k.slots else k.slots.map Slot.raise }
  let n := n.modLane fun l =>
    { l with
      state := if l.isLower then .lower else .upper, survivor := false, kMark := n.time.k48, formOp := none, splitOp := none
      splitting := false, leavingAt := none, stopReq := 0, remoteHops := [], lossInjected := false }
  let n := eachCh (fun c m => m.cease .partnerLost c.val) n
  (eachOf n.enabledChs Node.startSlot n).disarmAtDrive

/-- TANDEM_FUSION (R476): at P0 of K_f a member fuses when both ready bits were set; else the lower member's command ends with
the reason found, 5 where only the partner's bit is wanting. -/
def execTandemFusion (s : State) : Host.Outcome State Fault Refusal :=
  s.upd fun n => n.whenUp fun n =>
    let l := n.lane
    if l.state = .forming ∧ l.sending ∧ kLe l.kf n.time.k48 then
      if l.sentReady && l.gotReady && n.time.k48 == l.kf then n.fuse.endOpt l.formOp .done []
      else n.formFails (if l.sentReady then 5 else match l.formReason with
        | some 0 => 5
        | some r => r
        | none => 5)
    else n

/-! ### Tick packets and bulk frames -/

/-- Frames that the partner has acknowledged leave the list (R471). -/
def Lane.acked (ack : Nat) (l : Lane) : Lane :=
  { l with out := l.out.filter fun o => !(o.port == l.partnerPort && decide ((ack + 256 - o.seq.toNat) % 256 < 128)) }

/-- The channels on which an injection of F.PARTNER_LOST discards tick packets (R490). -/
def Node.lossPitched (n : Node) : Bool := ([0, 1, 2, 3] : List Ch).any fun c => n.injecting .partnerLost c.val

/-- TICK_PACKET (R472, R473): received for the tick in progress when its check passes, its byte 1 is that of the own K48, and,
in TANDEM, it shows TANDEM; any other is missing, and P0 counts it. -/
def execTickPacket (bytes : List Byte) (s : State) : Host.Outcome State Fault Refusal :=
  s.upd fun n => n.whenUp fun n =>
    let l := n.lane
    if !(l.sending || n.core.mode == .tandem || l.lossDue.isSome) || !n.laneLink l.partnerPort then n
    else if n.lossPitched then
      (eachCh (fun c m => m.useInjection .partnerLost c.val 1) n).modLane fun l => { l with lossInjected := true }
    else if !tickPacketOk bytes then n.modLane fun l => { l with laneCrc := l.laneCrc + 1 }
    else
      let x := tickPacketOf bytes
      let k := n.time.k48
      if byteAt bytes 1 ≠ k % 256 ∨ (n.core.mode == .tandem ∧ x.mode ≠ 3) then n
      else n.modLane fun l =>
        { (l.acked x.ack) with
          pkt := x, pktTick := some k, lossInjected := false, gotReady := l.gotReady || (x.ready && wrapK (k + 2) == l.kf)
          leavingAt := if l.splitting && !l.isLower && x.leaving then l.leavingAt.or (some k) else l.leavingAt }

/-- RELAY (R479): the upper member takes the command for its tick; one that comes after P0 of it ends TOO_LATE. The lower member's
word that a session has closed acts when it comes (log entry 110). -/
def Node.takeRelay (p : Packet) (k : Nat) (n : Node) : Node :=
  if !n.isUpper then n
  else if opcodeOf p = some .closeSession then n.pairClosed p.client
  else
  let o := n.core.nextOrder
  let op : PoolOp :=
    { slot := n.nextSlot, order := o, client := senderOf p, packet := p, scheduled := false, due := k, phase := .waiting, side := .heldForPair }
  let n := n.modCore fun c => { c with pool := c.pool ++ [op], nextOrder := o + 1, slotUses := bumpUses op.slot c.slotUses }
  if kLe k n.time.k48 then n.endOp op .tooLate [[]] false else n

/-- RELAY. -/
def execRelay (g : LaneHdr) (p : Packet) (k t : Nat) (s : State) : Host.Outcome State Fault Refusal :=
  s.upd fun n => n.whenUp fun n => (n.atT t).laneTake g (Node.takeRelay p k)

/-- The status of a code (R87). -/
def statusOf (c : Nat) : Status :=
  (([.done, .accepted, .busy, .queueFull, .tagInUse, .badOpcode, .badLength, .badParam, .outOfRange, .notPermitted, .authFail,
    .wrongMode, .notOwner, .tooLate, .targetPassed, .refusedUnsafe, .calUnstable, .overBudget, .coreReset, .updating, .partnerLost,
    .channelUnavailable, .caskLocked, .fused, .aborted, .dropped] : List Status).find? fun s => s.code == c).getD .internalError

/-- The hop entries of the upper member as the lower member's pool records them (R477), after a relayed command that passed:
HOP_ADD adds its entries, HOP_REMOVE takes those it names. -/
def remoteAfter (op : PoolOp) (words : List Word) (hs : List (Nat × Client × Ch × Nat)) : List (Nat × Client × Ch × Nat) :=
  let p := op.packet
  let hit := fun (c : Ch) => p.mask.getLsbD (c.val + 4)
  match opcodeOf p with
  | some .hopAdd =>
    let c : Ch := Fin.ofNat 4 (((List.range 4).find? fun i => p.mask.getLsbD (i + 4)).getD 0)
    hs ++ ((words.zip (hopWords p.words)).map fun e => (fld e.1 23 0, op.client, c, fld e.2.2.2.1 37 35))
  | some .hopRemove =>
    match fld (pw p 0) 1 0 with
    | 1 => hs.filter fun h => !hit h.2.2.1
    | 2 => hs.filter fun h => !(hit h.2.2.1 && h.2.2.2 == fld (pw p 0) 4 2)
    | _ => hs
  | _ => hs

/-- A relayed command's outcome (R477, R479, R480, R487). -/
def Node.takeResult (x : RelayResult) (n : Node) : Node :=
  let cl := clientOf x.fromHost x.client
  let st := statusOf x.status.toNat
  match n.core.pool.find? fun o => o.client == cl && o.packet.tag == x.tag && (o.side == .sent || o.side == .both) with
  | none => n
  | some op =>
    match op.side, op.part with
    | .both, none =>
      n.modCore fun k =>
        let pool : List PoolOp := k.pool.map fun o => if o.order == op.order then { o with part := some (true, st, x.words) } else o
        { k with pool := pool }
    | .both, some (_, s, ws) => (n.dropOp op.order).finish op.packet (pairStatus op.packet.mask s st) (inPackets ws) false n.tick16
    | _, _ =>
      let n := (n.dropOp op.order).finish op.packet st (inPackets x.words) x.green x.tick.toNat
      if st = .done then
        let n := n.modLane fun l => { l with remoteHops := remoteAfter op x.words l.remoteHops }
        if opcodeOf op.packet = some .cascadeSet then n.installFollowers (leaderOf op.packet) (followersOf op.packet) else n
      else n

/-- RESULT. -/
def execResult (g : LaneHdr) (x : RelayResult) (t : Nat) (s : State) : Host.Outcome State Fault Refusal :=
  s.upd fun n => n.whenUp fun n => (n.atT t).laneTake g fun n => if n.isLower then n.takeResult x else n

/-- The time mark of an LT_HI word (R144). -/
def markOf (hi : Word) : TimeMark :=
  match fld hi 25 24 with
  | 0 => .lineTime
  | 1 => .localTime
  | _ => .localEpoch

/-- An event of the upper member (R482): queued with scope 0x04 to 0x07; a hop entry that has ended leaves the record. -/
def Node.takeEvent (x : LaneEvent) (n : Node) : Node :=
  match EventCode.ofCode x.code.toNat with
  | none => n
  | some ev =>
    let st : Stamp := { lt := ltOf x.ltHi x.ltLo, mark := markOf x.ltHi, e := n.now }
    let n := eachOf (n.clients.filter fun r => r.subs.contains ev) (fun r m => m.eventTo ev (x.channel.val + 4) st x.words r) n
    if ev = .hopEnd then
      n.modLane fun l => { l with remoteHops := l.remoteHops.filter fun h => h.1 != fld (x.words.headD 0) 23 0 }
    else n

/-- EVENT. -/
def execEvent (g : LaneHdr) (x : LaneEvent) (t : Nat) (s : State) : Host.Outcome State Fault Refusal :=
  s.upd fun n => n.whenUp fun n => (n.atT t).laneTake g fun n => if n.isLower then n.takeEvent x else n

/-- RECORD (R484): the upper member's part, with its layout. -/
def execRecord (g : LaneHdr) (x : LaneRecord) (t : Nat) (s : State) : Host.Outcome State Fault Refusal :=
  s.upd fun n => n.whenUp fun n => (n.atT t).laneTake g fun n =>
    if n.isLower then
      n.modLane fun l => { l with record := some x, pairRecLen := x.len.toNat, pairRecCh := x.ch.toNat, pairRecVel := x.vel.toNat }
    else n

/-! ### Partner loss -/

/-- A follower whose leader was lost becomes a VELOCITY slot with v_s at its last v_ref, which it holds (R491). -/
def Node.widowSlot (c : Ch) (n : Node) : Node :=
  let s := n.core.slots.get c
  match s.leader with
  | some l =>
    if (n.ownCh l).isSome || !n.slotRunning c then n else
    let v := fxMul (g40ToFx (wI s.ratio)) (auToFx n.lane.pkt.vc)
    let u := (n.lastKil c).u
    n.modSlot c fun s => { s with sp := { p := auToFx u, v := v, a := 0 }, segs := [], planEnd := .velocity v }
  | none => n

/-- F.PARTNER_LOST on each own channel (R490): class 2 where its group spans both members. -/
def Node.tripLost (mask : Nat) (n : Node) : Node :=
  let inj := n.lane.lossInjected
  eachCh (fun c m => m.trip .partnerLost (if mask.testBit c.val then 2 else 1) c.val 0 inj) n

/-- Whether a channel of the survivor goes on alone (R491): TAN.WIDOW SOLO on a running slot. -/
def Node.solo (n : Node) (c : Ch) : Bool := n.parN Pid.tanWidow c.val == 2 && n.slotRunning c

/-- The fusion ends by the partner's silence (R490 to R495): a survivor in DRIVE, which returns to TRACK at rest unless a channel
is SOLO. -/
def Node.partnerLost (n : Node) : Node :=
  let mask := n.spanning
  let n := n.endOpt n.lane.splitOp .partnerLost []
  let n := n.endPairOps
  let n := (eachCh Node.widowSlot n).dissolveSpanning
  let n := n.modCore fun k => { k with mode := .drive }
  let n := n.modLane fun l =>
    { l with
      state := .survivor, survivor := true, sending := false, kMark := n.time.k48, splitOp := none, splitting := false
      leavingAt := none, stopReq := 0, missRun := 0 }
  let n := n.tripLost mask
  if ([0, 1, 2, 3] : List Ch).any n.solo then n
  else n.modCore fun k => { k with rests := k.rests ++ [{ op := none, kind := .survivor, chs := n.enabledChs }] }

/-- PARTNER_LOSS (R42, R490, R496): at the P0 that finds the second packet missing. A member that CASK entry took out of the pair
only logs it. -/
def execPartnerLoss (s : State) : Host.Outcome State Fault Refusal :=
  s.upd fun n => n.whenUp fun n =>
    if n.lane.missRun < 2 then n else
    match n.lane.lossDue with
    | some mask =>
      let n := (n.modLane fun l => { l with lossDue := none, kMark := n.time.k48, missRun := 0 }).tripLost mask
      eachCh (fun c m => m.cease .partnerLost c.val) n
    | none => if n.core.mode == .tandem then n.partnerLost else n

/-! ### Splitting -/

/-- Both members run a STOP on every running slot (R495). -/
def Node.splitStops (n : Node) : Node :=
  (eachCh (fun c m => if m.slotRunning c then m.stopBy c else m) n).modLane fun l => { l with state := .splitting, splitting := true }

/-- TANDEM_SPLIT (R495): a second one while a split runs is BUSY (log entry 39). -/
def cmdTandemSplit (op : PoolOp) (n : Node) : Ans × Node :=
  if n.lane.splitting then (.fail .busy, n) else
  let n := n.laneSend n.lane.partnerPort .split
  (.wait, n.splitStops.modLane fun l => { l with splitOp := some op.order })

/-- TANDEM_SPLIT. -/
def execTandemSplit (p : Packet) (s : State) : Host.Outcome State Fault Refusal :=
  s.upd (Node.packetRow cmdTandemSplit (asRow .tandemSplit p))

/-- SPLIT. -/
def execSplit (g : LaneHdr) (t : Nat) (s : State) : Host.Outcome State Fault Refusal :=
  s.upd fun n => n.whenUp fun n => (n.atT t).laneTake g fun n => if n.isUpper then n.splitStops else n

/-- The lower member's wait for rest on both sides (R495): at P0 of the first tick t at which its own slots, and the packet of
t − 1, show at rest, the packet of t is to carry the leaving bit. -/
def Node.judgeLeaving (n : Node) : Node :=
  if n.isLower && n.lane.splitting && n.lane.leavingAt.isNone && n.lane.havePkt && n.lane.pkt.atRest &&
      ([0, 1, 2, 3] : List Ch).all n.ownRest then
    n.modLane fun l => { l with leavingAt := some n.time.k48 }
  else n

/-- SPLIT_COMPLETE (R495): three ticks after the leaving bit both members are in TRACK. -/
def execSplitComplete (s : State) : Host.Outcome State Fault Refusal :=
  s.upd fun n => n.whenUp fun n =>
    match n.lane.leavingAt with
    | none => n
    | some t =>
      if n.core.mode == .tandem && kLe (t + 3) n.time.k48 then
        let op := n.lane.splitOp
        let n := n.endPairOps.dissolveSpanning.loopsOff
        let n := n.modCore fun k => { k with mode := .track }
        let n := n.modLane fun l =>
          { l with state := .single, sending := false, splitOp := none, splitting := false, leavingAt := none, stopReq := 0, missRun := 0 }
        n.endOpt op .done []
      else n

/-- TANDEM_STATUS (R498). -/
def cmdTandemStatus (_ : PoolOp) (n : Node) : Ans × Node :=
  let l := n.lane
  let partner := if l.state = .single then 0 else l.partnerPos
  (.ok [wN (l.state.code + n.lockPos % 1024 * 2 ^ 3 + partner % 1024 * 2 ^ 13 + flag (n.laneLink l.partnerPort) 23 + l.pkt.mode * 2 ^ 24),
        wN l.kMark, wN l.laneMiss, wN l.laneCrc, wN l.termMisses], n)

/-- TANDEM_STATUS. -/
def execTandemStatus (p : Packet) (s : State) : Host.Outcome State Fault Refusal :=
  s.upd (Node.packetRow cmdTandemStatus (asRow .tandemStatus p))

end Sys2Proof.Machine
end

