-- ==== Sys2Proof/Machine/WaveRows.lean ====
section
/-!
DEFINITION. Wave memory and playback: WAVE_LOAD, WAVE_PLAY, WAVE_STOP, the samples of a run, its start at a hop
confirmation and its end (07_green_and_kilned.md R236; 10_analog_outputs.md R345 to R358).
-/
namespace Sys2Proof.Machine

/-! ### WAVE_LOAD -/

/-- Whether two sample regions meet. -/
def regionsMeet (a la b lb : Nat) : Bool := decide (a < b + lb) && decide (b < a + la)

/-- Whether a region meets a table other than `t` (R345). -/
def Waves.meetsOther (w : Waves) (t base len : Nat) : Bool :=
  (List.range 16).any fun i =>
    let x := w.table i
    i != t && x.state != .free && regionsMeet base len x.base x.len

/-- Fills a region with zero codes: nothing is listed there (R347). -/
def WaveMem.zero (m : WaveMem) (base len : Nat) : WaveMem := m.filter fun e => decide (e.1 < base) || decide (base + len ≤ e.1)

/-- Writes samples from a place on. -/
def WaveMem.putAll (m : WaveMem) : Nat → List (BitVec 18) → WaveMem
  | _, [] => m
  | a, v :: vs => (m.put a v).putAll (a + 1) vs

/-- The samples of DATA words (R346). -/
def samplesOf (ws : List Word) : List (BitVec 18) := ws.flatMap fun w => [BitVec.ofNat 18 (fld w 17 0), BitVec.ofNat 18 (fld w 35 18)]

/-- The samples of a table. -/
def Waves.samples (w : Waves) (t : Nat) : List (BitVec 18) :=
  let x := w.table t
  (List.range x.len).map fun i => w.mem.get (x.base + i)

/-- CRC-32C over samples of three bytes each (R347). -/
def waveCrc (xs : List (BitVec 18)) : Nat := crc32c (xs.flatMap fun v => bytesBE 3 v.toNat)

/-- The persisted copy of a table is deleted (R347). -/
def Node.unpersist (t : Nat) (n : Node) : Node :=
  let waits := n.store.writes.any fun w => match w.kind with
    | .wave x => x.table == t
    | _ => false
  if n.persisted t || waits then n.storeWrite (.waveDelete t) none [] else n

/-- DEFINE (R347, R348). -/
def waveDefine (t base len : Nat) (persist : Bool) (n : Node) : Ans × Node :=
  let x : WaveTable := { state := .filling, base := base, len := len, persist := persist }
  (.ok [], (n.unpersist t).modWaves fun w => { w with mem := w.mem.zero base len, tables := (w.setTable t x).tables })

/-- SEAL (R347, R349): a persistent table ends when the store holds it. -/
def waveSeal (op : PoolOp) (t : Nat) (n : Node) : Ans × Node :=
  let x := n.core.waves.table t
  let samples := n.core.waves.samples t
  let crc := wN (waveCrc samples)
  let n := n.modWaves (Waves.setTable t { x with state := .loaded })
  if x.persist then
    let saved : SavedTable := { table := t, base := x.base, samples := samples }
    (.wait, n.storeWrite (.wave saved) (some op.order) [crc])
  else (.ok [crc], n)

/-- WAVE_LOAD (R346 to R349). -/
def cmdWaveLoad (op : PoolOp) (n : Node) : Ans × Node :=
  let p := op.packet
  let w := pw p 0
  let t := fld w 3 0
  let at_ := fld w 21 8
  let count := fld w 36 22
  let x := n.core.waves.table t
  let kind := fld w 5 4
  let far := (kind == 0 && (decide (16384 < at_ + count) || n.core.waves.meetsOther t at_ count)) ||
    (kind == 1 && x.state != .free && decide (x.len < at_ + count))
  if far then (.fail .outOfRange, n)
  else if (kind == 1 || kind == 2) && x.state != .filling then (.fail .refusedUnsafe, n)
  else if n.core.waves.plays.any (fun q => q.table == t) then (.fail .busy, n)
  else match kind with
    | 0 => waveDefine t at_ count (bitOf w 6) n
    | 1 => (.ok [], n.modWaves fun v => { v with mem := v.mem.putAll (x.base + at_) ((samplesOf (p.words.drop 1)).take count) })
    | 2 => waveSeal op t n
    | _ => (.ok [], (n.unpersist t).modWaves (Waves.setTable t {}))

/-! ### WAVE_PLAY and WAVE_STOP -/

/-- The trigger of a WAVE_PLAY (R350). -/
def triggerOf (w : Word) : WaveTrigger :=
  match fld w 23 22 with
  | 0 => .command
  | 1 => .hop
  | _ => .latch (Fin.ofNat 4 (fld w 25 24)) (bitOf w 26) (bitOf w 27)

/-- The passes of a run (R350, R355). -/
def passesOf (w : Word) : Option Nat :=
  match fld w 5 4 with
  | 0 => some 1
  | 1 => none
  | _ => some (fld w 21 6)

/-- The playback a WAVE_PLAY asks for (R350, R353). -/
def playOf (op : PoolOp) (outs : List Ch) (start : Nat) : Playback :=
  let w := pw op.packet 0
  { op := op.order, slot := op.slot, tag := op.packet.tag, table := fld w 3 0, outs := outs, trigger := triggerOf w
    timing := if bitOf w 29 then .schedule (pw op.packet 1).toNat else .tick (fld (pw op.packet 1) 16 0)
    passes := passesOf w, rearm := bitOf w 28, start := start }

/-- WAVE_PLAY (R350 to R354): a COMMAND run under TICK timing starts at P0 of the commit tick. -/
def cmdWavePlay (op : PoolOp) (n : Node) : Ans × Node :=
  let p := op.packet
  let w := pw p 0
  let outs := n.chans p
  let lt := ltOf (pw p 2) (pw p 3)
  let sched := bitOf w 29
  let rearm := bitOf w 28
  let command := fld w 23 22 == 0
  if (sched && !command) || (rearm && (fld w 5 4 == 1 || command)) || outs.isEmpty then (.fail .badParam, n)
  else if (n.core.waves.table (fld w 3 0)).state != .loaded || outs.any (fun c => n.src c != 1) then (.fail .refusedUnsafe, n)
  else if outs.any (fun c => (n.playOn c).isSome) then (.fail .busy, n)
  else if sched && ltLe lt n.time.lt then (.fail .tooLate, n)
  else
    let q := playOf op outs (n.time.p0e + ltSub lt n.time.lt)
    let n := n.modWaves fun v => { v with plays := v.plays ++ [q] }
    if command && !sched then (.wait, (n.waveStart q).modPlay q.op fun q => { q with start := n.time.p0e }) else (.wait, n)

/-- WAVE_STOP (R357). -/
def cmdWaveStop (op : PoolOp) (n : Node) : Ans × Node :=
  let outs := n.chans op.packet
  let mine := n.core.waves.plays.filter fun q => q.outs.any fun c => outs.contains c
  (.ok [wN mine.length], eachOf mine (fun q m => m.endPlay q .aborted 2) n)

/-! ### Runs -/

/-- The playback of a pool slot. -/
def Node.playOf (n : Node) (slot : Nat) : Option Playback := n.core.waves.plays.find? fun q => q.slot == slot

/-- The samples of a whole run; none for LOOP (R355). -/
def Node.runLength (n : Node) (q : Playback) : Option Nat := q.passes.map fun k => k * (n.core.waves.table q.table).len

/-- Whether a run has a sample left. -/
def Node.sampleLeft (n : Node) (q : Playback) : Bool := (n.runLength q).elim true fun l => decide (q.next < l)

/-- A code loads into an output at a SCHEDULE instant (R353): a clear or a park keeps it in the input register. -/
def Node.loadNow (c : Ch) (code : BitVec 18) (n : Node) : Node :=
  let n := n.modOut c (writeInput code)
  if n.mayLoad c then n.modOut c fun o => { o with code := code, clearShown := false, atClear := false } else n

/-- The next sample of a SCHEDULE playback (R353). -/
def Node.loadSample (q : Playback) (n : Node) : Node :=
  match q.timing with
  | .tick _ => n
  | .schedule interval =>
    if n.now < q.start + q.next * interval || !n.sampleLeft q then n else
    let code := n.core.waves.sample q q.next
    let loads := q.outs.any n.mayLoad
    (eachOf q.outs (fun c m => m.loadNow c code) n).modPlay q.op fun x =>
      { x with running := true, next := q.next + 1, lastLoad := if loads then n.stamp else x.lastLoad }

/-- The next sample of a TICK playback enters the input registers (R354). -/
def Node.enterSample (q : Playback) (n : Node) : Node :=
  match q.timing with
  | .schedule _ => n
  | .tick d =>
    if !q.running || !kLe (q.k0 + q.next * d) n.time.k48 || !n.sampleLeft q then n else
    (n.waveEnter q q.next).modPlay q.op fun x => { x with next := q.next + 1, unloaded := q.outs }

/-- The end of a run (R355, R358): a rearmed playback waits again, any other ends DONE. -/
def Node.endRun (q : Playback) (n : Node) : Node :=
  if !q.running || !q.unloaded.isEmpty || n.sampleLeft q then n
  else if q.rearm then (n.waveEnd q 0).modPlay q.op fun x => { x with running := false, next := 0, ignored := 0 }
  else n.endPlay q .done 1

/-- A HOP run starts at a strobe of its group after the confirmation (R236). -/
def Node.hopStart (q : Playback) (n : Node) : Node := if q.startDue && !q.running then n.waveStart q else n

/-! ### Rows -/

/-- WAVE_LOAD, DEFINE. -/
def execWaveLoadDefine (p : Packet) (s : State) : Host.Outcome State Fault Refusal :=
  s.upd (Node.packetRow cmdWaveLoad (withBits 4 2 0 (asRow .waveLoad p)))

/-- WAVE_LOAD, DATA. -/
def execWaveLoadData (p : Packet) (s : State) : Host.Outcome State Fault Refusal :=
  s.upd (Node.packetRow cmdWaveLoad (withBits 4 2 1 (asRow .waveLoad p)))

/-- WAVE_LOAD, SEAL. -/
def execWaveLoadSeal (p : Packet) (s : State) : Host.Outcome State Fault Refusal :=
  s.upd (Node.packetRow cmdWaveLoad (withBits 4 2 2 (asRow .waveLoad p)))

/-- WAVE_LOAD, DELETE. -/
def execWaveLoadDelete (p : Packet) (s : State) : Host.Outcome State Fault Refusal :=
  s.upd (Node.packetRow cmdWaveLoad (withBits 4 2 3 (asRow .waveLoad p)))

/-- WAVE_PLAY. -/
def execWavePlay (p : Packet) (s : State) : Host.Outcome State Fault Refusal :=
  s.upd (Node.packetRow cmdWavePlay (asRow .wavePlay p))

/-- WAVE_STOP. -/
def execWaveStop (p : Packet) (s : State) : Host.Outcome State Fault Refusal :=
  s.upd (Node.packetRow cmdWaveStop (asRow .waveStop p))

/-- WAVE_SAMPLE_LOAD. -/
def execWaveSampleLoad (slot t : Nat) (s : State) : Host.Outcome State Fault Refusal :=
  s.upd fun n => n.whenUp fun n =>
    let n := n.atT t
    (n.playOf slot).elim n fun q => n.loadSample q

/-- WAVE_SAMPLE_ENTRY. -/
def execWaveSampleEntry (slot : Nat) (s : State) : Host.Outcome State Fault Refusal :=
  s.upd fun n => n.whenUp fun n => (n.playOf slot).elim n fun q => n.enterSample q

/-- WAVE_HOP_START. -/
def execWaveHopStart (slot t : Nat) (s : State) : Host.Outcome State Fault Refusal :=
  s.upd fun n => n.whenUp fun n =>
    let n := n.atT t
    (n.playOf slot).elim n fun q => n.hopStart q

/-- WAVE_RUN_END. -/
def execWaveRunEnd (slot t : Nat) (s : State) : Host.Outcome State Fault Refusal :=
  s.upd fun n => n.whenUp fun n =>
    let n := n.atT t
    (n.playOf slot).elim n fun q => n.endRun q

end Sys2Proof.Machine
end

