-- ==== Sys2Proof/Machine/Commit.lean ====
section
/-!
DEFINITION. The commit of the commands whose tick has come (02_commands_and_clients.md R72 to R76; 07_green_and_kilned.md
R251, R252; 17_opcode_reference.md R565 to R571).
-/
namespace Sys2Proof.Machine

/-- The effect of a committed command by its opcode. -/
def cmdOf (oc : Opcode) (op : PoolOp) (n : Node) : Ans × Node :=
  match oc with
  | .ping => cmdPing op n
  | .openSession => cmdOpenSession op n
  | .closeSession => cmdCloseSession op n
  | .subscribe => cmdSubscribe op n
  | .replay => cmdReplay op n
  | .describe => cmdDescribe op n
  | .keySet => cmdKeySet op n
  | .setMode => cmdSetMode op n
  | .steepRun => cmdSteepRun op n
  | .status => cmdStatus op n
  | .clearFaults => cmdClearFaults op n
  | .tickRealign => cmdTickRealign op n
  | .paramRead => cmdParamRead op n
  | .paramWrite => cmdParamWrite op n
  | .paramSave => cmdParamSave op n
  | .paramRestore => cmdParamRestore op n
  | .paramDefaults => cmdParamDefaults op n
  | .readPosition => cmdReadPosition op n
  | .setPosition => cmdSetPosition op n
  | .calibrateAngle => cmdCalibrateAngle op n
  | .extrapolate => cmdExtrapolate op n
  | .historyRead => cmdHistoryRead op n
  | .moveTo => cmdMoveTo op n
  | .moveBy => cmdMoveBy op n
  | .jog => cmdJog op n
  | .stop => cmdStop op n
  | .park => cmdPark op n
  | .setLimits => cmdSetLimits op n
  | .gainSet => cmdGainSet op n
  | .loopEnable => cmdLoopEnable op n
  | .cascadeSet => cmdCascadeSet op n
  | .latchArm => cmdLatchArm op n
  | .latchRead => cmdLatchRead op n
  | .hopAdd => cmdHopAdd op n
  | .hopRemove => cmdHopRemove op n
  | .hopList => cmdHopList op n
  | .emuSet => cmdEmuSet op n
  | .dacConfig => cmdDacConfig op n
  | .dacWrite => cmdDacWrite op n
  | .dacStrobe => cmdDacStrobe op n
  | .waveLoad => cmdWaveLoad op n
  | .wavePlay => cmdWavePlay op n
  | .waveStop => cmdWaveStop op n
  | .soundConfig => cmdSoundConfig op n
  | .soundRead => cmdSoundRead op n
  | .zeroFlowCal => cmdZeroFlowCal op n
  | .rtdRead => cmdRtdRead op n
  | .fanSet => cmdFanSet op n
  | .fanRead => cmdFanRead op n
  | .rollcall => if fld (pw op.packet 0) 1 0 = 1 then cmdRollcallAssign op n else cmdRollcallSurvey op n
  | .relock => cmdRelock op n
  | .adopt => cmdAdopt op n
  | .fold => cmdFold op n
  | .unfold => cmdUnfold op n
  | .lineStats => cmdLineStats op n
  | .timeRead => cmdTimeRead op n
  | .faultRead => cmdFaultRead op n
  | .faultLog => cmdFaultLog op n
  | .pitchArm => cmdPitchArm op n
  | .pitchDisarm => cmdPitchDisarm op n
  | .refStatus => cmdRefStatus op n
  | .tickStats => cmdTickStats op n
  | .fwBegin => cmdFwBegin op n
  | .fwBlock => cmdFwBlock op n
  | .fwCommit => cmdFwCommit op n
  | .fwActivate => cmdFwActivate op n
  | .storeRead => cmdStoreRead op n
  | .tandemForm => cmdTandemForm op n
  | .tandemSplit => cmdTandemSplit op n
  | .tandemStatus => cmdTandemStatus op n

/-- Whether an operation commits at the tick in progress (R72, R136): once, at its tick or, after a step that passed it, at
the first tick after the step. -/
def PoolOp.commits (o : PoolOp) (k : Nat) : Bool := o.phase == .waiting && o.side != .sent && kLe o.due k

/-- Opcodes that take values of the tracking step of their commit tick (R44, R210, R231, R274, R301): they commit after it. -/
def Opcode.readsStep (oc : Opcode) (p : Packet) : Bool :=
  match oc with
  | .status | .readPosition | .setPosition | .extrapolate | .historyRead | .latchRead | .hopAdd | .hopRemove | .hopList
  | .loopEnable => true
  | .setMode => fld (pw p 0) 1 0 == 2
  | _ => false

/-- Opcodes whose items bear on the step of their commit tick (R197, R240). -/
def Opcode.bearsOnStep : Opcode → Bool
  | .paramWrite | .paramRestore | .paramDefaults => true
  | _ => false

/-- The due operations that commit before the tracking step of the tick: in arrival order, up to the first that reads the step (R75). -/
def beforeStep : List PoolOp → List Nat
  | [] => []
  | o :: os => if (opcodeOf o.packet).any fun oc => oc.readsStep o.packet then [] else o.order :: beforeStep os

/-- Commits the operations with these order numbers, in arrival order (R75): one that an earlier command of the tick has
ended is gone. -/
def Node.commitAll (os : List Nat) (n : Node) : Node :=
  eachOf os (fun o m =>
    match m.opOf o with
    | none => m
    | some op =>
      if op.commits m.time.k48 then
        match opcodeOf op.packet with
        | some oc => m.commitOp (cmdOf oc) op
        | none => m
      else m) n

/-- The operations whose tick is the one in progress. -/
def Node.dueOps (n : Node) : List PoolOp := n.core.pool.filter fun o => o.commits n.time.k48

/-- Commits the commands of the tick that come before its tracking step. -/
def Node.commitEarly (n : Node) : Node := n.commitAll (beforeStep n.dueOps)

/-- Commits the other commands of the tick. -/
def Node.commitDue (n : Node) : Node := n.commitAll (n.dueOps.map PoolOp.order)

end Sys2Proof.Machine
end

