-- ==== Sys2Proof/Machine/TickRows.lean ====
section
/-!
DEFINITION. P0 and P4 of a tick (04_frame_tick_and_time.md R123 to R143): FRAME_TICK and HOUSEKEEPING.
-/
namespace Sys2Proof.Machine

/-! ### The time and the cellar's part of P0 -/

/-- The next P0 (R130, R133): the tick of a realignment or a step has been placed already; any other begins one T_tick
later in the time in force, and a slew has moved that time toward the one it follows. -/
def TimeBase.nextTick (t : TimeBase) : TimeBase :=
  if t.placed then { t with placed := false, dt := 0, outDone := false } else
  let lt := wrapLt (t.lt + t.rate.ns : Nat)
  { t with
    p0e := t.p0e + t.rate.ns, lt := lt, k48 := wrapK (lt / t.rate.ns), dt := 0, outDone := false, stepped := false
    offsetPs := if t.slewing then slewTick t.rate.ns t.offsetPs else t.offsetPs }

/-- SYNCOUT at a P0 (R143): a pulse whose predecessor still lasts is joined to it; one that falls into its low time of 100 ns starts
when that has passed. -/
def Node.syncOut (n : Node) : Node :=
  let div := n.parN Pid.tickSyncoutdiv 0
  let w := n.parN Pid.tickSyncoutw 0
  if div = 0 ∨ n.time.k48 % div ≠ 0 then n else
  let e := n.time.p0e
  let p := n.power
  let p : Power := match p.syncoutHighUntil with
    | some h =>
      if e < h then { p with syncoutHighUntil := some (max h (e + w)), syncoutLowUntil := max h (e + w) + 100 }
      else
        let s := max e p.syncoutLowUntil
        { p with syncoutFrom := s, syncoutHighUntil := some (s + w), syncoutLowUntil := s + w + 100 }
    | none => { p with syncoutFrom := e, syncoutHighUntil := some (e + w), syncoutLowUntil := e + w + 100 }
  { n with power := p }

/-- The first P0 of a line cycle (R14, R45, R418, R438): the record's snapshot is that of the tick that has just ended; a
cycle without a CYC frame is counted, after line time has once been received; the record of the cycle shows the refutations of
the preceding one. -/
def Node.cycleEdge (n : Node) : Node :=
  let c := n.time.lt / n.cycleLen
  if c = n.line.lastCycle then n else
  let none_ := !n.heading && n.time.received && !n.line.cycSeen && !n.line.rollCycle
  let n := n.modLine fun l =>
    { l with
      lastCycle := c, recSnap := if n.up then (if n.core.refutedNow then l.snapNext.map Snap.refuted else l.snapNext) else none
      cycMiss := if none_ then l.cycMiss + 1 else l.cycMiss, noCyc := if none_ then l.noCyc + 1 else l.noCyc
      cycSeen := false, rollCycle := l.rollCycle && n.heading }
  n.modCore fun k => { k with refutedNow := false }

/-! ### The pair at P0 -/

/-- The running channels that the partner's packet asks to stop (R489). -/
def Node.partnerStops (n : Node) : Node :=
  if n.core.mode == .tandem && n.lane.havePkt then
    eachCh (fun c m => if n.lane.pkt.stopReq.testBit c.val && m.slotRunning c then m.stopBy c else m) n
  else n

/-- A bulk frame not acknowledged within 4 ticks is sent again (R471); outside a pair nothing acknowledges it. -/
def Lane.resend (k : Nat) (l : Lane) : Lane :=
  let late := fun (o : LaneOut) => !kLe k (o.tick + 4)
  if l.sending then { l with out := l.out.map fun o => if o.port == l.partnerPort && late o then { o with tick := k } else o }
  else { l with out := l.out.filter fun o => !late o }

/-- The tick packet of the tick before (R473, R490): received, or missing and counted. -/
def Node.pairTick (n : Node) : Node :=
  let l := n.lane
  let have_ := l.pktTick.any fun t => wrapK (t + 1) == n.time.k48
  let counts := l.sending || n.core.mode == .tandem || l.lossDue.isSome
  let n := n.modLane fun l =>
    let l := l.resend n.time.k48
    if !counts then { l with havePkt := false, missRun := 0 }
    else if have_ then { l with havePkt := true, missRun := 0 }
    else { l with havePkt := false, missRun := l.missRun + 1, laneMiss := l.laneMiss + 1 }
  n.partnerStops.judgeLeaving

/-! ### The channels at P0 -/

/-- CLRN and the slots (R360, R361): at the first P0 after the fall a running slot whose output is cleared holds and its
motion command ends; after the rise it restarts. -/
def Node.clrnSlot (c : Ch) (n : Node) : Node :=
  let s := n.core.slots.get c
  let cleared := (n.core.outs.get c).cleared
  if cleared && n.slotRunning c && !s.clrHold then
    (n.modSlot c fun s => { s with clrHold := true }).endMotion c .aborted
  else if s.restartDue && !cleared then
    if n.slotRunning c then n.startSlot c else n.modSlot c fun s => { s with restartDue := false, clrHold := false }
  else n

/-- One evaluation of a detector whose pitch point forces its verdict (R529): `real` says that its own criterion holds, `own`
is its own response (R501). -/
def Node.forcedDetector (f : FaultCode) (scope : Nat) (ctx : Word) (real : Bool) (own : Node → Node) (n : Node) : Node :=
  if n.injecting f scope then
    ((own n).trip f (if f = .fanStopped then 2 else f.dfltClass) scope ctx true).useInjection f scope 1
  else if real then n else n.cease f scope

/-- The detectors of one channel whose evaluation of this tick a pitch point can force (R286, R336, R364). -/
def Node.forcedChannel (c : Ch) (n : Node) : Node :=
  let o := n.core.outs.get c
  let n := n.forcedDetector .dacShort c.val 0 (o.currentLimit && o.shortAt.isNone) (Node.shortOff c)
  let n := n.forcedDetector .dacOpen c.val 0 (o.complianceLost && o.openAt.isNone) id
  let n := n.forcedDetector .supply c.val 0 o.railShort id
  n.forcedDetector .emuRate c.val 0 (n.core.pos.get c).emu.lagSince.isSome id

/-- The node's detectors whose evaluation of this tick a pitch point can force (R393, R395, R423). -/
def Node.forcedNode (n : Node) : Node :=
  let fans := n.core.sound.fans
  let path : Bool := match n.fanPath false with
    | some p => p
    | none => (n.fanPath true).getD false
  let n := n.forcedDetector .fanStopped 0xFF 0 (fans.a.stopped || fans.b.stopped) id
  let n := n.forcedDetector .ductBlocked 0xFF (wN (idx path)) (fans.a.duct || fans.b.duct) id
  n.forcedDetector .lineCycle 0xFF 0 n.line.noCycSent id

/-- A tick begins for the control engine: nothing has been computed in it yet (R295). Where the output instant before it did not run,
phase A has not either: it runs now, before the tick's commands (R296). -/
def Node.beginTick (late : Bool) (n : Node) : Node :=
  let late := late || !n.core.phaseA
  let n := n.modCore fun k =>
    { k with
      sampled := false, lateA := late, phaseB := false
      slots := k.slots.map fun s => { s with computed := false, code := none, saved := none } }
  if late then n.runPhaseA else n

/-- The channels at P0: samples and tracking steps, emulation, and forced verdicts (R14, R123, R529). -/
def Node.stepChannels (x : Quad ChanInput) (n : Node) : Node :=
  let n := eachCh (fun c m => m.channelTick c (x.get c)) n
  let n := (eachCh Node.readyLatches n).emuFollowAll.modCore fun k => { k with sampled := true }
  (eachCh Node.forcedChannel n).forcedNode

/-- The items that the tracking step of the tick works with (R197, R240): those that its commands leave, also where one of them
commits behind a command that reads the step (R75). -/
def Node.stepItems (x : Quad ChanInput) (n : Node) : ParamMem :=
  if n.dueOps.any fun o => (opcodeOf o.packet).any Opcode.bearsOnStep then (n.stepChannels x).commitDue.core.params
  else n.core.params

/-- The tracking step with the items of the tick (R197, R240); they are written only where their commands commit. -/
def Node.stepTick (x : Quad ChanInput) (n : Node) : Node :=
  let own := n.core.params
  let ps := n.stepItems x
  if ps = own then n.stepChannels x else
  let m := (n.modCore fun k => { k with params := ps }).stepChannels x
  m.modCore fun k => { k with params := own.putAll (k.params.filter fun e => ps.get e.1 != e.2) }

/-- P0 of a tick in the core: the pair, the clears, the commands that come before the tracking step, the step, the other commands
of the tick, and the snapshot (R14, R75, R123, R251). -/
def Node.coreTick (x : Quad ChanInput) (late : Bool) (n : Node) : Node :=
  let n := (n.beginTick late).pairTick.mapsDue
  let n := ((eachCh Node.clrnSlot n).commitEarly).stepTick x
  let n := if n.dueOps.isEmpty then n else (eachCh Node.readyLatches n.runDues).commitDue
  (n.modLine fun l => { l with snapNext := some n.runDues.snapshot }).hostFlow

/-- FRAME_TICK (R130): the tick generator is the cellar's, so ticks go on while the core is down (R18). -/
def execFrameTick (x : Quad ChanInput) (s : State) : Host.Outcome State Fault Refusal :=
  s.upd fun n => n.whenCellar fun n =>
    let late := !n.time.outDone
    let n := (n.modTime TimeBase.nextTick).syncOut.cycleEdge
    if n.up then n.coreTick x late else n.hostFlow

/-! ### P4 -/

/-- History of one channel at P4 (R264): the latest kilned value, where it is newer than the last entry. -/
def Node.appendHistory (c : Ch) (n : Node) : Node :=
  let t := (n.core.fronts.get c).trk
  match t.kil with
  | none => n
  | some k =>
    if !t.running || !t.valid || (n.core.pos.get c).hist.head?.any (fun h => decide (k.st.e ≤ h.st.e)) then n
    else n.modPos c fun p => { p with hist := (k :: p.hist).take 4096 }

/-- The log write of P4 (R515, R517): an injected failure writes nothing, raises F.LOG_WRITE and leaves the entries to the next
P4. -/
def Node.logWrite (n : Node) : Node :=
  if n.core.faults.log.isEmpty then n
  else if n.injecting .logWrite 0xFF then
    ((n.trip .logWrite 3 0xFF 0 true).useInjection .logWrite 0xFF 1).modFaults fun f => { f with logFailing := true }
  else (n.writeLog 16).modFaults fun f => { f with logFailing := false }

/-- The upper member's part of the cyclic record, at P4 of the snapshot tick (R484). -/
def Node.sendRecord (n : Node) : Node :=
  let l := n.line
  if !(n.isUpper && n.lane.pairLayout) || (n.time.lt + n.tick) / n.cycleLen == n.time.lt / n.cycleLen then n else
  match l.snapNext with
  | none => n
  | some s =>
    n.laneSend n.lane.partnerPort (.record
      { tick := BitVec.ofNat 48 s.tick, len := BitVec.ofNat 8 l.recLen, ch := BitVec.ofNat 4 l.recCh, vel := BitVec.ofNat 4 l.recVel
        positions := s.pos, velocities := s.vel })

/-- HOUSEKEEPING (R126): DAC.MEAS of each output in M40, history, log, and the record of a pair. -/
def execHousekeeping (meas : Quad Int) (s : State) : Host.Outcome State Fault Refusal :=
  s.upd fun n => n.whenUp fun n =>
    let n := n.atT n.time.outat
    let n := eachCh (fun c m => m.modOut c fun o => { o with meas := satI (meas.get c) }) n
    let n := eachCh (fun c m => if m.time.k48 % m.parN Pid.histDiv c.val = 0 then m.appendHistory c else m) n
    n.logWrite.sendRecord

end Sys2Proof.Machine
end

