-- ==== Sys2Proof/Machine/Dispatch.lean ====
section
/-! DEFINITION. The dispatch: one arm per command, one call of its meaning. -/
namespace Sys2Proof.Machine

/-- The effect of a command on everything but the queue. -/
def exec (i : Instr) (s : State) : Host.Outcome State Fault Refusal :=
  match i with
  | .ping p => Sys2Proof.Machine.execPing p s
  | .openSession p => Sys2Proof.Machine.execOpenSession p s
  | .closeSession p => Sys2Proof.Machine.execCloseSession p s
  | .subscribeSet p => Sys2Proof.Machine.execSubscribeSet p s
  | .subscribeAdd p => Sys2Proof.Machine.execSubscribeAdd p s
  | .subscribeRemove p => Sys2Proof.Machine.execSubscribeRemove p s
  | .subscribeAll p => Sys2Proof.Machine.execSubscribeAll p s
  | .replay p => Sys2Proof.Machine.execReplay p s
  | .replayList p => Sys2Proof.Machine.execReplayList p s
  | .describe p => Sys2Proof.Machine.execDescribe p s
  | .keySet p => Sys2Proof.Machine.execKeySet p s
  | .keySetErase p => Sys2Proof.Machine.execKeySetErase p s
  | .setModeCask p => Sys2Proof.Machine.execSetModeCask p s
  | .setModeTrack p => Sys2Proof.Machine.execSetModeTrack p s
  | .setModeDrive p => Sys2Proof.Machine.execSetModeDrive p s
  | .steepRun p => Sys2Proof.Machine.execSteepRun p s
  | .status p => Sys2Proof.Machine.execStatus p s
  | .clearFaults p => Sys2Proof.Machine.execClearFaults p s
  | .tickRealign p => Sys2Proof.Machine.execTickRealign p s
  | .paramRead p => Sys2Proof.Machine.execParamRead p s
  | .paramWrite p => Sys2Proof.Machine.execParamWrite p s
  | .tickRateWrite p v => Sys2Proof.Machine.execTickRateWrite p v s
  | .tickOutatWrite p v => Sys2Proof.Machine.execTickOutatWrite p v s
  | .nodeCaskexcWrite p v => Sys2Proof.Machine.execNodeCaskexcWrite p v s
  | .caskItemWriteExcited p item ch v => Sys2Proof.Machine.execCaskItemWriteExcited p item ch v s
  | .posOffsetWrite p ch v => Sys2Proof.Machine.execPosOffsetWrite p ch v s
  | .dacSrcWrite p ch v => Sys2Proof.Machine.execDacSrcWrite p ch v s
  | .dacClrenWrite p ch v => Sys2Proof.Machine.execDacClrenWrite p ch v s
  | .dacClrcodeWrite p ch v => Sys2Proof.Machine.execDacClrcodeWrite p ch v s
  | .dacRangeWrite p ch v => Sys2Proof.Machine.execDacRangeWrite p ch v s
  | .refTselWrite p v => Sys2Proof.Machine.execRefTselWrite p v s
  | .lineCycleWrite p v => Sys2Proof.Machine.execLineCycleWrite p v s
  | .lineRecordWrite p item v => Sys2Proof.Machine.execLineRecordWrite p item v s
  | .paramSave p => Sys2Proof.Machine.execParamSave p s
  | .paramRestore p => Sys2Proof.Machine.execParamRestore p s
  | .paramDefaults p => Sys2Proof.Machine.execParamDefaults p s
  | .readPosition p => Sys2Proof.Machine.execReadPosition p s
  | .setPosition p => Sys2Proof.Machine.execSetPosition p s
  | .calibrateAngleLearn p => Sys2Proof.Machine.execCalibrateAngleLearn p s
  | .calibrateAngleWrite p => Sys2Proof.Machine.execCalibrateAngleWrite p s
  | .calibrateAngleRead p => Sys2Proof.Machine.execCalibrateAngleRead p s
  | .calibrateAngleClear p => Sys2Proof.Machine.execCalibrateAngleClear p s
  | .extrapolatePosAt p => Sys2Proof.Machine.execExtrapolatePosAt p s
  | .extrapolatePredict p => Sys2Proof.Machine.execExtrapolatePredict p s
  | .extrapolateTimeAt p => Sys2Proof.Machine.execExtrapolateTimeAt p s
  | .historyRead p => Sys2Proof.Machine.execHistoryRead p s
  | .moveTo p => Sys2Proof.Machine.execMoveTo p s
  | .moveBy p => Sys2Proof.Machine.execMoveBy p s
  | .jog p => Sys2Proof.Machine.execJog p s
  | .stop p => Sys2Proof.Machine.execStop p s
  | .park p => Sys2Proof.Machine.execPark p s
  | .setLimits p => Sys2Proof.Machine.execSetLimits p s
  | .gainSet p => Sys2Proof.Machine.execGainSet p s
  | .loopEnable p => Sys2Proof.Machine.execLoopEnable p s
  | .loopDisable p => Sys2Proof.Machine.execLoopDisable p s
  | .cascadeSet p => Sys2Proof.Machine.execCascadeSet p s
  | .latchArm p => Sys2Proof.Machine.execLatchArm p s
  | .latchArmOff p => Sys2Proof.Machine.execLatchArmOff p s
  | .latchRead p => Sys2Proof.Machine.execLatchRead p s
  | .hopAdd p => Sys2Proof.Machine.execHopAdd p s
  | .hopRemoveByHandle p => Sys2Proof.Machine.execHopRemoveByHandle p s
  | .hopRemoveByChannel p => Sys2Proof.Machine.execHopRemoveByChannel p s
  | .hopRemoveByOutput p => Sys2Proof.Machine.execHopRemoveByOutput p s
  | .hopList p => Sys2Proof.Machine.execHopList p s
  | .emuSet p => Sys2Proof.Machine.execEmuSet p s
  | .dacConfig p => Sys2Proof.Machine.execDacConfig p s
  | .dacWrite p => Sys2Proof.Machine.execDacWrite p s
  | .dacStrobe p => Sys2Proof.Machine.execDacStrobe p s
  | .waveLoadDefine p => Sys2Proof.Machine.execWaveLoadDefine p s
  | .waveLoadData p => Sys2Proof.Machine.execWaveLoadData p s
  | .waveLoadSeal p => Sys2Proof.Machine.execWaveLoadSeal p s
  | .waveLoadDelete p => Sys2Proof.Machine.execWaveLoadDelete p s
  | .wavePlay p => Sys2Proof.Machine.execWavePlay p s
  | .waveStop p => Sys2Proof.Machine.execWaveStop p s
  | .soundConfig p => Sys2Proof.Machine.execSoundConfig p s
  | .soundRead p => Sys2Proof.Machine.execSoundRead p s
  | .zeroFlowCal p => Sys2Proof.Machine.execZeroFlowCal p s
  | .rtdRead p => Sys2Proof.Machine.execRtdRead p s
  | .fanSet p => Sys2Proof.Machine.execFanSet p s
  | .fanRead p => Sys2Proof.Machine.execFanRead p s
  | .rollcallSurvey p => Sys2Proof.Machine.execRollcallSurvey p s
  | .rollcallAssign p => Sys2Proof.Machine.execRollcallAssign p s
  | .relock p => Sys2Proof.Machine.execRelock p s
  | .adopt p => Sys2Proof.Machine.execAdopt p s
  | .fold p => Sys2Proof.Machine.execFold p s
  | .unfold p => Sys2Proof.Machine.execUnfold p s
  | .lineStats p => Sys2Proof.Machine.execLineStats p s
  | .timeRead p => Sys2Proof.Machine.execTimeRead p s
  | .faultRead p => Sys2Proof.Machine.execFaultRead p s
  | .faultLog p => Sys2Proof.Machine.execFaultLog p s
  | .pitchArm p => Sys2Proof.Machine.execPitchArm p s
  | .pitchDisarm p => Sys2Proof.Machine.execPitchDisarm p s
  | .refStatus p => Sys2Proof.Machine.execRefStatus p s
  | .tickStats p => Sys2Proof.Machine.execTickStats p s
  | .fwBegin p => Sys2Proof.Machine.execFwBegin p s
  | .fwBlock p => Sys2Proof.Machine.execFwBlock p s
  | .fwCommit p => Sys2Proof.Machine.execFwCommit p s
  | .fwActivate p => Sys2Proof.Machine.execFwActivate p s
  | .storeRead p => Sys2Proof.Machine.execStoreRead p s
  | .tandemForm p => Sys2Proof.Machine.execTandemForm p s
  | .tandemSplit p => Sys2Proof.Machine.execTandemSplit p s
  | .tandemStatus p => Sys2Proof.Machine.execTandemStatus p s
  | .packetWrite w t => Sys2Proof.Machine.execPacketWrite w t s
  | .lineWrite w t => Sys2Proof.Machine.execLineWrite w t s
  | .mntWrite w t => Sys2Proof.Machine.execMntWrite w t s
  | .slotsWrite w t => Sys2Proof.Machine.execSlotsWrite w t s
  | .replyRead clocked t => Sys2Proof.Machine.execReplyRead clocked t s
  | .cyclicRead clocked t => Sys2Proof.Machine.execCyclicRead clocked t s
  | .statusRead clocked t => Sys2Proof.Machine.execStatusRead clocked t s
  | .controlWrite w t => Sys2Proof.Machine.execControlWrite w t s
  | .extest cells t => Sys2Proof.Machine.execExtest cells t s
  | .samplePreload cells t => Sys2Proof.Machine.execSamplePreload cells t s
  | .highz t => Sys2Proof.Machine.execHighz t s
  | .clamp t => Sys2Proof.Machine.execClamp t s
  | .bypass t => Sys2Proof.Machine.execBypass t s
  | .tapReset t => Sys2Proof.Machine.execTapReset t s
  | .vcelValid => Sys2Proof.Machine.execVcelValid s
  | .vcelLost => Sys2Proof.Machine.execVcelLost s
  | .pwrgood avddh avss t => Sys2Proof.Machine.execPwrgood avddh avss t s
  | .pwrgoodDrop t => Sys2Proof.Machine.execPwrgoodDrop t s
  | .resetnFall t => Sys2Proof.Machine.execResetnFall t s
  | .resetnRise t => Sys2Proof.Machine.execResetnRise t s
  | .cresetnFall t => Sys2Proof.Machine.execCresetnFall t s
  | .cresetnRise t => Sys2Proof.Machine.execCresetnRise t s
  | .clrnFall t => Sys2Proof.Machine.execClrnFall t s
  | .clrnRise t => Sys2Proof.Machine.execClrnRise t s
  | .syncinEdge high t => Sys2Proof.Machine.execSyncinEdge high t s
  | .ldacEdge b low t => Sys2Proof.Machine.execLdacEdge b low t s
  | .latchEdge ch b falling held t => Sys2Proof.Machine.execLatchEdge ch b falling held t s
  | .indexEdge ch falling bothPos held t => Sys2Proof.Machine.execIndexEdge ch falling bothPos held t s
  | .hallEdge ch code held t => Sys2Proof.Machine.execHallEdge ch code held t s
  | .tachEdge fan t => Sys2Proof.Machine.execTachEdge fan t s
  | .linkGain q t => Sys2Proof.Machine.execLinkGain q t s
  | .linkLoss q t => Sys2Proof.Machine.execLinkLoss q t s
  | .laneLinkChange q up t => Sys2Proof.Machine.execLaneLinkChange q up t s
  | .syncFrame h x t => Sys2Proof.Machine.execSyncFrame h x t s
  | .syncReturn h rtPs t => Sys2Proof.Machine.execSyncReturn h rtPs t s
  | .cmdFrame h payload t => Sys2Proof.Machine.execCmdFrame h payload t s
  | .cycFrame h payload t => Sys2Proof.Machine.execCycFrame h payload t s
  | .retFrame h payload t => Sys2Proof.Machine.execRetFrame h payload t s
  | .rcFrame h payload t => Sys2Proof.Machine.execRcFrame h payload t s
  | .rcReturn h payload t => Sys2Proof.Machine.execRcReturn h payload t s
  | .rollcallComplete h payload t => Sys2Proof.Machine.execRollcallComplete h payload t s
  | .mntUnfoldNotice h payload t => Sys2Proof.Machine.execMntUnfoldNotice h payload t s
  | .mntImageBlock h payload t => Sys2Proof.Machine.execMntImageBlock h payload t s
  | .unknownFrame typ h payload t => Sys2Proof.Machine.execUnknownFrame typ h payload t s
  | .tickPacket bytes => Sys2Proof.Machine.execTickPacket bytes s
  | .beacon g x t => Sys2Proof.Machine.execBeacon g x t s
  | .shadowReq g adopt t => Sys2Proof.Machine.execShadowReq g adopt t s
  | .shadowData g x t => Sys2Proof.Machine.execShadowData g x t s
  | .formReq g x t => Sys2Proof.Machine.execFormReq g x t s
  | .formAns g reason t => Sys2Proof.Machine.execFormAns g reason t s
  | .split g t => Sys2Proof.Machine.execSplit g t s
  | .relay g p k t => Sys2Proof.Machine.execRelay g p k t s
  | .result g x t => Sys2Proof.Machine.execResult g x t s
  | .event g x t => Sys2Proof.Machine.execEvent g x t s
  | .record g x t => Sys2Proof.Machine.execRecord g x t s
  | .frameTick x => Sys2Proof.Machine.execFrameTick x s
  | .phaseB stall => Sys2Proof.Machine.execPhaseB stall s
  | .outputInstant => Sys2Proof.Machine.execOutputInstant s
  | .housekeeping meas => Sys2Proof.Machine.execHousekeeping meas s
  | .cycleStart t => Sys2Proof.Machine.execCycleStart t s
  | .tickRateChange => Sys2Proof.Machine.execTickRateChange s
  | .timeStep => Sys2Proof.Machine.execTimeStep s
  | .syncinRealign t => Sys2Proof.Machine.execSyncinRealign t s
  | .holdoverEnd t => Sys2Proof.Machine.execHoldoverEnd t s
  | .driftWindowClose xOpen xClose arbPpm t => Sys2Proof.Machine.execDriftWindowClose xOpen xClose arbPpm t s
  | .crystalArbiterCheck arbPpm t => Sys2Proof.Machine.execCrystalArbiterCheck arbPpm t s
  | .timeFallback => Sys2Proof.Machine.execTimeFallback s
  | .refWindowClose dAM dBM dAB t => Sys2Proof.Machine.execRefWindowClose dAM dBM dAB t s
  | .refSwitch grpB t => Sys2Proof.Machine.execRefSwitch grpB t s
  | .tjReading tj t => Sys2Proof.Machine.execTjReading tj t s
  | .sramScrub errs t => Sys2Proof.Machine.execSramScrub errs t s
  | .storeScrub errs t => Sys2Proof.Machine.execStoreScrub errs t s
  | .watchdogExpiry t => Sys2Proof.Machine.execWatchdogExpiry t s
  | .steepStepLimit n t => Sys2Proof.Machine.execSteepStepLimit n t s
  | .pllRetry locked t => Sys2Proof.Machine.execPllRetry locked t s
  | .steepEnd r t => Sys2Proof.Machine.execSteepEnd r t s
  | .autotrack => Sys2Proof.Machine.execAutotrack s
  | .trackEntryTimeout t => Sys2Proof.Machine.execTrackEntryTimeout t s
  | .excitationRampEnd ch t => Sys2Proof.Machine.execExcitationRampEnd ch t s
  | .excitationStop ch t => Sys2Proof.Machine.execExcitationStop ch t s
  | .carrierPhaseMeasured ch => Sys2Proof.Machine.execCarrierPhaseMeasured ch s
  | .acquisitionDone ch => Sys2Proof.Machine.execAcquisitionDone ch s
  | .settleWindowEnd ch => Sys2Proof.Machine.execSettleWindowEnd ch s
  | .ssiWord ch bits t => Sys2Proof.Machine.execSsiWord ch bits t s
  | .hallInvalidTimeout ch t => Sys2Proof.Machine.execHallInvalidTimeout ch t s
  | .hallStopTimeout ch t => Sys2Proof.Machine.execHallStopTimeout ch t s
  | .sessionTimeout client t => Sys2Proof.Machine.execSessionTimeout client t s
  | .hopFireKilned handle t => Sys2Proof.Machine.execHopFireKilned handle t s
  | .hopFireGreen handle t => Sys2Proof.Machine.execHopFireGreen handle t s
  | .hopExpiry handle t => Sys2Proof.Machine.execHopExpiry handle t s
  | .comparePulseEnd out t => Sys2Proof.Machine.execComparePulseEnd out t s
  | .firedEntryJudgement handle t => Sys2Proof.Machine.execFiredEntryJudgement handle t s
  | .latchEntryReady ch t => Sys2Proof.Machine.execLatchEntryReady ch t s
  | .eventWindowEnd k ch t => Sys2Proof.Machine.execEventWindowEnd k ch t s
  | .faultVerdict t => Sys2Proof.Machine.execFaultVerdict t s
  | .faultWindowEnd code scope t => Sys2Proof.Machine.execFaultWindowEnd code scope t s
  | .logWriteTimeout t => Sys2Proof.Machine.execLogWriteTimeout t s
  | .dacShortTimeout ch t => Sys2Proof.Machine.execDacShortTimeout ch t s
  | .dacOpenTimeout ch t => Sys2Proof.Machine.execDacOpenTimeout ch t s
  | .supplyTimeout ch t => Sys2Proof.Machine.execSupplyTimeout ch t s
  | .emuRateTimeout ch t => Sys2Proof.Machine.execEmuRateTimeout ch t s
  | .moveArrival ch => Sys2Proof.Machine.execMoveArrival ch s
  | .stopAtRest ch => Sys2Proof.Machine.execStopAtRest ch s
  | .jogVelocityReached ch => Sys2Proof.Machine.execJogVelocityReached ch s
  | .extrapolateValueReady slot => Sys2Proof.Machine.execExtrapolateValueReady slot s
  | .timeAtCrossing slot => Sys2Proof.Machine.execTimeAtCrossing slot s
  | .timeAtTimeout slot t => Sys2Proof.Machine.execTimeAtTimeout slot t s
  | .calibrateAngleLearnDone ch => Sys2Proof.Machine.execCalibrateAngleLearnDone ch s
  | .storeWriteDone t => Sys2Proof.Machine.execStoreWriteDone t s
  | .fwCommitChecked t => Sys2Proof.Machine.execFwCommitChecked t s
  | .drainEnd => Sys2Proof.Machine.execDrainEnd s
  | .soundRoundStart => Sys2Proof.Machine.execSoundRoundStart s
  | .soundRoundPublish x => Sys2Proof.Machine.execSoundRoundPublish x s
  | .tachSilent fan t => Sys2Proof.Machine.execTachSilent fan t s
  | .fanStartJudgementEnd fan t => Sys2Proof.Machine.execFanStartJudgementEnd fan t s
  | .fanProbeEnd fan t => Sys2Proof.Machine.execFanProbeEnd fan t s
  | .fanKickEnd fan t => Sys2Proof.Machine.execFanKickEnd fan t s
  | .fanPauseEnd fan t => Sys2Proof.Machine.execFanPauseEnd fan t s
  | .fanStoptimeExpiry fan t => Sys2Proof.Machine.execFanStoptimeExpiry fan t s
  | .ductBlockedTimeout fan t => Sys2Proof.Machine.execDuctBlockedTimeout fan t s
  | .zeroFlowCalQuiet t => Sys2Proof.Machine.execZeroFlowCalQuiet t s
  | .zeroFlowCalDone t => Sys2Proof.Machine.execZeroFlowCalDone t s
  | .waveSampleLoad slot t => Sys2Proof.Machine.execWaveSampleLoad slot t s
  | .waveSampleEntry slot => Sys2Proof.Machine.execWaveSampleEntry slot s
  | .waveHopStart slot t => Sys2Proof.Machine.execWaveHopStart slot t s
  | .waveRunEnd slot t => Sys2Proof.Machine.execWaveRunEnd slot t s
  | .bulkResend t => Sys2Proof.Machine.execBulkResend t s
  | .formAnswerDeadline => Sys2Proof.Machine.execFormAnswerDeadline s
  | .fusionReady => Sys2Proof.Machine.execFusionReady s
  | .tandemFusion => Sys2Proof.Machine.execTandemFusion s
  | .partnerLoss => Sys2Proof.Machine.execPartnerLoss s
  | .splitComplete => Sys2Proof.Machine.execSplitComplete s
  | .cycTimeout t => Sys2Proof.Machine.execCycTimeout t s
  | .topologyChange t => Sys2Proof.Machine.execTopologyChange t s
  | .beaconSend t => Sys2Proof.Machine.execBeaconSend t s
  | .shadowRefreshDone q t => Sys2Proof.Machine.execShadowRefreshDone q t s
  | .adoptionDone t => Sys2Proof.Machine.execAdoptionDone t s
  | .autoAdopt q t => Sys2Proof.Machine.execAutoAdopt q t s
  | .foldTakeEffect t => Sys2Proof.Machine.execFoldTakeEffect t s
  | .unfoldCycle t => Sys2Proof.Machine.execUnfoldCycle t s
  | .ssiMonoflopTimeout ch t => Sys2Proof.Machine.execSsiMonoflopTimeout ch t s
  | .slewEnd t => Sys2Proof.Machine.execSlewEnd t s
  | .railLimitCrossing avddh avss t => Sys2Proof.Machine.execRailLimitCrossing avddh avss t s
  | .currentLimitChange ch on t => Sys2Proof.Machine.execCurrentLimitChange ch on t s
  | .complianceChange ch lost t => Sys2Proof.Machine.execComplianceChange ch lost t s

end Sys2Proof.Machine
end

