-- ==== Sys2Proof/WellFormed.lean ====
section
/-!
DEFINITION. Well-formed commands: what the spec says of a command's operands before the block sees it. The meanings are
total and take ill-formed commands too; the checks here name the operands that exist on the hardware.
-/
namespace Sys2Proof

/-- An instant inside the tick in progress, in ns after its P0: the longest tick lasts 125 µs (R122). -/
def tickInstant (t : Nat) : Bool := decide (t ≤ 125000)

/-- An instant that the node stamps: a whole number of 5 ns (R138, R179, R254). -/
def stampedInstant (t : Nat) : Bool := tickInstant t && t % 5 == 0

/-- A packet holds at most 250 parameter words (R49). -/
def Packet.wf (p : Packet) : Bool := decide (p.words.length ≤ 250)

/-- The items whose Write column says CASK: EXC 0x1001 to 0x1007, and IN.MODE to IN.DIR, IN.LINES, IN.IDXGATE, IN.POLES to
IN.HALLFLT, and IN.SSICLK to IN.SSIDLY (the tables of blocks EXC and IN). -/
def CaskItem.wf (x : CaskItem) : Bool :=
  let i := x.item.toNat
  if x.inBlock then
    (decide (0x01 ≤ i) && decide (i ≤ 0x04)) || decide (i = 0x10) || decide (i = 0x11) ||
      (decide (0x20 ≤ i) && decide (i ≤ 0x22)) || (decide (0x30 ≤ i) && decide (i ≤ 0x3E))
  else decide (0x01 ≤ i) && decide (i ≤ 0x07)

/-- A frame on its way from the head: its return bit is clear (R406). -/
def FrameHdr.outbound (h : FrameHdr) : Bool := !h.ret

/-- A frame on its way back to the head: its return bit is set (R406). -/
def FrameHdr.returning (h : FrameHdr) : Bool := h.ret

/-- The frame types the line defines (R409). -/
def listedFrame (typ : Byte) : Bool := decide (1 ≤ typ.toNat) && decide (typ.toNat ≤ 6)

/-- SIN and COS are sampled together at 20.48 MHz: at most 2,560 modulator clocks in the longest tick (R165). -/
def ChanInput.wf (x : ChanInput) : Bool :=
  decide (x.sin.length = x.cos.length) && decide (x.sin.length ≤ 2560)

/-- A measured interval is a whole number of the 8 ps of the time-to-digital converter (R367). -/
def tdcInterval (ps : Nat) : Bool := ps % 8 == 0

/-- A round trip is the difference of two stamps of 1 ns resolution (R425). -/
def stampedInterval (ps : Nat) : Bool := ps % 1000 == 0

/-- The half-waves of a shot come in order of time. -/
def shotWf (s : List HalfWave) : Bool :=
  s.all (fun h => tdcInterval h.zcPs) && (s.zip (s.drop 1)).all fun e => decide (e.1.zcPs < e.2.zcPs)

/-- The shots of a path. -/
def PathShots.wf (x : PathShots) : Bool := x.dn.all shotWf && x.up.all shotWf

/-- The discharge times of an RTD input. -/
def RtdShot.wf (x : RtdShot) : Bool := (x.tRef.all tdcInterval) && (x.tX.all tdcInterval)

/-- The raw measurements of a round. -/
def RoundData.wf (x : RoundData) : Bool := x.paths.a.wf && x.paths.b.wf && x.rtds.toList.all RtdShot.wf

/-- The checks of a command's operands. -/
def Instr.wf (i : Instr) : Bool :=
  match i with
  | .ping p => p.wf
  | .openSession p => p.wf
  | .closeSession p => p.wf
  | .subscribeSet p => p.wf
  | .subscribeAdd p => p.wf
  | .subscribeRemove p => p.wf
  | .subscribeAll p => p.wf
  | .replay p => p.wf
  | .replayList p => p.wf
  | .describe p => p.wf
  | .keySet p => p.wf
  | .keySetErase p => p.wf
  | .setModeCask p => p.wf
  | .setModeTrack p => p.wf
  | .setModeDrive p => p.wf
  | .steepRun p => p.wf
  | .status p => p.wf
  | .clearFaults p => p.wf
  | .tickRealign p => p.wf
  | .paramRead p => p.wf
  | .paramWrite p => p.wf
  | .tickRateWrite p _ => p.wf
  | .tickOutatWrite p _ => p.wf
  | .nodeCaskexcWrite p _ => p.wf
  | .caskItemWriteExcited p item _ _ => p.wf && item.wf
  | .posOffsetWrite p _ _ => p.wf
  | .dacSrcWrite p _ _ => p.wf
  | .dacClrenWrite p _ _ => p.wf
  | .dacClrcodeWrite p _ _ => p.wf
  | .dacRangeWrite p _ _ => p.wf
  | .refTselWrite p _ => p.wf
  | .lineCycleWrite p _ => p.wf
  | .lineRecordWrite p _ _ => p.wf
  | .paramSave p => p.wf
  | .paramRestore p => p.wf
  | .paramDefaults p => p.wf
  | .readPosition p => p.wf
  | .setPosition p => p.wf
  | .calibrateAngleLearn p => p.wf
  | .calibrateAngleWrite p => p.wf
  | .calibrateAngleRead p => p.wf
  | .calibrateAngleClear p => p.wf
  | .extrapolatePosAt p => p.wf
  | .extrapolatePredict p => p.wf
  | .extrapolateTimeAt p => p.wf
  | .historyRead p => p.wf
  | .moveTo p => p.wf
  | .moveBy p => p.wf
  | .jog p => p.wf
  | .stop p => p.wf
  | .park p => p.wf
  | .setLimits p => p.wf
  | .gainSet p => p.wf
  | .loopEnable p => p.wf
  | .loopDisable p => p.wf
  | .cascadeSet p => p.wf
  | .latchArm p => p.wf
  | .latchArmOff p => p.wf
  | .latchRead p => p.wf
  | .hopAdd p => p.wf
  | .hopRemoveByHandle p => p.wf
  | .hopRemoveByChannel p => p.wf
  | .hopRemoveByOutput p => p.wf
  | .hopList p => p.wf
  | .emuSet p => p.wf
  | .dacConfig p => p.wf
  | .dacWrite p => p.wf
  | .dacStrobe p => p.wf
  | .waveLoadDefine p => p.wf
  | .waveLoadData p => p.wf
  | .waveLoadSeal p => p.wf
  | .waveLoadDelete p => p.wf
  | .wavePlay p => p.wf
  | .waveStop p => p.wf
  | .soundConfig p => p.wf
  | .soundRead p => p.wf
  | .zeroFlowCal p => p.wf
  | .rtdRead p => p.wf
  | .fanSet p => p.wf
  | .fanRead p => p.wf
  | .rollcallSurvey p => p.wf
  | .rollcallAssign p => p.wf
  | .relock p => p.wf
  | .adopt p => p.wf
  | .fold p => p.wf
  | .unfold p => p.wf
  | .lineStats p => p.wf
  | .timeRead p => p.wf
  | .faultRead p => p.wf
  | .faultLog p => p.wf
  | .pitchArm p => p.wf
  | .pitchDisarm p => p.wf
  | .refStatus p => p.wf
  | .tickStats p => p.wf
  | .fwBegin p => p.wf
  | .fwBlock p => p.wf
  | .fwCommit p => p.wf
  | .fwActivate p => p.wf
  | .storeRead p => p.wf
  | .tandemForm p => p.wf
  | .tandemSplit p => p.wf
  | .tandemStatus p => p.wf
  | .packetWrite _ t => tickInstant t
  | .lineWrite _ t => tickInstant t
  | .mntWrite _ t => tickInstant t
  | .slotsWrite _ t => tickInstant t
  | .replyRead _ t => tickInstant t
  | .cyclicRead _ t => tickInstant t
  | .statusRead _ t => tickInstant t
  | .controlWrite _ t => tickInstant t
  | .extest _ t => tickInstant t
  | .samplePreload _ t => tickInstant t
  | .highz t => tickInstant t
  | .clamp t => tickInstant t
  | .bypass t => tickInstant t
  | .tapReset t => tickInstant t
  | .pwrgood _ _ t => tickInstant t
  | .pwrgoodDrop t => tickInstant t
  | .resetnFall t => tickInstant t
  | .resetnRise t => tickInstant t
  | .cresetnFall t => tickInstant t
  | .cresetnRise t => tickInstant t
  | .clrnFall t => stampedInstant t
  | .clrnRise t => stampedInstant t
  | .syncinEdge _ t => stampedInstant t
  | .ldacEdge _ _ t => stampedInstant t
  | .latchEdge _ _ _ _ t => stampedInstant t
  | .indexEdge _ _ _ _ t => stampedInstant t
  | .hallEdge _ _ _ t => stampedInstant t
  | .tachEdge _ t => stampedInstant t
  | .linkGain _ t => tickInstant t
  | .linkLoss _ t => tickInstant t
  | .laneLinkChange _ _ t => tickInstant t
  | .syncFrame h _ t => h.outbound && tickInstant t
  | .syncReturn h rt t => h.returning && tickInstant t && stampedInterval rt
  | .cmdFrame h payload t => h.outbound && decide (payload.length < 2 ^ 24) && tickInstant t
  | .cycFrame h payload t => h.outbound && decide (payload.length < 2 ^ 24) && tickInstant t
  | .retFrame h payload t => h.returning && decide (payload.length < 2 ^ 24) && tickInstant t
  | .rcFrame h payload t => h.outbound && decide (payload.length < 2 ^ 24) && tickInstant t
  | .rcReturn h payload t => h.returning && decide (payload.length < 2 ^ 24) && tickInstant t
  | .rollcallComplete h payload t => h.returning && decide (payload.length < 2 ^ 24) && tickInstant t
  | .mntUnfoldNotice h payload t => h.outbound && decide (payload.length < 2 ^ 24) && tickInstant t
  | .mntImageBlock h payload t => h.outbound && decide (payload.length < 2 ^ 24) && tickInstant t
  | .unknownFrame typ _ payload t => !listedFrame typ && decide (payload.length < 2 ^ 24) && tickInstant t
  | .tickPacket bytes => decide (bytes.length = 16)
  | .beacon _ _ t => tickInstant t
  | .shadowReq _ _ t => tickInstant t
  | .shadowData _ x t => decide (x.bytes.length ≤ 240) && tickInstant t
  | .formReq _ _ t => tickInstant t
  | .formAns _ _ t => tickInstant t
  | .split _ t => tickInstant t
  | .relay _ p k t => p.wf && decide (k < 2 ^ 48) && tickInstant t
  | .result _ _ t => tickInstant t
  | .event _ _ t => tickInstant t
  | .record _ _ t => tickInstant t
  | .frameTick x => x.toList.all ChanInput.wf
  | .phaseB _ => true
  | .housekeeping _ => true
  | .cycleStart t => tickInstant t
  | .syncinRealign t => tickInstant t
  | .holdoverEnd t => tickInstant t
  | .driftWindowClose _ _ _ t => tickInstant t
  | .crystalArbiterCheck _ t => tickInstant t
  | .refWindowClose _ _ _ t => tickInstant t
  | .refSwitch _ t => tickInstant t
  | .tjReading _ t => tickInstant t
  | .sramScrub _ t => tickInstant t
  | .storeScrub _ t => tickInstant t
  | .watchdogExpiry t => tickInstant t
  | .steepStepLimit _ t => tickInstant t
  | .pllRetry _ t => tickInstant t
  | .steepEnd r t => r.dacDev.toList.all (fun d => d.length == 7) && tickInstant t
  | .trackEntryTimeout t => tickInstant t
  | .excitationRampEnd _ t => tickInstant t
  | .excitationStop _ t => tickInstant t
  | .carrierPhaseMeasured _ => true
  | .acquisitionDone _ => true
  | .settleWindowEnd _ => true
  | .ssiWord _ bits t => decide (bits.length ≤ 49) && tickInstant t
  | .hallInvalidTimeout _ t => tickInstant t
  | .hallStopTimeout _ t => tickInstant t
  | .sessionTimeout _ t => tickInstant t
  | .hopFireKilned handle t => decide (handle < 2 ^ 24) && tickInstant t
  | .hopFireGreen handle t => decide (handle < 2 ^ 24) && tickInstant t
  | .hopExpiry handle t => decide (handle < 2 ^ 24) && tickInstant t
  | .comparePulseEnd _ t => tickInstant t
  | .firedEntryJudgement handle t => decide (handle < 2 ^ 24) && tickInstant t
  | .latchEntryReady _ t => tickInstant t
  | .eventWindowEnd _ _ t => tickInstant t
  | .faultVerdict t => tickInstant t
  | .faultWindowEnd code scope t => decide (code < 65536) && decide (scope < 256) && tickInstant t
  | .logWriteTimeout t => tickInstant t
  | .dacShortTimeout _ t => tickInstant t
  | .dacOpenTimeout _ t => tickInstant t
  | .supplyTimeout _ t => tickInstant t
  | .emuRateTimeout _ t => tickInstant t
  | .moveArrival _ => true
  | .stopAtRest _ => true
  | .jogVelocityReached _ => true
  | .extrapolateValueReady slot => decide (slot < 4096)
  | .timeAtCrossing slot => decide (slot < 4096)
  | .timeAtTimeout slot t => decide (slot < 4096) && tickInstant t
  | .calibrateAngleLearnDone _ => true
  | .storeWriteDone t => tickInstant t
  | .fwCommitChecked t => tickInstant t
  | .soundRoundPublish x => x.wf
  | .tachSilent _ t => tickInstant t
  | .fanStartJudgementEnd _ t => tickInstant t
  | .fanProbeEnd _ t => tickInstant t
  | .fanKickEnd _ t => tickInstant t
  | .fanPauseEnd _ t => tickInstant t
  | .fanStoptimeExpiry _ t => tickInstant t
  | .ductBlockedTimeout _ t => tickInstant t
  | .zeroFlowCalQuiet t => tickInstant t
  | .zeroFlowCalDone t => tickInstant t
  | .waveSampleLoad slot t => decide (slot < 4096) && tickInstant t
  | .waveSampleEntry slot => decide (slot < 4096)
  | .waveHopStart slot t => decide (slot < 4096) && tickInstant t
  | .waveRunEnd slot t => decide (slot < 4096) && tickInstant t
  | .bulkResend t => tickInstant t
  | .cycTimeout t => tickInstant t
  | .topologyChange t => tickInstant t
  | .beaconSend t => tickInstant t
  | .shadowRefreshDone _ t => tickInstant t
  | .adoptionDone t => tickInstant t
  | .autoAdopt _ t => tickInstant t
  | .foldTakeEffect t => tickInstant t
  | .unfoldCycle t => tickInstant t
  | .ssiMonoflopTimeout _ t => tickInstant t
  | .slewEnd t => tickInstant t
  | .railLimitCrossing _ _ t => tickInstant t
  | .currentLimitChange _ _ t => tickInstant t
  | .complianceChange _ _ t => tickInstant t
  | .vcelValid => true
  | .vcelLost => true
  | .outputInstant => true
  | .tickRateChange => true
  | .timeStep => true
  | .timeFallback => true
  | .autotrack => true
  | .drainEnd => true
  | .soundRoundStart => true
  | .formAnswerDeadline => true
  | .fusionReady => true
  | .tandemFusion => true
  | .partnerLoss => true
  | .splitComplete => true

end Sys2Proof
end

