-- ==== Sys2Proof/Safety.lean ====
section
/-!
DEFINITION. The terms in which claims speak of a run: what is on its way to a receiver, when a packet row runs its command
and on which node, what a client's talk with the node leaves untouched, and which states are well formed.
-/
namespace Sys2Proof.Machine

/-! ### What the node has said -/

/-- The packets on their way to a receiver, oldest first: in the line stream (R419), or in the reply buffer and behind it
(R589). -/
def Node.sentTo (c : Client) (n : Node) : List ReplyPkt :=
  if c.isL then n.host.replies ++ n.host.overflow else (n.stream.filter fun i => i.dest == c).map OutItem.pkt

/-! ### When a packet row runs its command -/

/-- The core is up with its cellar powered and no drain begun: arriving packets are judged (R60, R448). -/
def Node.takesPackets (n : Node) : Bool := n.power.vcel && n.power.cresetn && n.up && n.core.drain.isNone

/-- What the arrival of a packet makes of the node, with the operation it becomes where it is accepted (R58, R78). -/
def Node.arrived (p : Packet) (n : Node) : Option PoolOp × Node :=
  let r := n.arrive p (decide (p.words.length ≤ 250)) n.firstTick
  (r.1.bind r.2.opOf, r.2)

/-- The operation that an accepted packet becomes. -/
def Node.opFrom (p : Packet) (n : Node) : PoolOp :=
  ((n.arrived p).1).getD
    { slot := 0, order := 0, client := senderOf p, packet := p, scheduled := false, due := 0, phase := .waiting, side := .here }

/-- The node as the command finds it at its commit: its packet has arrived and its operation is marked committed. -/
def Node.atCommit (p : Packet) (n : Node) : Node := (n.arrived p).2.markCommitted (n.opFrom p).order

/-- The packet passes checks 2 to 10 on arrival, is executed here in the tick in progress, and passes checks 11 to 13 and the
refusal of R157 (R58, R72, R251). No waiting operation bears the order number it takes. -/
def Node.runsNow (p : Packet) (n : Node) : Bool :=
  n.takesPackets &&
  match (n.arrived p).1, opcodeOf p with
  | some op, some oc =>
    op.side == .here && !(n.core.pool.any fun o => o.order == n.core.nextOrder) && kLe op.due n.time.k48 &&
      !op.passed (n.arrived p).2.time.stepped (n.arrived p).2.time.k48 &&
      ((n.arrived p).2.commitChecks oc op.client p).isNone
  | _, _ => false

/-- The final reply of a command (R54, R55), sent in the tick in progress. -/
def Node.finalReply (p : Packet) (s : Status) (chunks : List (List Word)) (green : Bool) (n : Node) : List ReplyPkt :=
  replyPackets p s green true n.tick16 chunks

/-! ### What a talk leaves untouched -/

/-- The core without the bookkeeping of its operation pool. -/
def Core.body (k : Core) : Core := { k with pool := [], nextOrder := 0, slotUses := [] }

/-- The node without its talk with the clients: no sessions, no client records, no packets on their way, no operations. -/
def Node.body (n : Node) : Node :=
  { n with
    clients := [], sessions := [], stream := [], host := { n.host with replies := [], overflow := [] }, core := n.core.body }

/-- A command answers a next state with the same queue, whose node has a property. -/
def Effect (i : Instr) (s : State) (P : Node → Prop) : Prop := ∃ m, exec i s = .next { s with node := m } ∧ P m

/-- The sender of a packet is sent the final reply with this status and these words, and the node is untouched but for the
talk: what a command that only reads does. -/
def Node.answersWith (p : Packet) (st : Status) (chunks : List (List Word)) (green : Bool) (n m : Node) : Prop :=
  m.sentTo (senderOf p) = n.sentTo (senderOf p) ++ n.finalReply p st chunks green ∧ m.body = n.body

/-- The sender of a packet is sent the final reply with this status and these words, behind what its arrival sent. -/
def Node.replies (p : Packet) (st : Status) (chunks : List (List Word)) (n m : Node) : Prop :=
  m.sentTo (senderOf p) = (n.atCommit p).sentTo (senderOf p) ++ n.finalReply p st chunks false

/-- The command of a packet has committed and goes on: its operation waits in the pool for its end (R76). -/
def Node.goesOn (p : Packet) (n m : Node) : Prop :=
  ∃ op, m.opOf (n.opFrom p).order = some op ∧ op.packet = p ∧ op.phase = .committed

/-- The fault manager knows the condition of a fault, or a detector's verdict on it waits for the manager (R500, R502). -/
def Node.reported (f : FaultCode) (scope : Nat) (n : Node) : Prop :=
  (n.core.faults.verdicts.any fun v => v.code == f && v.scope == scope) = true ∨
  (n.core.faults.insts.any fun i => i.code == f && i.scope == scope && i.present) = true

/-! ### Well-formed states -/

/-- Every sparse memory of the node is in its canonical form: equal contents are equal data. -/
def Node.memWf (n : Node) : Bool :=
  n.core.params.wf && n.core.waves.mem.wf && n.store.images.a.bytes.wf && n.store.images.b.bytes.wf

/-- The states the claims about memory speak of. -/
def State.wf (s : State) : Bool := s.node.memWf

end Sys2Proof.Machine
end

