-- ==== Sys2Proof/Certificates/Slice0/Obligations.lean ====
section
/-!
DEFINITION. The statements for the provers: each formalises what the rules of spec/ say a command, or the node, does. `Effect i s P`
says that `exec i s` answers a next state, with the same queue, whose node satisfies `P`.
-/

open Sys2Proof Sys2Proof.Machine

/-! ### The queue and the step -/

/-- A step takes the command at the front of the queue and executes it with the queue's rest; with nothing waiting the block
idles (log entry 3). -/
def Obligations.StepRunsTheFrontCommand : Prop :=
  (∀ (c : Instr) (rest : List Instr) (n : Node),
    step { node := n, pending := c :: rest } = exec c { node := n, pending := rest }) ∧
  ∀ n : Node, step { node := n, pending := [] } = .next { node := n, pending := [] }

/-- No command faults or is refused, and none touches the queue: every command has an effect on the node. -/
def Obligations.EveryCommandHasAnEffect : Prop :=
  ∀ (c : Instr) (s : State), ∃ f : Node → Node, ∀ rest : List Instr,
    exec c { s with pending := rest } = .next { node := f s.node, pending := rest }

/-! ### Sessions -/

/-- R562: PING returns its parameter words, unchanged and in order, with status DONE. -/
def Obligations.PingReturnsItsWords : Prop :=
  ∀ (s : State) (p : Packet), s.node.runsNow (asRow .ping p) = true →
    Effect (.ping p) s (s.node.answersWith (asRow .ping p) .done [p.words] false)

/-- R61 to R64, R563, R564: a client without a session gets one of the class it names, a fresh nonce and no subscriptions; a
client with one gets BUSY; CLOSE_SESSION and the timeout leave no session and no subscriptions. -/
def Obligations.SessionsOpenAndClose : Prop :=
  (∀ (s : State) (p : Packet), s.node.runsNow (asRow .openSession p) = true → s.node.session p.client = none →
    Effect (.openSession p) s fun m =>
      m.session p.client =
        some { id := p.client, cls := classOf (fld (pw p 0) 1 0), nonce := Config.nonce s.node.nonces, lastNs := s.node.now } ∧
      m.nonces = s.node.nonces + 1 ∧ (m.clientRec (.line p.client)).subs = [] ∧
      m.sentTo (senderOf p) = s.node.sentTo (senderOf p) ++ s.node.finalReply (asRow .openSession p) .done
        [[wN ((Config.nonce s.node.nonces).toNat / 2 ^ 32), wN ((Config.nonce s.node.nonces).toNat % 2 ^ 32)]] false) ∧
  (∀ (s : State) (p : Packet), s.node.runsNow (asRow .openSession p) = true → (s.node.session p.client).isSome = true →
    Effect (.openSession p) s (s.node.answersWith (asRow .openSession p) .busy [[]] false)) ∧
  (∀ (s : State) (p : Packet), s.node.runsNow (asRow .closeSession p) = true →
    Effect (.closeSession p) s fun m =>
      m.session p.client = none ∧ (m.clientRec (.line p.client)).subs = []) ∧
  (∀ (s : State) (c : BitVec 8) (t : Nat) (x : Session), s.node.power.vcel = true → s.node.power.cresetn = true →
    (s.node.atT t).session c = some x → (s.node.atT t).parN Pid.sesTimeout 0 ≠ 0 →
    x.lastNs + (s.node.atT t).parN Pid.sesTimeout 0 * 1000000 ≤ (s.node.atT t).now →
    Effect (.sessionTimeout c t) s fun m => m.session c = none ∧ (m.clientRec (.line c)).subs = [])

/-- R565: SET replaces the client's subscriptions, ADD adds to them, REMOVE removes from them, ALL makes them every event; the
reply's word 0 is the number of codes now subscribed. -/
def Obligations.SubscribeChangesTheSet : Prop :=
  ∀ (s : State) (p : Packet),
    let old := (s.node.clientRec (senderOf p)).subs
    let done := fun (q : Packet) (new : List EventCode) (m : Node) =>
      (m.clientRec (senderOf p)).subs = new ∧ m.body = s.node.body ∧
      m.sentTo (senderOf p) = s.node.sentTo (senderOf p) ++ s.node.finalReply q .done [[wN new.length]] false
    (s.node.runsNow (withBits 0 2 0 (asRow .subscribe p)) = true →
      Effect (.subscribeSet p) s (done (withBits 0 2 0 (asRow .subscribe p)) (listedCodes p))) ∧
    (s.node.runsNow (withBits 0 2 1 (asRow .subscribe p)) = true →
      Effect (.subscribeAdd p) s
        (done (withBits 0 2 1 (asRow .subscribe p)) (old ++ (listedCodes p).filter fun e => !old.contains e))) ∧
    (s.node.runsNow (withBits 0 2 2 (asRow .subscribe p)) = true →
      Effect (.subscribeRemove p) s
        (done (withBits 0 2 2 (asRow .subscribe p)) (old.filter fun e => !(listedCodes p).contains e))) ∧
    (s.node.runsNow (withBits 0 2 3 (asRow .subscribe p)) = true →
      Effect (.subscribeAll p) s (done (withBits 0 2 3 (asRow .subscribe p)) EventCode.all))

/-- R47, R566: REPLAY sends the cached reply of the tag again, marked REPLAYED, and then its own DONE with word 0 = 1; with LIST it
returns 16 words, newest first. DESCRIBE returns the part code, the revision and version, the lock and the signature. -/
def Obligations.ReplayAndDescribe : Prop :=
  (∀ (s : State) (p : Packet) (e : CachedReply),
    let q := withBits 12 1 0 (asRow .replay p)
    s.node.runsNow q = true →
    ((s.node.clientRec (senderOf p)).cache.find? fun x => x.tag.toNat == fld (pw p 0) 11 0) = some e →
    Effect (.replay p) s fun m =>
      m.sentTo (senderOf p) = s.node.sentTo (senderOf p) ++ (e.pkts.map fun r => { r with replayed := true }) ++
        s.node.finalReply q .done [[1]] false ∧ m.body = s.node.body) ∧
  (∀ (s : State) (p : Packet),
    let q := withBits 12 1 1 (asRow .replay p)
    s.node.runsNow q = true →
    Effect (.replayList p) s (s.node.answersWith q .done
      [(((s.node.clientRec (senderOf p)).cache.map cacheWord) ++ List.replicate 16 0).take 16] false)) ∧
  (∀ (s : State) (p : Packet), s.node.runsNow (asRow .describe p) = true →
    Effect (.describe p) s (s.node.answersWith (asRow .describe p) .done
      [[0x4158513430, wN (Config.silicon * 2 ^ 32 + s.node.version),
        wN (s.node.line.lock.elim 0 Prod.fst + s.node.lockState * 2 ^ 10 + s.node.line.rcHops % 1024 * 2 ^ 12),
        s.node.line.lock.elim 0 Prod.snd]] false))

/-- R567: KEY_SET installs the 128-bit key of its four words, ERASE removes it; either waits for the write of the node page. -/
def Obligations.KeySetChangesTheKey : Prop :=
  ∀ (s : State) (p : Packet),
    let done := fun (q : Packet) (k : Option (BitVec 128)) (m : Node) =>
      m.store = { s.node.store with
        key := k
        writes := s.node.store.writes ++ [{ kind := .nodePage, op := some (s.node.opFrom q).order, words := [] }] } ∧
      m.core.body = s.node.core.body
    (s.node.runsNow (withBits 0 1 0 (asRow .keySet p)) = true →
      Effect (.keySet p) s (done (withBits 0 1 0 (asRow .keySet p)) (some (BitVec.ofNat 128
        ((((pw p 1).toNat * 2 ^ 32 + (pw p 2).toNat) * 2 ^ 32 + (pw p 3).toNat) * 2 ^ 32 + (pw p 4).toNat))))) ∧
    (s.node.runsNow (withBits 0 1 1 (asRow .keySet p)) = true →
      Effect (.keySetErase p) s (done (withBits 0 1 1 (asRow .keySet p)) none))

/-! ### Modes, Steep and resets -/

/-- R32, R36, R38 to R40: SET_MODE to CASK enters CASK with the output states due at the next P3; from CASK to TRACK, with no
class-3 fault and the node not MISPLACED, every channel that takes part tracks; from DRIVE to TRACK with no loop running the mode
changes; from TRACK to DRIVE, with every condition of R32 met, the mode is DRIVE and DONE is sent. -/
def Obligations.SetModeChangesTheMode : Prop :=
  (∀ (s : State) (p : Packet),
    s.node.runsNow (withBits 0 2 0 (asRow .setMode p)) = true → s.node.core.mode ≠ .cask →
    Effect (.setModeCask p) s fun m => m.core.mode = .cask ∧ m.core.caskDue = true) ∧
  (∀ (s : State) (p : Packet),
    s.node.runsNow (withBits 0 2 1 (asRow .setMode p)) = true → s.node.core.mode = .cask → s.node.lockState ≠ 2 →
    s.node.core.faults.topClass ≠ 3 →
    Effect (.setModeTrack p) s fun m => m.core.mode = .track ∧ m.core.caskDue = false ∧
      ∀ c, s.node.takesPart c = true → (m.core.fronts.get c).trk.running = true) ∧
  (∀ (s : State) (p : Packet),
    s.node.runsNow (withBits 0 2 1 (asRow .setMode p)) = true → s.node.core.mode = .drive → s.node.core.rests = [] →
    s.node.enabledChs = [] →
    Effect (.setModeTrack p) s fun m => m.core.mode = .track) ∧
  (∀ (s : State) (p : Packet),
    s.node.runsNow (withBits 0 2 2 (asRow .setMode p)) = true → s.node.core.mode = .track →
    s.node.ownsAll (senderOf p) = true → s.node.enabledChs.any s.node.hasClass2 = false → s.node.admissionNow = none →
    Effect (.setModeDrive p) s fun m => m.core.mode = .drive ∧
      m.sentTo (senderOf p) = s.node.sentTo (senderOf p) ++
        s.node.finalReply (withBits 0 2 2 (asRow .setMode p)) .done [[]] false)

/-- R114 to R116: STEEP_RUN empties the operation pool, holds its own reply in the cellar, and starts a Steep with its trigger. -/
def Obligations.SteepRunStartsSteep : Prop :=
  ∀ (s : State) (p : Packet), s.node.runsNow (asRow .steepRun p) = true → s.node.mayRun = true →
    Effect (.steepRun p) s fun m =>
      m.core.pool = [] ∧ m.core.hops = [] ∧ (∃ r, m.core.run = .steep r ∧ r.trigger = .steepRun) ∧
      m.held.map HeldTag.packet = some (asRow .steepRun p)

/-- R45, R569: STATUS returns S40 and the latest Steep word; its bit 33 is the client's refutation bit, which reading clears. -/
def Obligations.StatusReturnsS40 : Prop :=
  ∀ (s : State) (p : Packet),
    s.node.runsNow (asRow .status p) = true →
    let r := s.node.clientRec (senderOf p)
    Effect (.status p) s fun m =>
      m.sentTo (senderOf p) = s.node.sentTo (senderOf p) ++ s.node.finalReply (asRow .status p) .done
        [[s.node.s40 r.refuted (decide (0 < s.node.eventsPending (senderOf p))), s.node.steepWord]] false ∧
      (m.clientRec (senderOf p)).refuted = false ∧ m.body = s.node.body

/-- R37, R120: the automatic transition commits to TRACK; 50 ms after a CASK-to-TRACK commit the wait for kilned samples is over,
and each channel still without one has its detector fault reported. -/
def Obligations.TransitionsWithoutACommand : Prop :=
  (∀ s : State, s.node.up = true → s.node.core.auto = .due → s.node.core.mode = .cask → s.node.core.faults.topClass ≠ 3 →
    Effect .autotrack s fun m => m.core.mode = .track ∧ m.core.auto = .none ∧
      ∀ c, s.node.takesPart c = true → (m.core.fronts.get c).trk.running = true) ∧
  (∀ (s : State) (t : Nat) (e : TrackEntry), s.node.up = true → s.node.core.trackEntry = some e → e.ends ≤ (s.node.atT t).now →
    Effect (.trackEntryTimeout t) s fun m => m.core.trackEntry = none ∧ m.core.mode = s.node.core.mode ∧
      ∀ c ∈ e.waiting, m.reported ((s.node.atT t).entryFault c) c.val)

/-- R17, R88 to R92, R442, R555, R580: VCEL starts and stops the cellar; PWRGOOD starts a Steep; a fall of PWRGOOD or RESETN holds the
core, which takes with it the operations of the pool; CRESETN and VCEL take the cellar's state with them, but not the store. -/
def Obligations.SuppliesAndResets : Prop :=
  (∀ s : State, s.node.power.vcel = false →
    Effect .vcelValid s fun m => m = { s.node with power := { s.node.power with vcel := true } }) ∧
  (∀ s : State, s.node.power.vcel = true →
    Effect .vcelLost s fun m => m.power.vcel = false ∧ m.core = {} ∧ m.clients = [] ∧ m.sessions = [] ∧ m.stream = [] ∧
      m.time = {} ∧ m.line.lock = s.node.line.lock ∧ m.store.configs = s.node.store.configs ∧ m.store.key = s.node.store.key ∧
      m.store.log = s.node.store.log ∧ m.store.writes = []) ∧
  (∀ (s : State) (a b : Int) (t : Nat), s.node.power.vcel = true → s.node.power.cresetn = true → s.node.power.resetn = true →
    s.node.power.railsGood = false → s.node.core.run = .held → [0, 2, 3].contains s.node.power.tapIr = false →
    Effect (.pwrgood a b t) s fun m => m.power.railsGood = true ∧ m.power.avddh = a ∧ m.power.avss = b ∧
      m.core.run = .steep { trigger := s.node.restart.trigger, start := (s.node.atT t).now }) ∧
  (∀ (s : State) (t : Nat), s.node.power.vcel = true → s.node.power.cresetn = true → s.node.power.railsGood = true →
    Effect (.pwrgoodDrop t) s fun m => m.core.run = .held ∧ m.power.railsGood = false ∧
      (s.node.up = true → m.core.pool = [] ∧ m.core.mode = .cask)) ∧
  (∀ (s : State) (t : Nat), s.node.power.vcel = true → s.node.power.cresetn = true →
    Effect (.resetnFall t) s fun m => m.core.run = .held ∧ m.power.resetn = false ∧ m.power.railsGood = false ∧
      (s.node.up = true → m.core.pool = [] ∧ m.core.mode = .cask)) ∧
  (∀ (s : State) (t : Nat), Effect (.resetnRise t) s fun m => m.power = { s.node.power with resetn := true } ∧ m.core = s.node.core) ∧
  (∀ (s : State) (t : Nat), s.node.power.cresetn = true →
    Effect (.cresetnFall t) s fun m => m.power.cresetn = false ∧ m.core = {} ∧ m.clients = [] ∧ m.sessions = [] ∧
      m.time = {} ∧ m.line.lock = s.node.line.lock ∧ m.store.configs = s.node.store.configs ∧ m.store.key = s.node.store.key ∧
      m.store.log = s.node.store.log ∧ m.store.writes = []) ∧
  (∀ (s : State) (t : Nat),
    Effect (.cresetnRise t) s fun m => m = { s.node with power := { s.node.power with cresetn := true } })

/-- R93, R95, R111, R509, R521: a watchdog expiry of a core that is up restarts it with a Steep and marks the expiry; a step at its
limit is abandoned; the PLL's lock lets Steep go on; a Steep whose store, image and detectors are good ends with the core up, in
CASK, with the output states due. -/
def Obligations.SteepSteps : Prop :=
  (∀ (s : State) (t : Nat), s.node.up = true → s.node.mayRun = true →
    Effect (.watchdogExpiry t) s fun m => (∃ r, m.core.run = .steep r ∧ r.trigger = .coreReset) ∧ m.core.pool = [] ∧
      m.restart.watchdog.isSome = true) ∧
  (∀ (s : State) (x : StepCut) (t : Nat) (r : SteepRun), s.node.power.vcel = true → s.node.power.cresetn = true →
    s.node.core.run = .steep r →
    Effect (.steepStepLimit x t) s fun m => m.core.run = .steep (match x with
      | .pll => { r with locked := false }
      | .checks i => { r with abandoned := r.abandoned ||| 2 ^ i.val })) ∧
  (∀ (s : State) (l : Bool) (t : Nat) (r : SteepRun), s.node.power.vcel = true → s.node.power.cresetn = true →
    s.node.core.run = .steep r →
    Effect (.pllRetry l t) s fun m => m.core.run = .steep { r with locked := r.locked || l }) ∧
  (∀ (s : State) (x : SteepResults) (t : Nat) (r : SteepRun), s.node.power.vcel = true → s.node.power.cresetn = true →
    s.node.core.run = .steep r → r.locked = true → s.node.core.faults.points = [] →
    let g : SteepGround := { r := x, abandoned := r.abandoned, pitched := 0 }
    let n := ((s.node.atT t).storeDamage g).loadWorking g
    n.steepBits g &&& steepLocking = 0 →
    Effect (.steepEnd x t) s fun m => m.up = true ∧ m.core.mode = .cask ∧ m.core.caskDue = true ∧ m.core.running = n.chooseImage g)

/-- R359 to R361: a fall of CLRN clears every output with DAC.CLREN = 1, a rise ends the clears; the pin's level is kept. -/
def Obligations.ClrnClearsOutputs : Prop :=
  (∀ (s : State) (t : Nat), s.node.up = true →
    Effect (.clrnFall t) s fun m => m.power.clrn = false ∧
      ∀ c : Ch, (s.node.atT t).parN Pid.dacClren c.val = 1 → (m.core.outs.get c).cleared = true) ∧
  (∀ (s : State) (t : Nat), s.node.up = true →
    Effect (.clrnRise t) s fun m => m.power.clrn = true ∧ ∀ c : Ch, (m.core.outs.get c).cleared = false)

/-- R602 to R604: each TAP instruction comes into force with the cells shifted in; EXTEST, HIGHZ and CLAMP hold the core, and a core
held by one of them starts a Steep when another instruction replaces it. -/
def Obligations.TapInstructions : Prop :=
  (∀ (s : State) (t : Nat) (cells : BitVec 86), s.node.power.vcel = true → s.node.power.cresetn = true →
    Effect (.extest cells t) s (fun m => m.power = { s.node.power with tapIr := 0, boundary := cells } ∧ m.core.run = .held) ∧
    Effect (.highz t) s (fun m => m.power = { s.node.power with tapIr := 2 } ∧ m.core.run = .held) ∧
    Effect (.clamp t) s (fun m => m.power = { s.node.power with tapIr := 3 } ∧ m.core.run = .held)) ∧
  (∀ (s : State) (t : Nat) (cells : BitVec 86), [0, 2, 3].contains s.node.power.tapIr = false →
    Effect (.samplePreload cells t) s
      (fun m => m.power = { s.node.power with tapIr := 1, boundary := cells } ∧ m.core = s.node.core) ∧
    Effect (.bypass t) s (fun m => m.power = { s.node.power with tapIr := 15 } ∧ m.core = s.node.core) ∧
    Effect (.tapReset t) s (fun m => m.power = { s.node.power with tapIr := 15 } ∧ m.core = s.node.core)) ∧
  (∀ (s : State) (t : Nat) (cells : BitVec 86), [0, 2, 3].contains s.node.power.tapIr = true → s.node.power.vcel = true →
    s.node.power.resetn = true → s.node.power.cresetn = true → s.node.power.railsGood = true →
    ∀ c ∈ [Instr.samplePreload cells t, .bypass t, .tapReset t],
      Effect c s fun m => ∃ r, m.core.run = .steep r ∧ r.trigger = .coreReset)

/-! ### Parameters and the store's configurations -/

/-- R570: PARAM_READ returns the value of each listed ID, in order, as of its execution, and changes nothing. -/
def Obligations.ParamReadReturnsTheValues : Prop :=
  ∀ (s : State) (p : Packet), s.node.runsNow (asRow .paramRead p) = true →
    Effect (.paramRead p) s (s.node.answersWith (asRow .paramRead p) .done
      [p.words.map fun w => (s.node.atCommit (asRow .paramRead p)).paramValue (s.node.localId (fld w 15 0))] false)

/-- R303, R308, R366, R571, R576, R578: when no check of the listed items fails, every command that writes items leaves the working set
with all of them written together and no other item changed. TICK.RATE has a statement of its own. -/
def Obligations.ItemWritesChangeTheWorkingSet : Prop :=
  ∀ (s : State) (p : Packet) (item : CaskItem) (r : RecordItem) (ch : Ch) (v : Word),
    let caskId := pidAt ((if item.inBlock then 0x05 else 0x04) * 1024 + item.item.toNat) ch.val
    let writes : List (Instr × Packet) :=
      [(.paramWrite p, asRow .paramWrite p), (.soundConfig p, asRow .soundConfig p),
       (.tickOutatWrite p v, writeOf p Pid.tickOutat v), (.nodeCaskexcWrite p v, writeOf p Pid.nodeCaskexc v),
       (.caskItemWriteExcited p item ch v, writeOf p caskId v),
       (.posOffsetWrite p ch v, writeOf p (pidAt Pid.posOffset ch.val) v), (.dacSrcWrite p ch v, writeOf p (pidAt Pid.dacSrc ch.val) v),
       (.dacClrenWrite p ch v, writeOf p (pidAt Pid.dacClren ch.val) v),
       (.dacClrcodeWrite p ch v, writeOf p (pidAt Pid.dacClrcode ch.val) v),
       (.dacRangeWrite p ch v, writeOf p (pidAt Pid.dacRange ch.val) v), (.refTselWrite p v, writeOf p Pid.refTsel v),
       (.lineCycleWrite p v, writeOf p Pid.lineCycle v), (.lineRecordWrite p r v, writeOf p (recordItemId r) v)]
    let fixed : List (Instr × Packet × Opcode) :=
      [(.setLimits p, asRow .setLimits p, .setLimits), (.gainSet p, asRow .gainSet p, .gainSet), (.emuSet p, asRow .emuSet p, .emuSet),
       (.dacConfig p, asRow .dacConfig p, .dacConfig)]
    (∀ w ∈ writes,
      let items := s.node.localItems w.2
      s.node.runsNow w.2 = true → (s.node.atCommit w.2).judgeItems (senderOf p) items = none →
      (∀ e ∈ items, e.1 ≠ Pid.tickRate) →
      Effect w.1 s fun m => m.core.params = s.node.core.params.putAll items) ∧
    ∀ w ∈ fixed,
      let items := s.node.opItemsAll w.2.2 w.2.1
      s.node.runsNow w.2.1 = true → (s.node.atCommit w.2.1).judgeItems (senderOf p) items = none →
      Effect w.1 s fun m => m.core.params = s.node.core.params.putAll items

/-- R571: a list of items of which one fails a check at its commit is refused whole: the reply names the status and the item's index,
and nothing is written. -/
def Obligations.RefusedWritesWriteNothing : Prop :=
  ∀ (s : State) (p : Packet) (st : Status) (ws : List Word), s.node.runsNow (asRow .paramWrite p) = true →
    (s.node.atCommit (asRow .paramWrite p)).judgeItems (senderOf p) (s.node.localItems (asRow .paramWrite p)) = some (st, ws) →
    Effect (.paramWrite p) s (s.node.answersWith (asRow .paramWrite p) st [ws] false)

/-- R128: a tick rate written at a boundary of both rates is in force at once, with K48 the time in force in ticks of the new rate;
elsewhere it waits, and TICK_RATE_CHANGE puts it in force at the next such boundary. -/
def Obligations.TickRateChanges : Prop :=
  (∀ (s : State) (p : Packet) (v : Word),
    let q := writeOf p Pid.tickRate v
    let r := TickRate.ofKhz v.toNat
    s.node.runsNow q = true → (s.node.atCommit q).judgeItems (senderOf p) (s.node.localItems q) = none →
    (s.node.time.lt % r.ns = 0 → s.node.time.lt % s.node.tick = 0 →
      Effect (.tickRateWrite p v) s fun m =>
        m.time.rate = r ∧ m.time.k48 = wrapK (s.node.time.lt / r.ns) ∧ m.time.outat = r.outDefault ∧ m.time.pendingRate = none) ∧
    (¬ (s.node.time.lt % r.ns = 0 ∧ s.node.time.lt % s.node.tick = 0) →
      Effect (.tickRateWrite p v) s fun m =>
        m.time.rate = s.node.time.rate ∧ m.time.k48 = s.node.time.k48 ∧
        m.time.pendingRate = some (r, none, (s.node.opFrom q).order, false))) ∧
  (∀ (s : State) (r : TickRate) (o : Option Nat) (k : Nat) (dflt : Bool), s.node.up = true →
    s.node.time.pendingRate = some (r, o, k, dflt) →
    (s.node.time.lt % r.ns = 0 → s.node.time.lt % s.node.tick = 0 → s.node.time.nextRate = none →
      Effect .tickRateChange s fun m =>
        m.time.rate = r ∧ m.time.k48 = wrapK (s.node.time.lt / r.ns) ∧ m.time.pendingRate = none ∧
        (dflt = false → m.time.outat = o.getD r.outDefault ∧ (s.node.core.params.wf = true → m.core.params.get Pid.tickRate = wN r.khz)) ∧
        ∀ x ∈ m.core.pool, x.phase = .waiting → x.scheduled = false) ∧
    (∀ (r2 : TickRate) (o2 : Nat), s.node.time.lt % r.ns = 0 → s.node.time.lt % s.node.tick = 0 →
      s.node.time.nextRate = some (r2, o2) → s.node.time.lt % r2.ns ≠ 0 →
      Effect .tickRateChange s fun m =>
        m.time.rate = r ∧ m.time.nextRate = none ∧ ∃ j, m.time.pendingRate = some (r2, some o2, j, false)) ∧
    (¬ (s.node.time.lt % r.ns = 0 ∧ s.node.time.lt % s.node.tick = 0) → Effect .tickRateChange s fun m => m = s.node)) ∧
  (∀ s : State, s.node.up = true → s.node.time.pendingRate = none → Effect .tickRateChange s fun m => m = s.node)

/-- R538 to R543: PARAM_SAVE and PARAM_RESTORE, with no configuration write running, queue the write of a configuration of the next
generation, the working set's or the previous one's, in the slot that is not current, which shows generation 0 until the write is done;
PARAM_DEFAULTS gives every item but TICK.RATE and LINE.HEADEN its After Steep value and clears the maps. -/
def Obligations.ConfigurationsAreSavedAndRestored : Prop :=
  (∀ (s : State) (p : Packet), s.node.runsNow (asRow .paramSave p) = true → s.node.store.configBusy = false →
    let b := s.node.store.otherSlot
    Effect (.paramSave p) s fun m => ∃ c : Config,
      c.records = s.node.records ∧ c.generation = s.node.store.current.generation + 1 ∧
      (m.store.configs.get b).generation = 0 ∧ m.store.configs.get (!b) = s.node.store.configs.get (!b) ∧
      m.store.writes = s.node.store.writes ++
        [{ kind := .config b c, op := some (s.node.opFrom (asRow .paramSave p)).order, words := [wN c.generation, wN (configCrc c)] }] ∧
      m.core.params = s.node.core.params) ∧
  (∀ (s : State) (p : Packet), s.node.runsNow (asRow .paramRestore p) = true → s.node.store.configBusy = false →
    s.node.store.previous.generation ≠ 0 →
    let b := s.node.store.otherSlot
    let c : Config := { s.node.store.previous with generation := s.node.store.current.generation + 1 }
    Effect (.paramRestore p) s fun m =>
      (m.store.configs.get b).generation = 0 ∧ m.store.configs.get (!b) = s.node.store.configs.get (!b) ∧
      m.store.writes = s.node.store.writes ++
        [{ kind := .config b c, op := some (s.node.opFrom (asRow .paramRestore p)).order, words := [wN c.generation, wN (configCrc c)] }] ∧
      ∀ ch, (m.core.fronts.get ch).trk.map = s.node.store.previous.maps.get ch) ∧
  (∀ (s : State) (p : Packet), s.node.runsNow (asRow .paramDefaults p) = true → s.node.time.pendingRate = none →
    s.node.time.rate = .k16 → s.node.core.params.wf = true →
    Effect (.paramDefaults p) s fun m =>
      (∀ id, id ≠ Pid.lineHeaden → id ≠ Pid.tickRate → id ≠ Pid.tickOutat → m.core.params.get id = paramDefault id) ∧
      m.time.outat = TickRate.outDefault .k16 ∧ ∀ ch, (m.core.fronts.get ch).trk.map = List.replicate 256 0)

/-! ### Time -/

/-- R142, R154, R155: TICK_REALIGN counts one realignment and marks its instant; TIME_READ and TICK_STATS return their words and change
nothing. -/
def Obligations.TimeCommands : Prop :=
  (∀ (s : State) (p : Packet), s.node.runsNow (asRow .tickRealign p) = true →
    Effect (.tickRealign p) s fun m =>
      m.time = { s.node.time with realigns := s.node.time.realigns + 1, lastRealign := some s.node.now } ∧
      m.sentTo (senderOf p) = s.node.sentTo (senderOf p) ++ s.node.finalReply (asRow .tickRealign p) .done [[]] false) ∧
  (∀ (s : State) (p : Packet), s.node.runsNow (asRow .timeRead p) = true →
    let t := s.node.time
    Effect (.timeRead p) s (s.node.answersWith (asRow .timeRead p) .done
      [[ltHi t.lt 0, ltLo t.lt, wN (t.k48 / 2 ^ 40 % 256), wN t.k48,
        wN (t.mark.code + flag (s.node.parN Pid.refTsel 0 == 1) 2 + flag s.node.holdover 3 + flag t.slewing 4 + t.rate.code * 32),
        wI t.devPpb, if t.lastSync.isSome then wI t.measuredOffset else 0]] false)) ∧
  (∀ (s : State) (p : Packet), s.node.runsNow (asRow .tickStats p) = true →
    let t := s.node.time
    Effect (.tickStats p) s (s.node.answersWith (asRow .tickStats p) .done
      [[wN t.realigns, wN t.steps, wN t.skipped, wN t.ignoredAligns, wN t.narrow, wN t.misses, wN t.longestP2]] false))

/-- R138 to R140: a SYNCIN pulse high for less than 50 ns is counted and does nothing more; in TIMESTAMP mode an edge moves no tick; in
ALIGN mode, under local time and not too soon after a realignment, the edge places a new P0 TICK.SYNCDLY later; there the ticks realign
and the time in force stands at a whole tick. -/
def Obligations.SyncinRealigns : Prop :=
  (∀ (s : State) (h t : Nat), s.node.power.vcel = true → s.node.power.cresetn = true →
    let n := s.node.atT t
    (h < 50 → Effect (.syncinEdge h t) s fun m => m = n.modTime fun x => { x with narrow := x.narrow + 1 }) ∧
    (50 ≤ h → n.parN Pid.tickSyncmode 0 = 0 → Effect (.syncinEdge h t) s fun m => m = n) ∧
    (50 ≤ h → n.parN Pid.tickSyncmode 0 = 1 → Effect (.syncinEdge h t) s fun m => m.time = n.time ∧ m.core = n.core) ∧
    (50 ≤ h → 2 ≤ n.parN Pid.tickSyncmode 0 → n.time.mark ≠ .lineTime → n.alignTooSoon = false →
      Effect (.syncinEdge h t) s fun m =>
        m.time = { n.time with alignDue := some (n.now + n.parN Pid.tickSyncdly 0) })) ∧
  (∀ (s : State) (t e : Nat), s.node.power.vcel = true → s.node.power.cresetn = true → s.node.time.alignDue = some e →
    s.node.time.p0e < e → e ≤ s.node.time.p0e + t → s.node.time.mark ≠ .lineTime →
    s.node.time.lt + (e - s.node.time.p0e) + s.node.tick ≤ 2 ^ 64 →
    Effect (.syncinRealign t) s fun m =>
      m.time.p0e = e ∧ m.time.dt = 0 ∧ m.time.lt % m.tick = 0 ∧ m.time.k48 = wrapK (m.time.lt / m.tick) ∧
      m.time.realigns = s.node.time.realigns + 1 ∧ m.time.alignDue = none)

/-- R133, R134, R146, R152: a slew ends once its offset is below 5 ns; a step puts the corrected time, at a whole tick, in force and
counts it; holdover ends line time after REF.THOLD; a fallback that is due puts the crystal in force. -/
def Obligations.TimeCorrections : Prop :=
  (∀ (s : State) (t : Nat), s.node.power.vcel = true → s.node.power.cresetn = true → s.node.time.slewing = true →
    s.node.time.offsetPs.natAbs < 5000 →
    Effect (.slewEnd t) s fun m => m.time.slewing = false ∧ m.time.returning = false ∧
      m.time.mark = if s.node.time.returning then .lineTime else s.node.time.mark) ∧
  (∀ (s : State) (off : Int), s.node.power.vcel = true → s.node.power.cresetn = true → s.node.time.stepDue = some off →
    (0 : Int) ≤ s.node.lt + off → (s.node.lt : Int) + off + s.node.tick ≤ 2 ^ 64 →
    Effect .timeStep s fun m => m.time.stepDue = none ∧ m.time.steps = s.node.time.steps + 1 ∧
      m.time.realigns = s.node.time.realigns + 1 ∧ m.time.lt % m.tick = 0 ∧ m.time.k48 = wrapK (m.time.lt / m.tick) ∧
      (s.node.lt : Int) + off ≤ m.time.lt ∧ (m.time.lt : Int) < s.node.lt + off + m.tick ∧ m.time.dt = 0) ∧
  (∀ (s : State) (t e : Nat), s.node.power.vcel = true → s.node.power.cresetn = true → s.node.time.lastSync = some e →
    e + (s.node.atT t).parN Pid.refThold 0 ≤ (s.node.atT t).now →
    Effect (.holdoverEnd t) s fun m => m.time.lastSync = none ∧ m.time.slewing = false ∧ m.time.stepDue = none ∧
      m.time.mark = if s.node.time.mark = .lineTime then .localTime else s.node.time.mark) ∧
  (∀ s : State, s.node.power.vcel = true → s.node.power.cresetn = true → s.node.time.fallbackDue = true →
    Effect .timeFallback s fun m => m.time.fallback = true ∧ m.time.fallbackDue = false ∧ m.time.slewing = false ∧
      m.time.lt = s.node.time.lt ∧ m.time.mark = if s.node.time.mark = .lineTime then .localTime else s.node.time.mark)

/-- R149, R150: a window of at least 1 s closes with its deviation in ppb and opens the next; a crystal more than 2.5 % from the arbiter
is reported as F.REF_T. -/
def Obligations.DriftIsJudged : Prop :=
  (∀ (s : State) (x0 x1 a : Int) (t opened e line : Nat), s.node.power.vcel = true → s.node.power.cresetn = true →
    s.node.time.windowOpen = some (opened, e) → s.node.time.lineAt = some (line, (s.node.atT t).now) →
    0 ≤ ltDiff line opened → 1000000000 ≤ x1 - x0 → s.node.core.faults.points = [] → s.node.time.fallback = false →
    Effect (.driftWindowClose x0 x1 a t) s fun m =>
      m.time.devPpb = roundDiv ((ltDiff line opened - (x1 - x0)) * 1000000000) (x1 - x0) ∧ m.time.windowOpen = some (line, (s.node.atT t).now) ∧
      (25000 < a.natAbs → s.node.up = true → m.reported .refT 0xFF)) ∧
  (∀ (s : State) (a : Int) (t : Nat), s.node.power.vcel = true → s.node.power.cresetn = true → s.node.time.windowOpen = none →
    Effect (.crystalArbiterCheck a t) s fun m =>
      m.time.crystalOut = decide (25000 < a.natAbs) ∧ (25000 < a.natAbs → s.node.up = true → m.reported .refT 0xFF))

/-! ### Faults, pitch points and references -/

/-- R508, R518, R519, R530 to R532: CLEAR_FAULTS takes out exactly the included instances whose condition has ceased; FAULT_READ and
FAULT_LOG return their words and change nothing; PITCH_ARM arms a point under a free handle and returns it; PITCH_DISARM
removes the points it names and returns their number. -/
def Obligations.FaultCommands : Prop :=
  (∀ (s : State) (p : Packet), s.node.runsNow (asRow .clearFaults p) = true →
    let gone := s.node.core.faults.insts.filter fun i => s.node.clearIncludes (asRow .clearFaults p) i && s.node.clearable i
    Effect (.clearFaults p) s fun m =>
      m.core.faults.insts =
        s.node.core.faults.insts.filter fun j => !(gone.any fun i => j.code == i.code && j.scope == i.scope)) ∧
  (∀ (s : State) (p : Packet), s.node.runsNow (asRow .faultRead p) = true →
    let is := s.node.core.faults.insts.foldl (fun a i => insertInst i a) []
    Effect (.faultRead p) s (s.node.answersWith (asRow .faultRead p) .done
      ((chunksOf 49 is.length is).map fun xs => wN is.length :: xs.flatMap FaultInst.words) false)) ∧
  (∀ (s : State) (p : Packet), s.node.runsNow (asRow .faultLog p) = true →
    let w := pw p 0
    let es := (if bitOf w 25 then logFrom (fld w 24 9) s.node.store.log else s.node.store.log).take (fld w 8 0)
    Effect (.faultLog p) s (s.node.answersWith (asRow .faultLog p) .done (inPackets (es.flatMap LogEntry.words)) false)) ∧
  (∀ (s : State) (p : Packet) (f : FaultCode), s.node.runsNow (asRow .pitchArm p) = true →
    let sc := s.node.localScope f (fld (pw p 0) 23 16)
    FaultCode.ofCode (fld (pw p 0) 15 0) = some f → s.node.core.faults.points.length < 8 → s.node.pitchApplies f sc = true →
    (∀ x ∈ s.node.core.faults.points, ¬(x.code = f ∧ x.scope = sc)) →
    Effect (.pitchArm p) s fun m => ∃ x : PitchPoint, s.node.replies (asRow .pitchArm p) .done [[wN x.handle]] m ∧
      m.core.faults = { s.node.core.faults with points := s.node.core.faults.points ++ [x] } ∧
      x.handle < 8 ∧ (∀ y ∈ s.node.core.faults.points, y.handle ≠ x.handle) ∧
      x.code = f ∧ x.scope = sc ∧ x.due = wrapK (s.node.time.k48 + fld (pw p 1) 39 16) ∧
      x.left = if fld (pw p 0) 25 24 = 0 then some 1 else if fld (pw p 0) 25 24 = 1 then some (fld (pw p 1) 15 0) else none) ∧
  (∀ (s : State) (p : Packet), s.node.runsNow (asRow .pitchDisarm p) = true →
    let named := fun (x : PitchPoint) => bitOf (pw p 0) 3 || x.handle == fld (pw p 0) 2 0
    Effect (.pitchDisarm p) s fun m =>
      m.core.faults = { s.node.core.faults with points := s.node.core.faults.points.filter fun x => !named x } ∧
      s.node.replies (asRow .pitchDisarm p) .done [[wN (s.node.core.faults.points.filter named).length]] m)

/-- R499, R500, R503, R512, R515, R516: one waiting verdict of class 1 becomes an active instance and acts on nothing; of class 3 it
takes the node to CASK; a following error of class 2 on a running slot with FLT.ACTION PARK parks it. At the end of a 10 ms window the
counted occurrences form one log entry. A log entry that has waited 20 ms is reported as F.LOG_WRITE. -/
def Obligations.VerdictsAreDelivered : Prop :=
  (∀ (s : State) (t : Nat) (v : Verdict), s.node.up = true → s.node.core.faults.verdicts = [v] → s.node.core.rests = [] →
    v.ceased = false → s.node.inst v.code v.scope = none →
    (v.cls = 1 →
      Effect (.faultVerdict t) s fun m =>
        m.core.faults.insts = s.node.core.faults.insts ++
          [{ code := v.code, scope := v.scope, cls := 1, present := true, injected := v.injected,
             raised := (s.node.atT t).stamp, ctx := v.ctx }] ∧
        m.core.faults.verdicts = [] ∧ m.core.slots = s.node.core.slots ∧ m.core.mode = s.node.core.mode) ∧
    (v.cls = 3 → Effect (.faultVerdict t) s fun m => m.core.mode = .cask ∧ m.core.faults.verdicts = []) ∧
    (∀ c : Ch, v.cls = 2 → v.code = .ferr → v.scope = c.val → s.node.slotRunning c = true → s.node.fltAction c = .park →
      Effect (.faultVerdict t) s fun m => (m.core.slots.get c).parked = true ∧ (m.core.outs.get c).parked = true)) ∧
  (∀ (s : State) (t : Nat) (w : FaultWindow), s.node.up = true →
    s.node.core.faults.windows.find? (fun x => x.code.code == w.code.code && x.scope == w.scope) = some w →
    w.ends ≤ (s.node.atT t).now →
    (w.count = 0 → Effect (.faultWindowEnd w.code.code w.scope t) s fun m =>
      m.core.faults.log = s.node.core.faults.log ∧
      ∀ x ∈ m.core.faults.windows, ¬(x.code = w.code ∧ x.scope = w.scope)) ∧
    (w.count ≠ 0 → Effect (.faultWindowEnd w.code.code w.scope t) s fun m =>
      ∃ x : PendingLog, m.core.faults.log = s.node.core.faults.log ++ [x] ∧ x.entry.code = w.code ∧ x.entry.scope = w.scope ∧
        x.entry.occurrences = w.count ∧ x.entry.ctx = w.ctx ∧ x.formed = (s.node.atT t).now)) ∧
  (∀ (s : State) (t : Nat), s.node.up = true → (∃ x ∈ s.node.core.faults.log, x.overdue (s.node.atT t).now = true) →
    s.node.isActive .logWrite 0xFF = false →
    Effect (.logWriteTimeout t) s fun m =>
      m.reported .logWrite 0xFF ∧ ∀ x ∈ m.core.faults.log, x.overdue (s.node.atT t).now = false)

/-- R521, R536: the reading is FLT.TJ; a second one in succession above 125 °C is reported as F.OVERTEMP, and one more than 5 K below
FLT.TJWARN ends the warning; every ECC error found is reported, an uncorrectable one as class 3, and the store counts what it
corrected. -/
def Obligations.TemperatureAndScrubs : Prop :=
  (∀ (s : State) (tj : Word) (t : Nat), s.node.up = true → s.node.core.faults.points = [] →
    Effect (.tjReading tj t) s fun m => m.core.faults.tj = tj ∧
      (125 * 65536 < tj.toInt → 1 ≤ s.node.core.faults.tjHot → m.reported .overtemp 0xFF) ∧
      (tj.toInt < s.node.par Pid.fltTjwarn 0 - 5 * 65536 → tj.toInt ≤ 125 * 65536 →
        ∀ i, s.node.inst .overtemp 0xFF = some i → i.present = true → i.cls ≤ 1 → m.inst .overtemp 0xFF = none)) ∧
  (∀ (s : State) (errs : List EccError) (t : Nat), s.node.up = true → s.node.core.faults.points = [] →
    Effect (.sramScrub errs t) s (fun m => ∀ e ∈ errs, ∃ v ∈ m.core.faults.verdicts,
      v.code = .sramEcc ∧ v.scope = 0xFF ∧ v.cls = (if e.uncorrectable then 3 else 0) ∧ v.ctx = eccCtx e.addr.toNat e.uncorrectable) ∧
    Effect (.storeScrub errs t) s (fun m =>
      m.store.corrected = s.node.store.corrected + (errs.filter fun e => !e.uncorrectable).length ∧
      ∀ e ∈ errs, ∃ v ∈ m.core.faults.verdicts,
        v.code = .storeEcc ∧ v.scope = 0xFF ∧ v.cls = (if e.uncorrectable then 3 else 0) ∧
        v.ctx = eccCtx e.addr.toNat e.uncorrectable))

/-- R522 to R526, R528: a window's three deviations are kept; a second window in succession with a pair beyond 7,500 ppm is the fault
band, blames the reference of which both pairs lie beyond 3,750 ppm while the third does not, and is reported as F.REF_V; REF_SWITCH
moves each waiting output of its group to the other reference at the same code; REF_STATUS shows deviations, creep, blame and band. -/
def Obligations.ReferencesAreJudged : Prop :=
  (∀ (s : State) (a b d : Int) (t : Nat), s.node.up = true → s.node.core.faults.points = [] → s.node.core.faults.refs.fitted = true →
    Effect (.refWindowClose a b d t) s fun m =>
      m.core.faults.refs.hist.head? = some (a, b, d) ∧ m.core.faults.refs.closed = s.node.core.faults.refs.closed + 1 ∧
      (7500 < a.natAbs ∨ 7500 < b.natAbs ∨ 7500 < d.natAbs → 1 ≤ s.node.core.faults.refs.faultWindows →
        m.core.faults.refs.band = 2 ∧ m.reported .refV 0xFF ∧
        m.core.faults.refs.blamed =
          (if 3750 < a.natAbs ∧ 3750 < d.natAbs ∧ b.natAbs ≤ 3750 then 0
           else if 3750 < b.natAbs ∧ 3750 < d.natAbs ∧ a.natAbs ≤ 3750 then 1
           else if 3750 < a.natAbs ∧ 3750 < b.natAbs ∧ d.natAbs ≤ 3750 then 2 else 3))) ∧
  (∀ (s : State) (g : Bool) (t : Nat), s.node.up = true → s.node.core.params.wf = true →
    Effect (.refSwitch g t) s fun m => ∀ (c : Ch) (b : Bool),
      (s.node.core.faults.refs.switchTo.get c = some b → s.node.inGroup g c = true →
        m.core.params.get (pidAt Pid.dacRef c.val) = wN (flag b 0) ∧ (m.core.outs.get c).switched = true ∧
        (m.core.outs.get c).code = (s.node.core.outs.get c).code ∧ m.core.faults.refs.switchTo.get c = none) ∧
      (s.node.inGroup g c = false → m.core.outs.get c = s.node.core.outs.get c ∧
        m.core.faults.refs.switchTo.get c = s.node.core.faults.refs.switchTo.get c)) ∧
  (∀ (s : State) (p : Packet), s.node.runsNow (asRow .refStatus p) = true → 70 ≤ s.node.core.faults.refs.closed →
    let r := s.node.core.faults.refs
    let d := r.hist.headD (0, 0, 0)
    let c := creepSums r.hist
    Effect (.refStatus p) s (s.node.answersWith (asRow .refStatus p) .done
      [[wI d.1, wI d.2.1, wI d.2.2, creepWord c.1, creepWord c.2.1, creepWord c.2.2,
        wN (r.blamed + r.band * 4 + flag r.creep 4 + flag r.fitted 5 + chBits 6 fun c => (s.node.core.outs.get c).switched),
        wI s.node.time.devPpb]] false)) ∧
  (∀ (s : State) (p : Packet), s.node.runsNow (asRow .refStatus p) = true →
    Effect (.refStatus p) s fun m => m.core.faults = s.node.core.faults ∧ m.core.outs = s.node.core.outs)

/-! ### Positions -/

/-- R210, R214, R231, R232, R265 to R270, R573, R574: READ_POSITION and HISTORY_READ return their groups; SET_POSITION makes the
channel read as asked and returns the new POS.OFFSET; CALIBRATE_ANGLE starts a learning, sets, returns or clears the map;
EXTRAPOLATE answers at once from stored samples and for a prediction, and otherwise waits. -/
def Obligations.PositionCommands : Prop :=
  (∀ (s : State) (p : Packet), let q := asRow .readPosition p
    s.node.runsNow q = true →
    Effect (.readPosition p) s (s.node.answersWith q .done
      [[ltHi s.node.time.lt 0, ltLo s.node.time.lt] ++ (s.node.chans q).flatMap fun c =>
        s.node.kilnedGroup c ++ (if p.greenOk then s.node.greenGroup c else [])] p.greenOk)) ∧
  (∀ (s : State) (p : Packet) (k : Kil), let q := asRow .setPosition p
    let c := s.node.chan q
    s.node.runsNow q = true → s.node.slotRunning c = false → s.node.kilned c = some k → s.node.core.params.wf = true →
    Effect (.setPosition p) s fun m => (m.kilnedGroup c).head? = some (pw p 0) ∧
      m.core.params = s.node.core.params.put (pidAt Pid.posOffset c.val) (pw p 0 - wI k.u) ∧
      s.node.replies q .done [[pw p 0 - wI k.u]] m) ∧
  (∀ (s : State) (p : Packet) (c : Ch),
    (s.node.runsNow (withBits 0 2 0 (asRow .calibrateAngle p)) = true → c = s.node.chan (asRow .calibrateAngle p) →
      s.node.mode c ≠ .sincos → s.node.mode c ≠ .hall → s.node.mayLearn c = true → (s.node.core.fronts.get c).trk.learn = none →
      (s.node.core.fronts.get c).trk.running = true →
      Effect (.calibrateAngleLearn p) s fun m =>
        s.node.goesOn (withBits 0 2 0 (asRow .calibrateAngle p)) m ∧
        (m.core.fronts.get c).trk.learn = some { op := (s.node.opFrom (withBits 0 2 0 (asRow .calibrateAngle p))).order }) ∧
    (s.node.runsNow (withBits 0 2 1 (asRow .calibrateAngle p)) = true → c = s.node.chan (asRow .calibrateAngle p) →
      s.node.mode c ≠ .sincos → s.node.mode c ≠ .hall →
      Effect (.calibrateAngleWrite p) s fun m => (m.core.fronts.get c).trk.mapNext = some (mapOfWords (p.words.drop 1)) ∧
        s.node.replies (withBits 0 2 1 (asRow .calibrateAngle p)) .done [[]] m) ∧
    (s.node.runsNow (withBits 0 2 2 (asRow .calibrateAngle p)) = true → c = s.node.chan (asRow .calibrateAngle p) →
      s.node.mode c ≠ .sincos → s.node.mode c ≠ .hall →
      Effect (.calibrateAngleRead p) s (s.node.answersWith (withBits 0 2 2 (asRow .calibrateAngle p)) .done
        [wordsOfMap (s.node.core.fronts.get c).trk.map] false)) ∧
    (s.node.runsNow (withBits 0 2 3 (asRow .calibrateAngle p)) = true → c = s.node.chan (asRow .calibrateAngle p) →
      s.node.mode c ≠ .sincos → s.node.mode c ≠ .hall →
      Effect (.calibrateAngleClear p) s fun m => (m.core.fronts.get c).trk.mapNext = some (List.replicate 256 0) ∧
        s.node.replies (withBits 0 2 3 (asRow .calibrateAngle p)) .done [[]] m)) ∧
  (∀ (s : State) (p : Packet), let q := asRow .historyRead p
    let k := if fld (pw p 0) 11 0 = 0 then 4096 else fld (pw p 0) 11 0
    let es := (((s.node.core.pos.get (s.node.chan q)).hist.filter fun h =>
      decide (ltOf (pw p 1) (pw p 2) ≤ h.st.lt)).reverse).take k
    s.node.runsNow q = true →
    Effect (.historyRead p) s (s.node.answersWith q .done
      ((chunksOf 50 es.length es).map fun x => x.flatMap fun h =>
        [s.node.p40 (s.node.chan q) h.u, wI h.v, vm40 0 false h.st.mark 0 0, ltHi h.st.lt 0, ltLo h.st.lt]) false)) ∧
  (∀ (s : State) (p : Packet) (k a b : Kil), let q := withBits 0 2 0 (asRow .extrapolate p)
    let c := s.node.chan q
    let t := ltOf (pw p 1) (pw p 2)
    s.node.runsNow q = true → fld (pw p 0) 3 2 = 0 → (s.node.samples c).head? = some k →
    (ltLe t k.st.lt = true → bracket t (s.node.samples c) = some (a, b) → a.st.mark = .lineTime → b.st.mark = .lineTime →
      Effect (.extrapolatePosAt p) s (s.node.answersWith q .done
        [s.node.valueAt c a b t ++ (if p.greenOk then s.node.greenGroup c else [])] p.greenOk)) ∧
    (ltLe t k.st.lt = false → s.node.tooFar t = false → (s.node.core.fronts.get c).trk.running = true →
      Effect (.extrapolatePosAt p) s fun m => s.node.goesOn q m ∧ ∃ w : ExtrapWait,
        m.core.extraps = s.node.core.extraps ++ [w] ∧ w.op = (s.node.opFrom q).order ∧ w.ch = c ∧ w.kind = .posAt t)) ∧
  (∀ (s : State) (p : Packet) (k : Kil), let q := withBits 0 2 1 (asRow .extrapolate p)
    let c := s.node.chan q
    let f := s.node.core.fronts.get c
    let t := ltOf (pw p 1) (pw p 2)
    let e := ((s.node.time.p0e : Int) + ltDiff t s.node.time.lt).toNat
    s.node.runsNow q = true → fld (pw p 0) 3 2 = 0 → p.greenOk = true → s.node.tooFar t = false → s.node.kilned c = some k →
    ltLe t k.st.lt = false →
    Effect (.extrapolatePredict p) s (s.node.answersWith q .done
      [s.node.kilnedMark c ++ [s.node.p40 c (frontPg s.node.core.params c.val f e), wI f.trk.basis.v,
        vm40 1 f.trk.basis.coast f.trk.basis.st.mark 6 ((e : Int) - f.trk.basis.st.e),
        wI (greenBound s.node.core.params c.val (s.node.mode c) f.trk e)]] true)) ∧
  (∀ (s : State) (p : Packet), let q := withBits 0 2 2 (asRow .extrapolate p)
    let c := s.node.chan q
    let t := ltOf (pw p 1) (pw p 2)
    s.node.runsNow q = true → fld (pw p 0) 3 2 = 0 → s.node.samples c = [] → s.node.tooFar t = false →
    Effect (.extrapolateTimeAt p) s fun m => s.node.goesOn q m ∧ ∃ w : ExtrapWait,
      m.core.extraps = s.node.core.extraps ++ [w] ∧ w.op = (s.node.opFrom q).order ∧ w.ch = c ∧
      w.kind = .timeAt (s.node.rawTarget c (pw p 3)) (fld (pw p 4) 1 0 == 1) t
        (s.node.time.p0e + fld (pw p 4) 18 2 * 1000000))

/-- R215, R234, R268, R271: a finished learning installs its map, sets TRK.MAPEN and ends its command; the kilned step at or after the
instant asked for completes POS_AT; a kilned crossing completes TIME_AT; at its timeout TIME_AT ends with kind NONE. -/
def Obligations.WaitingPositionsComplete : Prop :=
  (∀ (s : State) (c : Ch) (l : Learn) (es : List Int), s.node.up = true → (s.node.core.fronts.get c).trk.learn = some l →
    l.outcome = some (some es) → s.node.core.params.wf = true →
    Effect (.calibrateAngleLearnDone c) s fun m =>
      (m.core.fronts.get c).trk.learn = none ∧ (m.core.fronts.get c).trk.mapNext = some (es.map (BitVec.ofInt 16)) ∧
      m.core.params.get (pidAt Pid.trkMapen c.val) = 1) ∧
  (∀ (s : State) (slot : Nat) (w : ExtrapWait) (op : PoolOp), s.node.up = true → s.node.extrapOf slot = some w →
    s.node.opOf w.op = some op → op.side = .here →
    let tr := (s.node.core.fronts.get w.ch).trk
    let ends := fun (ws : List Word) (green : Bool) (m : Node) =>
      m.opOf w.op = none ∧ m.core.extraps = s.node.core.extraps.filter (fun x => x.op != w.op) ∧
      m.sentTo (senderOf op.packet) = s.node.sentTo (senderOf op.packet) ++ s.node.finalReply op.packet .done [ws] green
    (∀ (t : Nat) (k : Kil), w.kind = .posAt t → tr.kil = some k → ltLe t k.st.lt = true →
      let ab := (bracket t (s.node.samples w.ch)).getD (k, k)
      Effect (.extrapolateValueReady slot) s (ends (s.node.valueAt w.ch ab.1 ab.2 t ++
        (if op.packet.greenOk then s.node.greenGroup w.ch else [])) op.packet.greenOk)) ∧
    (∀ (target : Int) (rev : Bool) (start d : Nat) (a b : Kil), w.kind = .timeAt target rev start d → tr.kilBefore = some a →
      tr.kil = some b → crosses (if rev then 1 else 0) target a.u b.u = true → ltLe start (crossStamp a b target).lt = true →
      Effect (.timeAtCrossing slot) s (ends (timeWords a b target) false)) ∧
    (∀ (target : Int) (rev : Bool) (start d t : Nat), w.kind = .timeAt target rev start d → d ≤ (s.node.atT t).now →
      Effect (.timeAtTimeout slot t) s (ends [0, 0, 0, vmNone] false)))

/-! ### Motion -/

/-- R312 to R319: MOVE_TO and MOVE_BY on a running position slot, judged reachable, install their plan to the target, a P40 target of
a linear axis at its own place; JOG on a running slot plans its velocity. Each goes on. -/
def Obligations.MovesStart : Prop :=
  ∀ (s : State) (p : Packet) (oc : Opcode), let q := asRow oc p
    let c := s.node.chan q
    let own := fun (k : MotionKind) (x : Slot) => x.active = some ((s.node.opFrom q).order, k)
    s.node.runsNow q = true → (∀ a, (s.node.core.slots.get c).active = some a → a.1 ≠ (s.node.opFrom q).order) →
    s.node.slotRunning c = true → s.node.refusesMotion c = false →
    (∀ (segs : List Seg) (target : Int) (beyond : Option Int), (s.node.kind c).outer = true →
      (oc = .moveTo → ¬(s.node.parN Pid.prfAxis c.val = 1 ∧ ((pw p 0).toInt < 0 ∨ s.node.modulus c ≤ (pw p 0).toInt)) →
        s.node.judgeMoveTo c (pw p 0) = .go segs target beyond →
        Effect (.moveTo p) s fun m => s.node.goesOn q m ∧ own .move (m.core.slots.get c) ∧
          (m.core.slots.get c).segs = segs ∧ (m.core.slots.get c).target = some target ∧
          (m.core.slots.get c).planEnd = .target target ∧
          (s.node.parN Pid.prfAxis c.val ≠ 1 →
            (target - (p40ToFx (pw p 0) - auToFx (s.node.offset c))) % fxWrap = 0)) ∧
      (oc = .moveBy → s.node.judgeMoveBy c (pw p 0) = .go segs target beyond →
        Effect (.moveBy p) s fun m => s.node.goesOn q m ∧ own .move (m.core.slots.get c) ∧
          (m.core.slots.get c).segs = segs ∧ (m.core.slots.get c).target = some (s.node.moveByTarget c (pw p 0)) ∧
          (m.core.slots.get c).planEnd = .target target)) ∧
    (oc = .jog → s.node.kind c ≠ .follower → ((pw p 0).toInt.natAbs : Int) ≤ s.node.par Pid.prfVmax c.val →
      ¬(s.node.parN Pid.prfOneway c.val = 1 ∧ (pw p 0).toInt < 0) →
      Effect (.jog p) s fun m => s.node.goesOn q m ∧ own .jog (m.core.slots.get c) ∧
        (m.core.slots.get c).planEnd = .velocity (p40ToFx (pw p 0)) ∧ (m.core.slots.get c).target = none)

/-- R307, R312, R313, R322, R323: STOP brakes a moving slot and goes on, and is DONE at once where every slot it names rests; PARK parks
every slot it names; a move that has arrived, slots that have come to rest and a jog at its velocity end their command with DONE. -/
def Obligations.MotionEnds : Prop :=
  (∀ (s : State) (p : Packet) (c : Ch), let q := asRow .stop p
    s.node.runsNow q = true → s.node.allRunning q = true → s.node.core.rests = [] → s.node.chans q = [c] →
    s.node.kind c ≠ .follower → (∀ a, (s.node.core.slots.get c).active = some a → a.1 ≠ (s.node.opFrom q).order) →
    ¬((s.node.core.slots.get c).sp.v = 0 ∧ (s.node.core.slots.get c).sp.a = 0) →
    Effect (.stop p) s fun m => s.node.goesOn q m ∧ (m.core.slots.get c).braking = true ∧
      (m.core.slots.get c).segs = stopSegs (s.node.limits c) (s.node.core.slots.get c).sp ∧
      (m.core.slots.get c).active = some ((s.node.opFrom q).order, .stop)) ∧
  (∀ (s : State) (p : Packet), let q := asRow .stop p
    s.node.runsNow q = true → s.node.allRunning q = true → s.node.core.rests = [] →
    (∀ c : Ch, s.node.kind c ≠ .follower ∧ (s.node.core.slots.get c).active = none) →
    (∀ c ∈ s.node.chans q, (s.node.core.slots.get c).sp.v = 0 ∧ (s.node.core.slots.get c).sp.a = 0) →
    Effect (.stop p) s fun m => s.node.replies q .done [[]] m ∧ m.opOf (s.node.opFrom q).order = none ∧ m.core.rests = []) ∧
  (∀ (s : State) (p : Packet), let q := asRow .park p
    s.node.runsNow q = true → s.node.allRunning q = true →
    Effect (.park p) s fun m => ∀ c ∈ s.node.chans q, (m.core.slots.get c).parked = true ∧ (m.core.outs.get c).parked = true) ∧
  (∀ (s : State) (c : Ch) (op : PoolOp), s.node.up = true → s.node.opOf op.order = some op → op.side = .here →
    let done := fun (m : Node) => m.opOf op.order = none ∧
      m.sentTo (senderOf op.packet) = s.node.sentTo (senderOf op.packet) ++ s.node.finalReply op.packet .done [[]] false
    let x := s.node.core.slots.get c
    (x.active = some (op.order, .move) → x.arrived = true →
      Effect (.moveArrival c) s fun m => done m ∧ (m.core.slots.get c).active = none ∧ (m.core.slots.get c).target = none) ∧
    (∀ w : RestWait, s.node.core.rests = [w] → w.kind = .stop → w.op = some op.order → w.chs.all s.node.atRest = true →
      s.node.atRest c = true →
      Effect (.stopAtRest c) s fun m => done m ∧ m.core.rests = []) ∧
    (∀ v : Int, x.active = some (op.order, .jog) → x.planEnd = .velocity v → x.sp.v = v → x.sp.a = 0 →
      Effect (.jogVelocityReached c) s fun m => done m ∧ (m.core.slots.get c).active = none ∧ (m.core.slots.get c).sp = x.sp))

/-- R68 to R70, R302, R312, R313: LOOP_ENABLE that is admitted enables every named loop for its client and, in DRIVE, starts it;
outside DRIVE and TANDEM a disabling ends every named loop at once; CASCADE_SET makes a group of a leader and its followers with
their ratios. -/
def Obligations.LoopsAndGroups : Prop :=
  (∀ (s : State) (p : Packet), let q := withBits 0 1 1 (asRow .loopEnable p)
    let cs := s.node.chans q
    s.node.runsNow q = true → (∀ c ∈ cs, s.node.src c = 0 ∧ s.node.refusesMotion c = false) →
    (eachOf cs (fun c m => m.modSlot c fun x => { x with enabled := true }) s.node).admissionNow = none →
    Effect (.loopEnable p) s fun m => s.node.replies q .done [[]] m ∧ ∀ c ∈ cs,
      (m.core.slots.get c).enabled = true ∧
      (m.core.slots.get c).owner = (match senderOf p with
        | .line i => some i
        | .ctxL => (s.node.core.slots.get c).owner) ∧
      (s.node.driving = true → s.node.slotRunning c = false → m.slotRunning c = true)) ∧
  (∀ (s : State) (p : Packet), let q := withBits 0 1 0 (asRow .loopEnable p)
    s.node.runsNow q = true → (∀ c ∈ s.node.chans q, s.node.src c = 0) → s.node.driving = false → s.node.core.rests = [] →
    Effect (.loopDisable p) s fun m => m.opOf (s.node.opFrom q).order = none ∧ ∀ c ∈ s.node.chans q,
      (m.core.slots.get c).enabled = false ∧ (m.core.slots.get c).owner = none) ∧
  (∀ (s : State) (p : Packet) (c : Ch), let q := asRow .cascadeSet p
    let l := leaderOf q
    let fs := followersOf q
    s.node.runsNow q = true → s.node.driving = false → s.node.ownCh l = some c → (s.node.core.slots.get c).remote = 0 →
    (∀ f ∈ fs, f.1 ≠ l ∧ ∃ x, s.node.ownCh f.1 = some x ∧ (s.node.core.fronts.get x).unavailable = false) →
    (s.node.kind c).outer = true → fs ≠ [] → (s.node.setGroup c fs).admissionNow = none →
    Effect (.cascadeSet p) s fun m => s.node.replies q .done [[]] m ∧ m.kind c = .leader ∧
      ∀ f ∈ fs, ∀ x, s.node.ownCh f.1 = some x →
        (m.core.slots.get x).leader = some l ∧ (m.core.slots.get x).ratio = f.2 ∧ m.kind x = .follower)

/-- R294, R295, R297 to R301, R304: with its setpoints advanced, PHASE_B computes every running slot outside a group that has its
sample, by the loops of R297 and R298, and gives a code that is in time to its output; one without a sample holds, and a slot that
does not run is untouched. -/
def Obligations.PhaseBComputes : Prop :=
  ∀ (s : State) (stall : Nat), s.node.up = true → s.node.core.phaseA = true → s.node.core.phaseB = false →
    s.node.core.faults.points = [] →
    Effect (.phaseB stall) s fun m => m.core.phaseB = true ∧ ∀ c : Ch,
      (s.node.slotRunning c = false → m.core.slots.get c = s.node.core.slots.get c) ∧
      (s.node.slotRunning c = true → s.node.hasSample c = false → m.core.slots.get c = (s.node.core.slots.get c).hold) ∧
      (s.node.slotRunning c = true → s.node.hasSample c = true → s.node.kind c ≠ .follower →
        let k := s.node.lastKil c
        let x : SlotIn := { p := auToFx k.u, v := auToFx k.v, follow := none, outer := s.node.outerDue c }
        let r := (s.node.loopStep c x (s.node.core.slots.get c)).1
        let code := outputCode (s.node.par Pid.ctlOutzero c.val) (s.node.par Pid.ctlOutspan c.val) r.y
        (m.core.slots.get c).computed = true ∧ (m.core.slots.get c).i = r.i ∧ (m.core.slots.get c).j = r.j ∧
        (m.core.slots.get c).vc = r.vc ∧ (m.core.slots.get c).y = r.y ∧
        ∃ fin : Nat, (m.core.slots.get c).code = some (code, fin) ∧
          (fin * 5 ≤ s.node.time.outat → s.node.src c = 0 →
            (m.core.outs.get c).inreg = BitVec.ofNat 18 code ∧ (m.core.outs.get c).fresh = true))

/-! ### Latches and hops -/

/-- R223, R253, R255 to R262: LATCH_ARM arms its input from P0 of its tick and goes on, or with mode OFF leaves it unarmed; LATCH_READ
returns the readable entries, which leave the FIFO without PEEK; an accepted edge of an arming's kind enters the FIFO under the next
sequence number and ends a ONCE arming; an edge shorter than the filter is only counted; an index edge that counts waits for the next
sample. -/
def Obligations.LatchesCapture : Prop :=
  (∀ (s : State) (p : Packet) (m : ArmMode), let q := asRow .latchArm p
    let c := s.node.chan q
    let b := bitOf (pw p 0) 0
    let l := (s.node.core.pos.get c).latch
    s.node.runsNow q = true → armModeOf (fld (pw p 0) 4 3) = some m →
    (∀ a, l.arm b = some a → a.op ≠ (s.node.opFrom q).order) →
    (∀ e ∈ l.edges, e.1 = b → e.2.2.e < s.node.time.p0e) →
    Effect (.latchArm p) s fun n => s.node.goesOn q n ∧
      (n.core.pos.get c).latch.arm b = some
        { op := (s.node.opFrom q).order, mode := m, edge := armEdgeOf (fld (pw p 0) 2 1), n := fld (pw p 0) 20 5,
          since := s.node.time.p0e } ∧
      (n.core.pos.get c).latch.arm (!b) = l.arm (!b) ∧ (n.core.pos.get c).latch.fifo = l.fifo) ∧
  (∀ (s : State) (p : Packet), let q := withBits 3 2 0 (asRow .latchArm p)
    s.node.runsNow q = true → (∀ a, (s.node.core.pos.get (s.node.chan q)).latch.arm (bitOf (pw p 0) 0) = some a →
      a.op ≠ (s.node.opFrom q).order) →
    Effect (.latchArmOff p) s fun n => (n.core.pos.get (s.node.chan q)).latch.arm (bitOf (pw p 0) 0) = none ∧
      n.opOf (s.node.opFrom q).order = none) ∧
  (∀ (s : State) (p : Packet), let q := asRow .latchRead p
    let c := s.node.chan q
    let l := (s.node.core.pos.get c).latch
    let es := readableTake (fld (pw p 0) 6 0) l.fifo
    let words := (chunksOf 41 es.length es).map fun xs => xs.flatMap (s.node.latchWords c false)
    s.node.runsNow q = true →
    (bitOf (pw p 0) 7 = true → p.greenOk = false → Effect (.latchRead p) s (s.node.answersWith q .done words false)) ∧
    (bitOf (pw p 0) 7 = false → Effect (.latchRead p) s fun n =>
      (n.core.pos.get c).latch =
        { l with fifo := l.fifo.filter fun e => !(e.readable && (es.map LatchEntry.seq).contains e.seq) } ∧
      (p.greenOk = false → s.node.replies q .done words n))) ∧
  (∀ (s : State) (c : Ch) (b falling : Bool) (held t : Nat), let l := (s.node.core.pos.get c).latch
    let filter := s.node.parN (if b then Pid.latFiltb else Pid.latFilta) c.val
    s.node.up = true → (s.node.core.fronts.get c).trk.running = true →
    (heldLong filter held = false → filter ≠ 0 → Effect (.latchEdge c b falling held t) s fun n =>
      (n.core.pos.get c).latch = { l with reject := l.reject + 1 }) ∧
    (∀ a : Arming, heldLong filter held = true → l.arm b = some a → a.edge.takes falling = true →
      a.since ≤ (s.node.atT t).now → l.fifo.length < 64 → Effect (.latchEdge c b falling held t) s fun n =>
        (∃ e : LatchEntry, (n.core.pos.get c).latch.fifo = l.fifo ++ [e] ∧ e.st = (s.node.atT t).stamp ∧ e.seq = l.seq ∧
          e.source = (if b then .latB else .latA) ∧ e.falling = falling ∧ e.lostBefore = l.lostBefore) ∧
        (n.core.pos.get c).latch.seq = l.seq + 1 ∧
        (a.mode = .once → (n.core.pos.get c).latch.arm b = none) ∧
        (a.mode = .continuous → (n.core.pos.get c).latch.arm b = some { a with captures := a.captures + 1, lastSeq := l.seq }))) ∧
  (∀ (s : State) (c : Ch) (falling both : Bool) (held t : Nat), s.node.up = true →
    (s.node.core.fronts.get c).trk.running = true → (s.node.mode c = .sincos ∨ s.node.mode c = .hall) →
    heldLong (s.node.parN Pid.latFilti c.val) held = true → falling = !(s.node.core.fronts.get c).trk.dir →
    ¬(s.node.mode c = .sincos ∧ s.node.parN Pid.inIdxgate c.val = 1 ∧ both = false) →
    Effect (.indexEdge c falling both held t) s fun n =>
      (n.core.fronts.get c).trk.idxDue = (s.node.core.fronts.get c).trk.idxDue ++ [(s.node.atT t).stamp])

/-- R244, R245, R263: the kilned step after an entry's stamp makes it readable; a 10 ms window that counted nothing closes, and one that
counted raises its event and opens anew. -/
def Obligations.EntriesAndWindows : Prop :=
  (∀ (s : State) (c : Ch) (t : Nat), s.node.up = true →
    Effect (.latchEntryReady c t) s fun n =>
      (n.core.pos.get c).latch.fifo.map LatchEntry.seq = (s.node.core.pos.get c).latch.fifo.map LatchEntry.seq ∧
      ((s.node.core.fronts.get c).trk.running = false → ∀ e ∈ (n.core.pos.get c).latch.fifo, e.readable = true) ∧
      ∀ b, (s.node.core.fronts.get c).trk.kil = some b → ∀ e ∈ (n.core.pos.get c).latch.fifo, e.st.e < b.st.e → e.readable = true) ∧
  (∀ (s : State) (c : Ch) (t : Nat) (w : EvWindow), s.node.power.vcel = true → s.node.power.cresetn = true → s.node.up = true →
    w.ends ≤ (s.node.atT t).now →
    ((s.node.core.pos.get c).refuted = some w → Effect (.eventWindowEnd .refuted c t) s fun n =>
      (w.count = 0 → (n.core.pos.get c).refuted = none) ∧
      (w.count ≠ 0 → n.core.refutedNow = true ∧ ∃ v, (n.core.pos.get c).refuted = some v ∧ v.count = 0 ∧
        v.ends = (s.node.atT t).now + 10000000)) ∧
    ((s.node.core.pos.get c).latchLost = some w → Effect (.eventWindowEnd .latchLost c t) s fun n =>
      (w.count = 0 → (n.core.pos.get c).latchLost = none) ∧
      (w.count ≠ 0 → ∃ v, (n.core.pos.get c).latchLost = some v ∧ v.count = 0 ∧ v.ends = (s.node.atT t).now + 10000000))) ∧
  (∀ (s : State) (c : Ch) (t e k lt : Nat) (mk : TimeMark), s.node.power.vcel = true → s.node.power.cresetn = true →
    s.node.line.mismatchWindow = some (e, k, lt, mk) → e ≤ (s.node.atT t).now →
    Effect (.eventWindowEnd .hopMismatch c t) s fun n => n.line.mismatchWindow =
      if k = 0 then none else some ((s.node.atT t).now + 10000000, 0, lt, mk))

/-- R272 to R274, R282, R283: HOP_ADD arms every entry at its resolved target and returns the handles, or arms none; HOP_REMOVE takes out
the entries named and returns their number; HOP_LIST returns the live entries in the order of their targets. -/
def Obligations.HopCommands : Prop :=
  (∀ (s : State) (p : Packet), let q := asRow .hopAdd p
    let c := s.node.chan q
    let es := hopWords p.words
    s.node.runsNow q = true →
    ((∀ e ∈ es, (s.node.resolveHop c e.1 e.2.2.1 e.2.2.2).isSome = true) →
      Effect (.hopAdd p) s fun m => ∃ hs : List HopEntry, m.core.hops = s.node.core.hops ++ hs ∧ hs.length = es.length ∧
        s.node.replies q .done [hs.map HopEntry.word] m ∧
        ∀ (i : Nat) (h : HopEntry) (e : Word × Word × Word × Word), hs[i]? = some h → es[i]? = some e →
          s.node.resolveHop c e.1 e.2.2.1 e.2.2.2 = some (h.target, h.behind) ∧ h.ch = c ∧ h.client = senderOf p ∧
          h.w1 = e.2.1 ∧ h.w2 = e.2.2.1 ∧ h.w3 = e.2.2.2 ∧ h.crossed = none ∧
          h.expiry = if fld e.2.2.2 23 0 = 0 then none else some (s.node.time.p0e + fld e.2.2.2 23 0 * 1000000)) ∧
    ((∃ e ∈ es, s.node.resolveHop c e.1 e.2.2.1 e.2.2.2 = none) →
      Effect (.hopAdd p) s (s.node.answersWith q .outOfRange [[]] false))) ∧
  (∀ (s : State) (p : Packet),
    let takesOut := fun (q : Packet) (f : HopEntry → Bool) (m : Node) =>
      m.core.hops = s.node.core.hops.filter (fun h => !f h) ∧ s.node.replies q .done [[wN (s.node.core.hops.filter f).length]] m
    let a := withBits 0 2 0 (asRow .hopRemove p)
    let b := withBits 0 2 1 (asRow .hopRemove p)
    let d := withBits 0 2 2 (asRow .hopRemove p)
    (s.node.runsNow a = true → Effect (.hopRemoveByHandle p) s fun m => m.core.hops =
      s.node.core.hops.filter fun h => !((p.words.drop 1).any fun w => h.handle == fld w 23 0)) ∧
    (s.node.runsNow b = true → Effect (.hopRemoveByChannel p) s (takesOut b fun h => (s.node.chans b).contains h.ch)) ∧
    (s.node.runsNow d = true → Effect (.hopRemoveByOutput p) s
      (takesOut d fun h => (s.node.chans d).contains h.ch && h.output == fld (pw p 0) 4 2))) ∧
  (∀ (s : State) (p : Packet), let q := asRow .hopList p
    let c := s.node.chan q
    let mine := (s.node.core.hops.filter fun h => h.ch == c).foldl
      (fun a h => insertHop (s.node.core.fronts.get c).trk.dir h a) []
    s.node.runsNow q = true →
    Effect (.hopList p) s (s.node.answersWith q .done
      ((chunksOf 50 mine.length mine).map fun xs => xs.flatMap fun h => [h.word, s.node.p40 c h.target, h.w1, h.w2, h.w3]) false))

/-- R241, R276, R277, R279, R281: an entry without a wave trigger fires, on its kilned crossing at t_F or green, acts on its compare
output and is gone, a green one leaving what is judged later; at its expiry it is gone without acting; a pulse ends; a judged entry
beyond TRK.REFUTE is refuted. -/
def Obligations.HopsFire : Prop :=
  (∀ (s : State) (hd t : Nat) (h : HopEntry), s.node.up = true → s.node.hop hd = some h →
    let now := (s.node.atT t).now
    let fired := fun (m : Node) =>
      m.core.hops = s.node.core.hops.filter (fun x => x.handle != h.handle) ∧
      m.core.cmps[h.output]? = (s.node.core.cmps[h.output]?).map (CmpOut.act h.w2 now)
    (∀ (tx : Stamp) (tf : Nat), h.crossed = some (tx, tf) → tf ≤ now → (∀ e, h.expiry = some e → tf ≤ e) →
      bitOf h.w2 32 = false → Effect (.hopFireKilned hd t) s fun m => fired m ∧ m.core.fired = s.node.core.fired) ∧
    ((s.node.atT t).greenReady h = true → (∀ e, h.expiry = some e → now ≤ e) → bitOf h.w2 32 = false →
      Effect (.hopFireGreen hd t) s fun m => fired m ∧ ∃ f : FiredEntry, m.core.fired = s.node.core.fired ++ [f] ∧
        f.handle = h.handle ∧ f.ch = h.ch ∧ f.target = h.target ∧ f.fired = (s.node.atT t).stamp ∧
        f.crossing = (s.node.atT t).stamp.shift h.lead) ∧
    (∀ e, h.expiry = some e → e ≤ now → h.crossed = none → Effect (.hopExpiry hd t) s fun m =>
      m.core.hops = s.node.core.hops.filter (fun x => x.handle != h.handle) ∧ m.core.cmps = s.node.core.cmps)) ∧
  (∀ (s : State) (o : Fin 8) (t e : Nat) (x : CmpOut), s.node.up = true → s.node.core.cmps[o.val]? = some x →
    x.pulseEnd = some e → e ≤ (s.node.atT t).now → x.instant ≠ some (s.node.atT t).now →
    Effect (.comparePulseEnd o t) s fun m => ∃ y, m.core.cmps[o.val]? = some y ∧ y.active = false ∧ y.pulseEnd = none) ∧
  (∀ (s : State) (hd t : Nat) (f : FiredEntry) (a b : Kil), s.node.up = true →
    s.node.core.fired.find? (fun x => x.handle == hd) = some f → bracketAt f.crossing.e (s.node.samples f.ch) = some (a, b) →
    Effect (.firedEntryJudgement hd t) s fun m => m.core.fired = s.node.core.fired.filter (fun x => x != f) ∧
      ((diffAu (interpolate (s.node.offset f.ch) a b f.crossing.e).1 f.target).natAbs ≤ s.node.par Pid.trkRefute f.ch.val → m.core.pos = s.node.core.pos) ∧
      (s.node.par Pid.trkRefute f.ch.val < (diffAu (interpolate (s.node.offset f.ch) a b f.crossing.e).1 f.target).natAbs →
        (m.core.pos.get f.ch).refuted.isSome = true))

/-! ### Analogue outputs and waves -/

/-- R123, R295, R328, R329, R338 to R343: DAC_WRITE enters its codes; DAC_STROBE and an accepted LDAC edge load the fresh codes of their
group; at the output instant the groups on TICK load, the setpoints of running slots advance, and a computed slot whose code is late
misses its deadline. -/
def Obligations.OutputsAreWritten : Prop :=
  let loads := fun (n m : Node) (c : Ch) => (n.core.outs.get c).fresh = true → n.mayLoad c = true → n.scheduleRuns c = false →
    (m.core.outs.get c).code = (n.core.outs.get c).inreg
  (∀ (s : State) (p : Packet), let q := asRow .dacWrite p
    s.node.runsNow q = true →
    ((∀ c ∈ s.node.chans q, s.node.src c = 2) → Effect (.dacWrite p) s fun m => s.node.replies q .done [[]] m ∧
      (∀ (i : Nat) (c : Ch) (w : Word), (s.node.chans q)[i]? = some c → p.words[i]? = some w →
        (m.core.outs.get c).inreg = BitVec.ofNat 18 (fld w 17 0) ∧ (m.core.outs.get c).fresh = true) ∧
      ∀ c, (m.core.outs.get c).code = (s.node.core.outs.get c).code) ∧
    ((∃ c ∈ s.node.chans q, s.node.src c ≠ 2) →
      Effect (.dacWrite p) s (s.node.answersWith q .refusedUnsafe [[]] false))) ∧
  (∀ (s : State) (p : Packet), let q := asRow .dacStrobe p
    let g := fun (b : Bool) => (fld (pw p 0) 1 0).testBit (if b then 1 else 0)
    s.node.runsNow q = true → (∀ b, g b = true → s.node.strobeSource b = 2) →
    (s.node.time.outDone = false → Effect (.dacStrobe p) s fun m => s.node.replies q .done [[]] m ∧
      m.core.strobes = s.node.core.strobes ||| fld (pw p 0) 1 0 ∧ m.core.outs = s.node.core.outs) ∧
    (s.node.time.outDone = true → Effect (.dacStrobe p) s fun m => s.node.replies q .done [[]] m ∧
      ∀ c b, g b = true → s.node.inGroup b c = true → loads s.node m c)) ∧
  (∀ (s : State) (b : Bool) (low t : Nat), s.node.up = true →
    (s.node.strobeSource b ≠ 1 ∨ low < 50 → Effect (.ldacEdge b low t) s fun m => m = s.node.atT t) ∧
    (s.node.strobeSource b = 1 → 50 ≤ low →
      (∀ e, s.node.core.ldacLast.get b = some e → e + 2000 ≤ (s.node.atT t).now →
        Effect (.ldacEdge b low t) s fun m => m.core.ldacLast.get b = some (s.node.atT t).now ∧
          ∀ c, s.node.inGroup b c = true → loads s.node m c) ∧
      (s.node.core.ldacLast.get b = none →
        Effect (.ldacEdge b low t) s fun m => ∀ c, s.node.inGroup b c = true → loads s.node m c) ∧
      (∀ e, s.node.core.ldacLast.get b = some e → (s.node.atT t).now < e + 2000 →
        Effect (.ldacEdge b low t) s fun m => m.core.ldacIgn.get b = s.node.core.ldacIgn.get b + 1 ∧
          m.core.outs = s.node.core.outs))) ∧
  (∀ s : State, s.node.power.vcel = true → s.node.power.cresetn = true → s.node.up = true → s.node.time.outDone = false →
    Effect .outputInstant s fun m => m.time.outDone = true ∧ m.core.phaseA = true ∧ m.core.caskDue = false ∧
      (∀ c b, s.node.inGroup b c = true → s.node.strobeSource b = 0 → s.node.core.mode ≠ .cask →
        (s.node.core.outs.get c).parked = false → (s.node.core.outs.get c).cleared = false → s.node.scheduleRuns c = false →
        (s.node.core.outs.get c).fresh = true → (m.core.outs.get c).code = (s.node.core.outs.get c).inreg) ∧
      (∀ c, s.node.slotRunning c = true → (s.node.kind c).profile = true →
        (m.core.slots.get c).sp = ((s.node.core.slots.get c).advance s.node.tick).sp) ∧
      ∀ c, s.node.slotRunning c = true → (s.node.core.slots.get c).computed = true →
        (∀ code fin, (s.node.core.slots.get c).code = some (code, fin) → s.node.time.outat < fin * 5) →
        (m.core.slots.get c).missBit = true ∧ (m.core.slots.get c).misses = (s.node.core.slots.get c).misses + 1)

/-- R286, R336, R364: a driver that enters its current limit, loses compliance, or whose rail leaves its limits is timed; the condition's
time reports F.DAC_SHORT, with DAC.SHORTACT taking the output to high impedance, F.DAC_OPEN or F.SUPPLY; its end before then stops the
time; an emulation that lags 1 ms reports F.EMU_RATE. -/
def Obligations.OutputDetectors : Prop :=
  (∀ (s : State) (c : Ch) (t : Nat), s.node.up = true →
    let n := s.node.atT t
    let o := s.node.core.outs.get c
    (rangeCurrent (s.node.parN Pid.dacRange c.val) = false →
      Effect (.currentLimitChange c true t) s (fun m => (m.core.outs.get c).currentLimit = true ∧
        (m.core.outs.get c).shortAt = o.shortAt.or (some (n.now + s.node.parN Pid.dacShorttime c.val * 1000))) ∧
      Effect (.currentLimitChange c false t) s fun m =>
        (m.core.outs.get c).currentLimit = false ∧ (m.core.outs.get c).shortAt = none) ∧
    (rangeCurrent (s.node.parN Pid.dacRange c.val) = true →
      Effect (.complianceChange c true t) s (fun m => (m.core.outs.get c).complianceLost = true ∧
        (m.core.outs.get c).openAt = o.openAt.or (some (n.now + s.node.parN Pid.dacOpentime c.val * 1000000))) ∧
      Effect (.complianceChange c false t) s fun m =>
        (m.core.outs.get c).complianceLost = false ∧ (m.core.outs.get c).openAt = none) ∧
    (∀ e, e ≤ n.now →
      (o.shortAt = some e → Effect (.dacShortTimeout c t) s fun m => m.reported .dacShort c.val ∧
        (s.node.parN Pid.dacShortact c.val = 1 → (m.core.outs.get c).shortOff = true)) ∧
      (o.openAt = some e → Effect (.dacOpenTimeout c t) s fun m => m.reported .dacOpen c.val) ∧
      (o.railAt = some e → Effect (.supplyTimeout c t) s fun m => m.reported .supply c.val ∧ (m.core.outs.get c).railShort = true)) ∧
    (∀ e, ((n.emuFollow c).core.pos.get c).emu.lagSince = some e → e + 1000000 ≤ n.now →
      Effect (.emuRateTimeout c t) s fun m => m.reported .emuRate c.val)) ∧
  (∀ (s : State) (a b : Int) (t : Nat), s.node.power.vcel = true → s.node.power.cresetn = true → s.node.up = true →
    Effect (.railLimitCrossing a b t) s fun m => m.power.avddh = a ∧ m.power.avss = b ∧ ∀ c : Ch,
      (m.core.outs.get c).railAt = if railsOk a b (s.node.parN Pid.dacRange c.val) then none
        else (s.node.core.outs.get c).railAt.or (some ((s.node.atT t).now + 1000000)))

/-- R345 to R352, R357: DEFINE makes a FILLING table of zero codes; DATA writes its samples and no other; SEAL makes it LOADED and
returns its CRC, at once unless the table is persistent; DELETE frees it; WAVE_PLAY on a LOADED table enters sample 0 at once under
TICK timing and trigger COMMAND, and otherwise waits; WAVE_STOP ends every playback on its outputs. -/
def Obligations.WaveCommands : Prop :=
  (∀ (s : State) (p : Packet), let t := fld (pw p 0) 3 0
    let at_ := fld (pw p 0) 21 8
    let k := fld (pw p 0) 36 22
    let x := s.node.core.waves.table t
    let a := withBits 4 2 0 (asRow .waveLoad p)
    let b := withBits 4 2 1 (asRow .waveLoad p)
    let d := withBits 4 2 2 (asRow .waveLoad p)
    let e := withBits 4 2 3 (asRow .waveLoad p)
    s.node.core.waves.tables.length = 16 → (∀ q ∈ s.node.core.waves.plays, q.table ≠ t) →
    (s.node.runsNow a = true → at_ + k ≤ 16384 → s.node.core.waves.meetsOther t at_ k = false →
      Effect (.waveLoadDefine p) s fun m =>
        m.core.waves.table t = { state := .filling, base := at_, len := k, persist := bitOf (pw p 0) 6 } ∧
        ∀ i, m.core.waves.mem.get i = if at_ ≤ i ∧ i < at_ + k then 0 else s.node.core.waves.mem.get i) ∧
    (s.node.runsNow b = true → x.state = .filling → at_ + k ≤ x.len → s.node.core.waves.mem.wf = true →
      Effect (.waveLoadData p) s fun m => m.core.waves.tables = s.node.core.waves.tables ∧
        (∀ i v, ((samplesOf (p.words.drop 1)).take k)[i]? = some v → m.core.waves.mem.get (x.base + at_ + i) = v) ∧
        ∀ i, i < x.base + at_ ∨ x.base + at_ + k ≤ i → m.core.waves.mem.get i = s.node.core.waves.mem.get i) ∧
    (s.node.runsNow d = true → x.state = .filling →
      Effect (.waveLoadSeal p) s fun m => m.core.waves.table t = { x with state := .loaded } ∧
        m.core.waves.mem = s.node.core.waves.mem ∧
        (x.persist = false → s.node.replies d .done [[wN (waveCrc (s.node.core.waves.samples t))]] m) ∧
        (x.persist = true → s.node.goesOn d m ∧ ∃ w : StoreWrite, m.store.writes = s.node.store.writes ++ [w] ∧
          w.op = some (s.node.opFrom d).order ∧
          w.kind = .wave { table := t, base := x.base, samples := s.node.core.waves.samples t })) ∧
    (s.node.runsNow e = true → Effect (.waveLoadDelete p) s fun m =>
      m.core.waves.table t = {} ∧ m.core.waves.mem = s.node.core.waves.mem)) ∧
  (∀ (s : State) (p : Packet), let q := asRow .wavePlay p
    let w := pw p 0
    let outs := s.node.chans q
    s.node.runsNow q = true → outs ≠ [] → (s.node.core.waves.table (fld w 3 0)).state = .loaded →
    (∀ c ∈ outs, s.node.src c = 1 ∧ s.node.playOn c = none) →
    (fld w 23 22 = 0 → bitOf w 29 = false → bitOf w 28 = false →
      Effect (.wavePlay p) s fun m => s.node.goesOn q m ∧
        (∃ x ∈ m.core.waves.plays, x.op = (s.node.opFrom q).order ∧ x.running = true ∧ x.outs = outs ∧
          x.start = s.node.time.p0e ∧ x.next = 1) ∧
        ∀ c ∈ outs, (m.core.outs.get c).inreg = s.node.core.waves.mem.get (s.node.core.waves.table (fld w 3 0)).base) ∧
    (fld w 23 22 ≠ 0 → bitOf w 29 = false → ¬(bitOf w 28 = true ∧ fld w 5 4 = 1) →
      Effect (.wavePlay p) s fun m => s.node.goesOn q m ∧ m.core.outs = s.node.core.outs ∧ ∃ x : Playback,
        m.core.waves.plays = s.node.core.waves.plays ++ [x] ∧ x.op = (s.node.opFrom q).order ∧ x.running = false ∧ x.outs = outs ∧
        x.trigger = triggerOf w) ∧
    (fld w 23 22 = 0 → bitOf w 29 = true → bitOf w 28 = false → ltLe (ltOf (pw p 2) (pw p 3)) s.node.time.lt = false →
      Effect (.wavePlay p) s fun m => s.node.goesOn q m ∧ m.core.outs = s.node.core.outs ∧ ∃ x : Playback,
        m.core.waves.plays = s.node.core.waves.plays ++ [x] ∧ x.op = (s.node.opFrom q).order ∧ x.outs = outs ∧
        x.start = s.node.time.p0e + ltSub (ltOf (pw p 2) (pw p 3)) s.node.time.lt ∧
        x.timing = .schedule (pw p 1).toNat)) ∧
  (∀ (s : State) (p : Packet), let q := asRow .waveStop p
    s.node.runsNow q = true →
    let mine := s.node.core.waves.plays.filter fun x => x.outs.any fun c => (s.node.chans q).contains c
    Effect (.waveStop p) s fun m =>
      m.core.waves.plays = s.node.core.waves.plays.filter fun x => !(mine.any fun y => x.op == y.op))

/-- R236, R353 to R355, R358: a SCHEDULE sample that is due loads its code into every output of its playback that may load; a TICK
sample that is due enters the input registers; a confirmed green start runs; a run without a sample left waits again with REARM and
otherwise ends the playback. -/
def Obligations.WaveRuns : Prop :=
  ∀ (s : State) (slot t : Nat) (q : Playback), s.node.up = true → s.node.playOf slot = some q →
    let code := s.node.core.waves.sample q q.next
    (∀ i, q.timing = .schedule i → q.start + q.next * i ≤ (s.node.atT t).now → s.node.sampleLeft q = true →
      Effect (.waveSampleLoad slot t) s fun m =>
        let load := if q.outs.any s.node.mayLoad then (s.node.atT t).stamp else q.lastLoad
        m.playOf slot = some { q with running := true, next := q.next + 1, lastLoad := load } ∧
        ∀ c ∈ q.outs, (m.core.outs.get c).inreg = code ∧ (s.node.mayLoad c = true → (m.core.outs.get c).code = code)) ∧
    (∀ d, q.timing = .tick d → q.running = true → kLe (q.k0 + q.next * d) s.node.time.k48 = true → s.node.sampleLeft q = true →
      Effect (.waveSampleEntry slot) s fun m =>
        m.playOf slot = some { q with next := q.next + 1, unloaded := q.outs } ∧
        ∀ c ∈ q.outs, (m.core.outs.get c).inreg = code ∧ (m.core.outs.get c).code = (s.node.core.outs.get c).code) ∧
    (q.startDue = true → q.running = false → Effect (.waveHopStart slot t) s fun m =>
      ∃ x, m.playOf slot = some x ∧ x.running = true ∧ x.startDue = false ∧ x.greenHop = none) ∧
    (q.running = true → q.unloaded = [] → s.node.sampleLeft q = false →
      (q.rearm = true → Effect (.waveRunEnd slot t) s fun m =>
        m.playOf slot = some { q with running := false, next := 0, ignored := 0 }) ∧
      (q.rearm = false → Effect (.waveRunEnd slot t) s fun m =>
        m.core.waves.plays = s.node.core.waves.plays.filter (fun x => x.op != q.op) ∧ m.core.outs = s.node.core.outs))

/-! ### Sound, heat and air -/

/-- R368, R371 to R379, R382, R383, R398: SOUND_READ, RTD_READ and FAN_READ return their words; a measuring round starts at a multiple of
SND.ROUND and its results are published under the next sequence number; ZERO_FLOW_CAL takes both fans to 0 %, collects once the tachs
are silent, and ends with SND.ZERO set to the judged mean. -/
def Obligations.SoundAndHeat : Prop :=
  (∀ (s : State) (p : Packet),
    (s.node.runsNow (asRow .soundRead p) = true → Effect (.soundRead p) s (s.node.answersWith (asRow .soundRead p) .done
      [s.node.roundWords ++ s.node.core.sound.paths.a.report ++ s.node.core.sound.paths.b.report] false)) ∧
    (s.node.runsNow (asRow .rtdRead p) = true → Effect (.rtdRead p) s (s.node.answersWith (asRow .rtdRead p) .done
      [s.node.roundWords ++ s.node.core.sound.rtds.toList.flatMap RtdResult.report] false)) ∧
    (s.node.runsNow (asRow .fanRead p) = true → Effect (.fanRead p) s (s.node.answersWith (asRow .fanRead p) .done
      [s.node.fanWords false ++ s.node.fanWords true] false))) ∧
  (∀ s : State, s.node.up = true → s.node.roundsRun = true → s.node.core.sound.cal = none → s.node.core.sound.round = none →
    s.node.time.lt % (s.node.parN Pid.sndRound 0 * 1000000) = 0 →
    Effect .soundRoundStart s fun m => m.core.sound.round = some
      { start := s.node.p0Stamp, items := s.node.core.params, pathA := pathFitted s.node.core.params false,
        pathB := pathFitted s.node.core.params true, rtds := true, cal := false }) ∧
  (∀ (s : State) (x : RoundData) (r : RoundRun), s.node.up = true → s.node.core.sound.round = some r →
    s.node.core.faults.points = [] →
    Effect (.soundRoundPublish x) s fun m =>
      let ref := airRef r.items (s.node.rtdResults r x)
      m.core.sound.round = none ∧ m.core.sound.published = true ∧ m.core.sound.last = r.start ∧
      m.core.sound.lastSeq = (if s.node.core.sound.published then s.node.core.sound.lastSeq + 1 else 0) ∧
      m.core.sound.rtds = s.node.rtdResults r x ∧
      (r.pathA = true → m.core.sound.paths.a =
        pathResult r.items false s.node.core.sound.level.a (x.paths.get false) ref false) ∧
      (r.pathB = true → m.core.sound.paths.b =
        pathResult r.items true s.node.core.sound.level.b (x.paths.get true) ref false)) ∧
  (∀ (s : State) (p : Packet), let q := asRow .zeroFlowCal p
    let a := bitOf (pw p 0) 0
    let b := bitOf (pw p 0) 1
    s.node.runsNow q = true → (a || b) = true → (a = true → pathFitted s.node.core.params false = true) →
    (b = true → pathFitted s.node.core.params true = true) → s.node.isActive .overtemp 0xFF = false →
    (∀ r ∈ s.node.core.sound.rtds.toList, r.warn = false) → s.node.core.sound.cal = none →
    (s.node.fan false).engaged = false → (s.node.fan true).engaged = false →
    Effect (.zeroFlowCal p) s fun m => s.node.goesOn q m ∧ (m.fan false).duty = 0 ∧ (m.fan true).duty = 0 ∧
      m.core.sound.cal = some
        { op := (s.node.opFrom q).order, pathA := a, pathB := b,
          waitEnd := s.node.now + s.node.parN Pid.sndCalwait 0 * 1000000000, want := s.node.parN Pid.sndCaln 0 }) ∧
  (∀ (s : State) (t : Nat) (c : Calib), s.node.up = true → s.node.core.sound.cal = some c →
    let n := s.node.atT t
    (c.nextRound = none → n.tachPresent false = false → n.tachPresent true = false → c.waitEnd ≤ n.now →
      Effect (.zeroFlowCalQuiet t) s fun m => m.core.sound.cal = some { c with nextRound := some n.now }) ∧
    (c.nextRound = none → n.tachPresent false = true → c.waitEnd ≤ n.now →
      Effect (.zeroFlowCalQuiet t) s fun m => m.core.sound.cal = none ∧ m.core.params = s.node.core.params) ∧
    (∀ z d, c.nextRound.isSome = true → c.bad = false → c.want ≤ c.rounds → c.pathA = true → c.pathB = false →
      calJudge c.a = some (z, d) →
      Effect (.zeroFlowCalDone t) s fun m => m.core.sound.cal = none ∧
        m.core.params = s.node.core.params.put (pidAt Pid.sndZero 0) (wI z)) ∧
    (c.nextRound.isSome = true → c.bad = true →
      Effect (.zeroFlowCalDone t) s fun m => m.core.sound.cal = none ∧ m.core.params = s.node.core.params))

/-- R386, R390 to R396, R398: FAN_SET writes its items; tach edges are kept and a silent tach is found; the end of a start judgement
finds the fan running, without airflow, or blocked with a retry sequence of kicks and pauses that ends held off; a stopped fan and a
blocked duct are reported. -/
def Obligations.Fans : Prop :=
  (∀ (s : State) (p : Packet), let q := asRow .fanSet p
    let w := pw p 0
    let items := ([false, true].filter fun b => bitOf w (idx b)).flatMap fun b =>
      (pidAt Pid.fanSrc (idx b), wN (fld w 3 2)) :: if fld w 3 2 = 0 then [(pidAt Pid.fanDuty (idx b), wN (fld w 13 4))] else []
    s.node.runsNow q = true → Effect (.fanSet p) s fun m => m.core.params = s.node.core.params.putAll items) ∧
  (∀ (s : State) (f : Fan) (t : Nat), s.node.up = true → s.node.core.faults.points = [] →
    let b := isFan1 f
    let n := s.node.atT t
    let x := s.node.fan b
    Effect (.tachEdge f t) s (fun m => (m.fan b).edges = n.now :: x.edges.filter fun e => decide (n.now < e + 1000000000)) ∧
    (x.present = true → n.tachPresent b = false →
      Effect (.tachSilent f t) s fun m => (m.fan b).present = false ∧ (m.fan b).silentSince = n.now) ∧
    (∀ v began ends, x.phase = .judging v began ends → ends ≤ n.now →
      (n.tachPresent b = true → n.airRisen b v began = true →
        Effect (.fanStartJudgementEnd f t) s fun m => (m.fan b).phase = .running) ∧
      (n.tachPresent b = true → n.airRisen b v began = false → Effect (.fanStartJudgementEnd f t) s fun m =>
        (m.fan b).phase = .unproven ∧ ((n.fanPath b).isSome = true → (n.ductV b).isSome = true → m.reported .ductBlocked 0xFF)) ∧
      (n.tachPresent b = false → n.ductV b = none → 1 ≤ s.node.parN Pid.fanRetries (idx b) →
        Effect (.fanStartJudgementEnd f t) s fun m => m.reported .fanBlocked 0xFF ∧ (m.fan b).blocked = true ∧
          (m.fan b).phase = .kicking 1 (n.now + 1000000000) false)) ∧
    (∀ k ends seen, x.phase = .kicking k ends seen → ends ≤ n.now →
      ((seen || n.tachPresent b) = true → Effect (.fanKickEnd f t) s fun m => (m.fan b).blocked = false ∧
        ((m.fan b).phase = .running ∨ (m.fan b).phase = .unsupervised)) ∧
      ((seen || n.tachPresent b) = false → k < s.node.parN Pid.fanRetries (idx b) →
        Effect (.fanKickEnd f t) s fun m => (m.fan b).phase = .pausing k (n.now + 5000000000)) ∧
      ((seen || n.tachPresent b) = false → s.node.parN Pid.fanRetries (idx b) ≤ k →
        Effect (.fanKickEnd f t) s fun m => (m.fan b).phase = .heldOff ∧ m.reported .fanBlocked 0xFF)) ∧
    (∀ k ends, x.phase = .pausing k ends → ends ≤ n.now → k + 1 ≤ s.node.parN Pid.fanRetries (idx b) →
      Effect (.fanPauseEnd f t) s fun m => (m.fan b).phase = .kicking (k + 1) (n.now + 1000000000) (n.tachPresent b)) ∧
    (∀ (r : Probe) (st : Bool), s.node.core.sound.probe = some r → x.phase = .probing st → r.fan = b → r.ends ≤ n.now →
      n.tachPresent b = false → st = false → (s.node.fan (!b)).phase = .running →
      let turning := r.vp.any fun v => decide (r.vb * n.par Pid.fanAirdrop (idx b) ≤ 100 * (r.vb - v))
      Effect (.fanProbeEnd f t) s fun m => m.core.sound.probe = none ∧
        (turning = true → m.reported .tachWire 0xFF ∧ (m.fan b).wire = true) ∧
        (turning = false → (m.fan b).wire = x.wire ∧ (m.fan b).phase ≠ .probing st)) ∧
    ((∃ e, x.watch = some e ∧ e ≤ n.now) → x.stopped = false → n.tachPresent b = false → n.supervised b = true →
      Effect (.fanStoptimeExpiry f t) s fun m => m.reported .fanStopped 0xFF ∧ (m.fan b).stopped = true) ∧
    (∀ e, x.lowSince = some e → e + s.node.parN Pid.fanStoptime (idx b) * 1000000 ≤ n.now → (n.fanPath b).isSome = true →
      x.duct = false → n.tachPresent b = true → n.dutyPar Pid.fanMinduty b ≤ x.duty → (n.ductV b).isSome = true →
      Effect (.ductBlockedTimeout f t) s fun m => m.reported .ductBlocked 0xFF ∧ (m.fan b).duct = true))

/-! ### The front end -/

/-- R163, R172, R181, R182, R184 to R189, R202, R207, R219 to R221: Hall edges and SSI words give their sector and their result; timeouts
report or fail them; the excitation reaches its amplitude and stops; the carrier phase comes into use; an acquisition and a settle
window end with a kilned value of their sample instant. R195, R196: the clean step's angle and velocity; the exact step's closed loop
from measurement to angle, its lag 0 at constant velocity and, of tp, a/wn² at constant acceleration (log entry 103). -/
def Obligations.FrontEndEvents : Prop :=
  (∀ (s : State) (c : Ch) (code : BitVec 3) (held t : Nat), let n := s.node.atT t
    let h := (s.node.core.fronts.get c).hall
    s.node.up = true → s.node.mode c = .hall → s.node.core.faults.points = [] →
    (held < s.node.parN Pid.inHallflt c.val * 1000 → Effect (.hallEdge c code held t) s fun m => m = n) ∧
    (s.node.parN Pid.inHallflt c.val * 1000 ≤ held → (s.node.core.fronts.get c).trk.running = true →
      (hallSector s.node.core.params c.val code = none → Effect (.hallEdge c code held t) s fun m =>
        (m.core.fronts.get c).hall = { h with code := code, invalidSince := h.invalidSince.or (some n.now) }) ∧
      (∀ x, hallSector s.node.core.params c.val code = some x → h.sector ≠ some x → (∀ y, h.sector = some y → y < 6) →
        Effect (.hallEdge c code held t) s fun m =>
          (m.core.fronts.get c).hall.sector = some x ∧ (m.core.fronts.get c).hall.code = code ∧
          (m.core.fronts.get c).hall.invalidSince = none ∧
          ∃ k, (m.core.fronts.get c).trk.kil = some k ∧ k.st = n.stamp ∧ k.cnt = (m.core.fronts.get c).hall.count)) ∧
    (∀ e, h.invalidSince = some e → e + s.node.parN Pid.inHallinv c.val * 1000 < n.now →
      Effect (.hallInvalidTimeout c t) s fun m => m.reported .hallInvalid c.val) ∧
    (∀ e k, h.stopAt = some e → e ≤ n.now → (s.node.core.fronts.get c).trk.kil = some k →
      Effect (.hallStopTimeout c t) s fun m => (m.core.fronts.get c).hall.v = 0 ∧ (m.core.fronts.get c).hall.stopAt = none ∧
        (m.core.fronts.get c).trk.kil = some { k with v := 0 })) ∧
  (∀ (s : State) (c : Ch) (bits : List Bool) (t : Nat) (st : Stamp), let n := s.node.atT t
    s.node.up = true → s.node.core.faults.points = [] → (s.node.core.fronts.get c).ssi.reading = some st →
    Effect (.ssiWord c bits t) s fun m => let x := (m.core.fronts.get c).ssi
      x.reading = none ∧ x.readyAt = n.now - s.node.parN Pid.inSsidly c.val + s.node.parN Pid.inSsimono c.val * 1000 ∧
      x.result = some { start := st, lastBit := n.now, word := ssiJudge s.node.core.params c.val bits false false }) ∧
  (∀ (s : State) (c : Ch) (t e : Nat), let x := (s.node.core.fronts.get c).ssi
    s.node.up = true → x.monoAt = some e → e ≤ (s.node.atT t).now → x.timedOut = false →
    Effect (.ssiMonoflopTimeout c t) s fun m => (m.core.fronts.get c).ssi.timedOut = true ∧
      (m.core.fronts.get c).ssi.monoAt = none ∧
      (m.core.fronts.get c).ssi.result = x.result.map fun y => { y with word := .fail .timeout }) ∧
  (∀ (s : State) (c : Ch) (t e : Nat), let x := (s.node.core.fronts.get c).exc
    s.node.up = true → e ≤ (s.node.atT t).now →
    (x.rampEnd = some e → x.on = true → Effect (.excitationRampEnd c t) s fun m =>
      (m.core.fronts.get c).exc = { x with rampEnd := none, fullSince := some e }) ∧
    (x.stopAt = some e → Effect (.excitationStop c t) s fun m => (m.core.fronts.get c).exc.on = false ∧
      (m.core.fronts.get c).exc.stopAt = none ∧ (m.core.fronts.get c).exc.startDue = x.startDue)) ∧
  (∀ (s : State) (c : Ch), let f := s.node.core.fronts.get c
    s.node.up = true →
    (∀ a b d e cl st m, f.trk.due = some (.carrier a b d e cl st) → f.exc.meas = some m →
      let ph := carrierPhase (s.node.par Pid.excPhexp c.val) m.num m.den
      Effect (.carrierPhaseMeasured c) s fun n => (n.core.fronts.get c).exc.meas = none ∧
        (n.core.fronts.get c).exc.phase = ph ∧ (n.core.fronts.get c).exc.phiC =
          tenthsToFx (if s.node.parN Pid.excPhmode c.val = 1 then s.node.par Pid.excPhfix c.val else ph)) ∧
    (∀ st, f.trk.due = some (.acquired st) → Effect (.acquisitionDone c) s fun n =>
      (n.core.fronts.get c).trk.acq = .done ∧ (n.core.fronts.get c).trk.valid = true ∧ (n.core.fronts.get c).trk.due = none ∧
      ∃ k, (n.core.fronts.get c).trk.kil = some k ∧ k.st = st) ∧
    (∀ x st, f.trk.due = some (.settled x true st) → f.trk.acq = .done →
      ((trkDiff (s.node.mode c) x (trkPredict s.node.time.rate st f.trk)).natAbs : Int) ≤
        fxRat (s.node.par Pid.trkLoterr c.val) 3600 →
      Effect (.settleWindowEnd c) s fun n => (n.core.fronts.get c).trk.due = none ∧
        ∃ k, (n.core.fronts.get c).trk.kil = some k ∧ k.st = st) ∧
    (∀ x st, f.trk.due = some (.settled x false st) → f.trk.acq = .done →
      Effect (.settleWindowEnd c) s fun n => (n.core.fronts.get c).trk.coast = true ∧
        (n.core.fronts.get c).trk.kil = f.trk.kil)) ∧
  (∀ (ps : ParamMem) (c : Nat) (mode : InMode) (rate : TickRate) (x : StepIn) (st : Stamp) (inj : Bool) (t : Trk),
    let ns := trkElapsed rate st t
    let tp := trkPredict rate st t
    let e := trkDiff mode x.m tp
    let r := (trkStep ps c mode rate x st inj t).1
    t.acq ≠ .first →
    (x.clean = false → r.th = tp ∧ r.v = t.v ∧ r.coast = true) ∧
    (x.clean = true → (e.natAbs : Int) ≤ fxRat (ps.int Pid.trkLoterr c) 3600 →
      r.th = tp + fxMul (trkAlpha ps c ns) e ∧ r.v = clampI (-(2000 * fxOne)) (2000 * fxOne) (t.v + fxMul (trkGainV ps c ns) e))) ∧
  (∀ (alpha beta T : Rat) (m th v : Nat → Rat), (∀ k, (th (k + 1), v (k + 1)) = loopStep alpha beta T (m (k + 1)) (th k) (v k)) →
    T ≠ 0 → ∀ k, th (k + 2) + (alpha + beta - 2) * th (k + 1) + (1 - alpha) * th k = alpha * m (k + 2) + (beta - alpha) * m (k + 1)) ∧
  (∀ alpha beta T p w : Rat, loopStep alpha beta T (p + w * T) p w = (p + w * T, w)) ∧
  (∀ (alpha beta T a k : Rat), beta ≠ 0 → T ≠ 0 →
    let m := fun (k : Rat) => a * (k * T) ^ 2 / 2
    let lag := a * T ^ 2 / beta
    let th := fun (k : Rat) => m k - (1 - alpha) * lag
    let v := fun (k : Rat) => a * T * (k + 1 / 2) - alpha * a * T / beta
    m (k + 1) - (th k + v k * T) = lag ∧ loopStep alpha beta T (m (k + 1)) (th k) (v k) = (th (k + 1), v (k + 1)))

/-! ### Ticks -/

/-- R122, R124, R126, R130, R143, R264, R517: a tick begins T_tick after the one before, with K48 the time in force in whole ticks, and gives
SYNCOUT its pulse; at P4 the outputs' measurements are kept, history takes the latest kilned value, and the log takes what has
formed. -/
def Obligations.TicksAdvance : Prop :=
  (∀ (s : State) (x : Quad ChanInput), s.node.power.vcel = true → s.node.power.cresetn = true → s.node.time.placed = false →
    (s.node.up = false ∨ (s.node.core.pool = [] ∧ s.node.host.rx = [])) →
    let e := s.node.time.p0e + s.node.tick
    let k := wrapK (wrapLt (s.node.time.lt + s.node.tick : Nat) / s.node.tick)
    let div := s.node.parN Pid.tickSyncoutdiv 0
    Effect (.frameTick x) s fun m => m.time.p0e = e ∧ m.time.lt = wrapLt (s.node.time.lt + s.node.tick : Nat) ∧ m.time.k48 = k ∧ m.time.dt = 0 ∧
      m.time.outDone = false ∧
      (div ≠ 0 → k % div = 0 → s.node.power.syncoutHighUntil = none →
        m.power.syncoutHighUntil = some (e + s.node.parN Pid.tickSyncoutw 0)) ∧
      (div = 0 → m.power = s.node.power)) ∧
  (∀ (s : State) (meas : Quad Int), s.node.up = true → (s.node.core.faults.log = [] ∨ s.node.injecting .logWrite 0xFF = false) →
    Effect (.housekeeping meas) s fun m => m.time.dt = s.node.time.outat ∧ m.core.slots = s.node.core.slots ∧
      m.core.fronts = s.node.core.fronts ∧ ∀ c, (m.core.outs.get c).meas = satI (meas.get c)) ∧
  (∀ (s : State) (meas : Quad Int), s.node.up = true → s.node.core.faults.points = [] →
    Effect (.housekeeping meas) s fun m =>
      (∀ y : PendingLog, s.node.core.faults.log = [y] → m.core.faults.log = [] ∧
        m.store.log = lastN 256 (s.node.store.log ++ [{ y.entry with seq := s.node.store.logSeq }]) ∧
        m.store.logSeq = s.node.store.logSeq + 1) ∧
      ∀ (c : Ch) (k : Kil), s.node.time.k48 % s.node.parN Pid.histDiv c.val = 0 → (s.node.core.fronts.get c).trk.kil = some k →
        (s.node.core.fronts.get c).trk.running = true → (s.node.core.fronts.get c).trk.valid = true →
        (∀ h, (s.node.core.pos.get c).hist.head? = some h → h.st.e < k.st.e) →
        (m.core.pos.get c).hist = (k :: (s.node.core.pos.get c).hist).take 4096)

/-- R72, R251: a scheduled command commits at the tick its packet names, and its final reply carries that tick. -/
def Obligations.ScheduledCommandsCommitAtTheirTick : Prop :=
  ∀ (s : State) (x : Quad ChanInput) (op : PoolOp) (p : Packet),
    let k := wrapK (wrapLt (s.node.time.lt + s.node.tick : Nat) / s.node.tick)
    s.node.power.vcel = true → s.node.power.cresetn = true → s.node.up = true → s.node.time.placed = false →
    s.node.core.running ≠ .boot → s.node.host.rx = [] → s.node.core.pool = [op] → op.packet = asRow .ping p → p.mask = 0 →
    (∀ c : Ch, (s.node.core.slots.get c).active = none) →
    op.phase = .waiting → op.side = .here → op.scheduled = true → op.due = k →
    Effect (.frameTick x) s fun m => m.core.pool = [] ∧
      ∀ r ∈ replyPackets op.packet .done false true (k % 65536) [p.words], r ∈ m.sentTo (senderOf p)

/-! ### The host port -/

/-- R91, R586 to R593, R597, R599: a packet that fits and passes its check arrives for the next tick; other writes enter their queues on a
heading node, or are discarded and counted; a read drives the oldest reply or block and takes it out only when it was clocked
whole; STATUS_READ drives its sixteen bytes; CONTROL_WRITE clears causes and sets the mask. -/
def Obligations.HostPort : Prop :=
  (∀ (s : State) (w : HostWrite) (t : Nat), s.node.power.vcel = true → s.node.power.cresetn = true →
    let n := s.node.atT t
    let counted := fun (m : Node) => m = n.hostErrors 1
    (w.cutInByte = true ∨ w.bytes.length ≠ w.len.toNat →
      ∀ c ∈ [Instr.packetWrite w t, .lineWrite w t, .mntWrite w t, .slotsWrite w t, .controlWrite w t], Effect c s counted) ∧
    (s.node.heading = false → ∀ c ∈ [Instr.lineWrite w t, .mntWrite w t, .slotsWrite w t], Effect c s counted) ∧
    (n.host.rxFree < w.bytes.length ∨ packetOfBytes .host w.bytes = none → Effect (.packetWrite w t) s counted) ∧
    (w.cutInByte = false → w.bytes.length = w.len.toNat →
      (∀ p ok, packetOfBytes .host w.bytes = some (p, ok) → w.bytes.length ≤ n.host.rxFree → s.node.host.rx = [] →
        s.node.host.overflow = [] →
        (s.node.core.run = .held → s.node.restart.updating = false → Effect (.packetWrite w t) s fun m =>
          m.core = s.node.core ∧ m.host.rx = [] ∧
          m.sentTo .ctxL = s.node.sentTo .ctxL ++ replyPackets p .coreReset false true s.node.tick16 [[]]) ∧
        (∀ oc due sch side, s.node.up = true → s.node.core.drain = none →
          n.judgePacket p ok (wrapK (s.node.time.k48 + 1)) = .accept oc due sch side → Effect (.packetWrite w t) s fun m =>
            m.host.rx = [] ∧ ∃ op : PoolOp, m.core.pool = op.enter s.node.core.pool ∧ op.packet = p ∧ op.due = due ∧
              op.phase = .waiting ∧ op.side = side ∧ op.client = .ctxL)) ∧
      (s.node.heading = true → 2 ≤ w.bytes.length → s.node.host.lineUsed + w.bytes.length ≤ 16384 →
        Effect (.lineWrite w t) s fun m => m.host.lineQueue =
          s.node.host.lineQueue ++ [(BitVec.ofNat 16 (natBE (w.bytes.take 2)), w.bytes.drop 2)]) ∧
      (s.node.heading = true → w.bytes.headD 0 = 0x20 → w.bytes.length ≤ s.node.parN Pid.lineCmdbytes 0 →
        s.node.host.mntQueue.length < 4 →
        Effect (.mntWrite w t) s fun m => m.host.mntQueue = s.node.host.mntQueue ++ [w.bytes]) ∧
      (s.node.heading = true → w.bytes.length = (s.node.line.count - 1) * s.node.parN Pid.lineOutlen 0 →
        Effect (.slotsWrite w t) s fun m => m.host.slots = some (n.now, w.bytes)) ∧
      (w.bytes.length = 4 → Effect (.controlWrite w t) s fun m =>
        m.host.mask = BitVec.ofNat 16 (natBE (w.bytes.drop 2)) ∧
        m.host.causes = s.node.host.causes &&& ~~~(BitVec.ofNat 16 (natBE (w.bytes.take 2)) &&& 0x7C)))) ∧
  (∀ (s : State) (k t : Nat), s.node.power.vcel = true → s.node.power.cresetn = true →
    (∀ r rs, s.node.host.replies = r :: rs → let data := bytesBE 2 r.size ++ r.bytes
      (k < data.length → Effect (.replyRead k t) s fun m =>
        m = (s.node.atT t).modHost fun h => { h with driven := drivenBytes k data }) ∧
      (data.length ≤ k → s.node.host.overflow = [] → s.node.host.rx = [] → Effect (.replyRead k t) s fun m =>
        m = (s.node.atT t).modHost fun h => { h with driven := drivenBytes k data, replies := rs })) ∧
    (∀ b bs, s.node.host.blocks = b :: bs → let data := bytesBE 4 b.length ++ b
      Effect (.cyclicRead k t) s fun m => m = (s.node.atT t).modHost fun h =>
        { h with driven := drivenBytes k data, blocks := if data.length ≤ k then bs else b :: bs }) ∧
    (s.node.host.replies = [] → Effect (.replyRead k t) s fun m => m.host.driven = List.replicate k 0#8 ∧ m.core = s.node.core) ∧
    Effect (.statusRead k t) s (fun m => m = (s.node.atT t).modHost fun h =>
      { h with driven := drivenBytes k (s.node.atT t).statusBytes, overrun := false }) ∧
    (s.node.atT t).statusBytes.length = 16)

/-! ### The line -/

/-- R431, R434, R437, R439, R451, R458: ROLLCALL queues a roll call on a heading node and is refused elsewhere; RELOCK, with the hop
count as expected, locks the node there; FOLD and UNFOLD wait for their cycle; LINE_STATS answers its ten words. -/
def Obligations.LineCommands : Prop :=
  ∀ (s : State) (p : Packet), let n := s.node
    (∀ q, q = withBits 0 2 0 (asRow .rollcall p) → n.runsNow q = true →
      (n.heading = true → Effect (.rollcallSurvey p) s fun m => n.goesOn q m ∧
        m.line.rolls = n.line.rolls ++ [{ kind := .survey, ops := [(n.opFrom q).order] }]) ∧
      (n.heading = false → Effect (.rollcallSurvey p) s fun m => n.replies q .refusedUnsafe [[]] m ∧ m.line = n.line)) ∧
    (∀ q, q = withBits 0 2 1 (asRow .rollcall p) → n.runsNow q = true →
      (n.heading = true → n.line.folded = false → Effect (.rollcallAssign p) s fun m => n.goesOn q m ∧
        m.line.rolls = n.line.rolls ++ [{ kind := .assign (pw q 1), ops := [(n.opFrom q).order] }]) ∧
      (n.heading = false → Effect (.rollcallAssign p) s fun m => n.replies q .refusedUnsafe [[]] m ∧ m.line = n.line)) ∧
    (∀ q, q = asRow .relock p → n.runsNow q = true →
      (fld (pw q 0) 9 0 = n.hopCount → Effect (.relock p) s fun m => n.replies q .done [[]] m ∧
        m.line = { n.line with lock := some (n.posOfHop n.hopCount, n.line.rcSig.getD 0), outcome := some 1 } ∧ m.core.mode = .cask) ∧
      (fld (pw q 0) 9 0 ≠ n.hopCount → Effect (.relock p) s fun m => n.answersWith q .refusedUnsafe [[]] false m)) ∧
    (∀ q, q = asRow .fold p → n.runsNow q = true →
      (n.line.role = .head ∨ n.line.role = .tailHead → n.line.folded = false → Effect (.fold p) s fun m => n.goesOn q m ∧
        m.line.foldOps = n.line.foldOps ++ [(n.opFrom q).order] ∧ m.line.folded = false) ∧
      (n.line.role = .head ∨ n.line.role = .tailHead → n.line.folded = true →
        Effect (.fold p) s fun m => n.answersWith q .done [[]] false m) ∧
      (n.line.role ≠ .head → n.line.role ≠ .tailHead →
        Effect (.fold p) s fun m => n.answersWith q .refusedUnsafe [[]] false m)) ∧
    (∀ q c, q = asRow .unfold p → n.runsNow q = true → c = fld (pw q 0) 31 0 → n.heading = true → n.line.folded = true →
      let d := (c + 4294967296 - n.cycleNo) % 4294967296
      (2 ≤ d → d ≤ 65535 → n.line.unfoldAt = none → Effect (.unfold p) s fun m => n.goesOn q m ∧
        m.line.unfoldAt = some (c, [(n.opFrom q).order]) ∧ m.line.folded = true) ∧
      (d < 2 ∨ 65535 < d → Effect (.unfold p) s fun m => n.replies q .outOfRange [[]] m ∧ m.line = n.line)) ∧
    (∀ q, q = asRow .lineStats p → n.runsNow q = true → let l := n.line
      Effect (.lineStats p) s fun m => n.answersWith q .done [[wN l.framesOk, wN l.crcUp, wN l.crcDn, wN l.corrupted, wN l.noCyc,
        wN (l.lossUp % 1048576 + l.lossDn % 1048576 * 1048576), wI (l.delay.elim 0 fun d => roundDiv d fxOne),
        wN (l.rt.elim 0 Prod.fst), wN l.rejected, wN l.missed]] false m)

/-- R246 to R249, R405, R408, R409: a frame on a port and in a direction the node does not take is ignored; one with a failed check is
counted, by how it ended, and goes on, never as a good one, with its payload; one of an unlisted type that passes is counted and goes on. -/
def Obligations.FramesAreCheckedAndForwarded : Prop :=
  ∀ (s : State) (h : FrameHdr) (bs : List Byte) (typ : Byte) (t : Nat), let n := s.node.atT t
    s.node.power.vcel = true → s.node.power.cresetn = true → s.node.core.faults.points = [] →
    let kinds : List (Instr × Byte) :=
      [(.cmdFrame h bs t, 0x03), (.mntUnfoldNotice h bs t, 0x05), (.mntImageBlock h bs t, 0x05), (.rcFrame h bs t, 0x04),
       (.rcReturn h bs t, 0x04), (.retFrame h bs t, 0x06), (.rollcallComplete h bs t, 0x04), (.unknownFrame typ h bs t, typ)]
    (∀ c ∈ kinds, n.frameDir h = none → Effect c.1 s fun m => m = n.send []) ∧
    (∀ c ∈ kinds, ∀ ret, n.frameDir h = some ret →
      let on : TxFrame := { typ := c.2, hdr := n.fwdHdr h ret .other, payload := bs }
      let sent := if ret && n.heading then [] else [on]
      on.hdr.ending = .other ∧
      (h.ending = .other → Effect c.1 s fun m => m = (n.modLine fun l => { l with corrupted := l.corrupted + 1 }).send sent) ∧
      (h.ending = .badCrc → Effect c.1 s fun m =>
        m.line.sent = sent ∧ m.host.blocks = n.host.blocks ∧ m.store.writes = n.store.writes ∧ m.core.pool = n.core.pool ∧
        m.line.crcUp = n.line.crcUp + (if ret then 0 else 1) ∧ m.line.crcDn = n.line.crcDn + (if ret then 1 else 0))) ∧
    (h.ending = .good → n.frameDir h = some false → Effect (.unknownFrame typ h bs t) s fun m =>
      m.line.unknown = n.line.unknown + 1 ∧ m.line.framesOk = n.line.framesOk + 1 ∧ m.line.cycle = h.cycle.toNat ∧
      m.line.hops = some (min 1023 (h.hop.toNat + 1)) ∧ m.line.sent.map TxFrame.payload = [bs])

/-- R413, R415, R416, R424 to R427, R430, R432, R433, R459, R550: what the frames of each type do at a node that they pass and that does
not head. -/
def Obligations.FramesAtANode : Prop :=
  ∀ (s : State) (h : FrameHdr) (t : Nat), let n := s.node.atT t
    s.node.power.vcel = true → s.node.power.cresetn = true → s.node.core.faults.points = [] → h.ending = .good →
    h.fromTail = false → s.node.line.inTail = false → s.node.heading = false →
    let hop := min 1023 (h.hop.toNat + 1)
    (n.frameDir h = some false →
      (∀ (x : SyncPayload), let acc := x.acc + roundDiv (x.fRet - x.fOut + n.par Pid.lineSkew 0) 2
        let dNew : Int := ((x.rt0.toNat : Int) - (n.line.rt.elim 0 Prod.fst : Nat) - 2 * x.acc - n.par Pid.lineSkew 0) * (fxOne / 2)
        (n.turns h = false → Effect (.syncFrame h x t) s fun m =>
          m.line.sent.map TxFrame.payload = [syncBytes x.lt.toNat x.rt0.toNat acc] ∧ m.time.lastSync = some n.now ∧
          m.line.syncs = n.line.syncs + 1) ∧
        (n.line.delay = none → n.line.rt = none →
          Effect (.syncFrame h x t) s fun m => m.time = { n.time with lastSync := some n.now }) ∧
        (∀ rt c, n.line.rt = some (rt, c) → (c + 1) % 4294967296 = h.cycle.toNat →
          (n.line.delay = none → Effect (.syncFrame h x t) s fun m => m.line.delay = some dNew) ∧
          (∀ d, n.line.delay = some d → (dNew - d).natAbs ≤ 100000 * fxOne →
            Effect (.syncFrame h x t) s fun m => m.line.delay = some (d + (dNew - d) / n.parN Pid.lineTfilt 0)) ∧
          (n.line.delay = none → n.parN Pid.refTsel 0 ≠ 1 → n.time.fallback = false → n.time.fallbackDue = false →
            let off := ltDiff (wrapLt (x.lt.toNat + roundDiv dNew (1000 * fxOne))) n.lt
            (n.time.mark = .localEpoch → Effect (.syncFrame h x t) s fun m => m.time.stepDue = some off) ∧
            (n.time.mark = .lineTime → 2000 < off.natAbs → Effect (.syncFrame h x t) s fun m => m.time.stepDue = some off) ∧
            (n.time.mark = .lineTime → off.natAbs ≤ 2000 → Effect (.syncFrame h x t) s fun m =>
              m.time.offsetPs = off * 1000 ∧ m.time.stepDue = none)))) ∧
      (∀ (bs d : List Byte) (dest : Nat) (p : Packet) (ok : Bool) (oc : Opcode) (due : Nat) (sch : Bool) (side : RelaySide),
        let n' := ((n.checkFrame h false).2.takeHeader h false).send [{ typ := 0x03, hdr := n.fwdHdr h false .good, payload := bs }]
        cmdEntries bs.length bs = [(dest, d)] →
        (n'.addressed dest = false → Effect (.cmdFrame h bs t) s fun m => m.core.pool = n.core.pool ∧ m.line.sent = n'.line.sent) ∧
        (n'.addressed dest = true → packetOfBytes .line d = some (p, ok) → s.node.up = true → s.node.core.drain = none →
          n'.judgePacket p ok (wrapK (n.time.k48 + 1)) = .accept oc due sch side → Effect (.cmdFrame h bs t) s fun m =>
            m.line.sent = n'.line.sent ∧ ∃ op : PoolOp, m.core.pool = n.core.pool ++ [op] ∧ op.packet = p ∧ op.due = due ∧
              op.phase = .waiting ∧ op.side = side ∧ op.client = .line p.client)) ∧
      (∀ bs : List Byte,
        Effect (.cycFrame h bs t) s (fun m => m.line.cycSeen = true ∧ m.line.cycMiss = 0 ∧
          (n.turns h = true → ∃ car, m.line.sent = [{ typ := 0x06, hdr := { h with ret := true }, payload := car }] ∧
            32768 ≤ natBE (car.take 2)) ∧
          (n.turns h = false → m.line.sent.map TxFrame.payload = [bs])) ∧
        (s.node.up = true → n.turns h = false → hop < n.line.count → let k := bs.length / (n.line.count - 1)
          Effect (.cycFrame h bs t) s fun m =>
            m.host.blocks = [bytesBE 4 h.cycle.toNat ++ (bs.drop ((hop - 1) * k)).take k])) ∧
      (∀ (mode : Nat) (sig : Word), mode ≤ 1 → let bs := bytesBE 1 mode ++ wordBytes sig ++ [0, 0]
        Effect (.rcFrame h bs t) s (fun m => m.line.rcSig = some sig ∧ m.line.rcHops = hop ∧ m.line.rollCycle = true ∧
          (n.turns h = true → m.line.count = hop + 1 ∧ ∃ car : List Byte, car.length = 12 ∧
            m.line.sent.map TxFrame.payload = [bs ++ car])) ∧
        (mode = 1 → s.node.up = false ∨ s.node.core.mode = .cask →
          Effect (.rcFrame h bs t) s fun m => m.line.lock = some (hop, sig) ∧ m.line.outcome = some 1 ∧ m.line.rcKept = false) ∧
        (mode = 0 ∨ (s.node.up = true ∧ s.node.core.mode ≠ .cask) →
          Effect (.rcFrame h bs t) s fun m => m.line.lock = n.line.lock ∧ m.line.rcKept = decide (mode = 1) ∧
            m.line.outcome = some (match n.line.lock with
              | none => 0
              | some (p, g) => if p = hop ∧ (g = sig ∨ sig = 0) then 1 else 2))) ∧
      (∀ c, c < 4294967296 → Effect (.mntUnfoldNotice h ([2] ++ bytesBE 4 c) t) s fun m => m.line.notice = some c) ∧
      (∀ (f : FwTransfer) (off : Nat) (d : List Byte), s.node.up = true → s.node.core.fw = some f → 0 < f.id → f.id < 65536 →
        off % 8 = 0 → d.length % 8 = 0 → 0 < d.length → d.length < 65536 → off + d.length ≤ f.length → f.length ≤ 524288 →
        Effect (.mntImageBlock h ([0x20] ++ bytesBE 2 f.id ++ bytesBE 3 off ++ bytesBE 2 d.length ++ d) t) s fun m =>
          m.store.writes = s.node.store.writes ++ [{ kind := .fwBlock off d, op := none, words := [] }])) ∧
    (n.frameDir h = some true →
      (∀ rt, n.turnedHere h = false →
        Effect (.syncReturn h rt t) s fun m => m.line.rt = some (rt, h.cycle.toNat)) ∧
      (∀ bs, Effect (.retFrame h bs t) s fun m => m.line.mismatch = false ∧ ∃ car,
        m.line.sent = [{ typ := 0x06, hdr := { h with port := .up }, payload := bs ++ car }]) ∧
      (∀ bs, 8 ≤ bs.length → Effect (.rcReturn h bs t) s fun m => m.line.count = n.hopCount + 1 + (bs.length - 8) / 12 ∧
        ∃ car : List Byte, car.length = 12 ∧ m.line.sent = [{ typ := 0x04, hdr := { h with port := .up }, payload := bs ++ car }]))

/-- R401, R403, R410, R411, R421, R424, R434, R438, R439, R452, R453, R458, R459: links, roles, the cycles of a heading node, roll calls
that complete, missing CYC frames, and a line that folds and unfolds. -/
def Obligations.CyclesAndFolding : Prop :=
  ∀ (s : State) (t : Nat), let n := s.node.atT t
    s.node.power.vcel = true → s.node.power.cresetn = true →
    (n.line.linkUp = false → n.line.inTail = false → Effect (.linkGain .up t) s fun m => m = n.modLine fun l =>
      { l with linkUp := true, syncs := 0, delay := none, rt := none, rejectRun := 0 }) ∧
    (n.line.linkDn = true → Effect (.linkLoss .dn t) s fun m => m = n.modLine fun l =>
      { l with linkDn := false, lossDn := l.lossDn + 1 }) ∧
    (n.line.folded = false → Effect (.topologyChange t) s fun m =>
      m.line.seenUp = n.line.linkUp ∧ m.line.seenDn = n.line.linkDn ∧
      m.line.role = roleOf (n.parN Pid.lineHeaden 0 == 1) n.line.linkUp n.line.linkDn) ∧
    (s.node.heading = true → n.lt % n.cycleLen = 0 → n.line.cycStart = none →
      let judged := n.line.cyclesSent && !n.line.retCame
      Effect (.cycleStart t) s (fun m => m.line.cycStart = some n.lt ∧ m.line.cycle = n.cycleNo ∧
        m.line.missed = n.line.missed + (if judged then 1 else 0) ∧
        m.line.sent.head?.map TxFrame.payload = some (syncBytes n.lt n.line.rt0 0)) ∧
      (∀ r rs, n.line.rolls = r :: rs → Effect (.cycleStart t) s fun m => m.line.rolls = { r with sent := true } :: rs ∧
        m.line.cyclesSent = false ∧ m.line.sent.map TxFrame.typ = [0x01, 0x04]) ∧
      (n.line.rolls = [] → n.line.surveyDue = false → n.line.noCycSent = false → n.line.unfoldAt = none → n.host.mntQueue = [] →
        n.host.lineQueue = [] → Effect (.cycleStart t) s fun m => m.line.sent.map TxFrame.typ = [0x01, 0x02] ∧
          m.line.cyclesSent = true ∧ m.line.retCame = false)) ∧
    (s.node.up = true → s.node.heading = false → n.parN Pid.lineCycto 0 ≤ n.line.cycMiss →
      Effect (.cycTimeout t) s fun m => m.reported .cycTimeout 0xFF) ∧
    (∀ (h : FrameHdr) (bs : List Byte) (r : RollCall) (rs : List RollCall) (op : PoolOp),
      h.ending = .good → n.frameDir h = some true → s.node.heading = true → n.line.role = .head → n.line.rolls = r :: rs → r.sent = true →
      r.kind = .survey → r.ops = [op.order] → n.core.pool = [op] → op.side = .here → 8 ≤ bs.length →
      Effect (.rollcallComplete h bs t) s fun m => m.line.rolls = rs ∧ m.line.count = 1 + (bs.length - 8) / 12 ∧ m.core.pool = []) ∧
    (s.node.up = true → n.line.foldOps ≠ [] →
      Effect (.foldTakeEffect t) s (fun m => m.line.folded = true ∧ m.line.foldOps = [] ∧
        m.line.rolls = { kind := .fold, ops := n.line.foldOps } :: n.line.rolls) ∧
      (n.line.role ≠ .head → Effect (.foldTakeEffect t) s fun m => m.heading = true ∧ m.line.inTail = true ∧
        m.line.tailT = n.lockPos ∧ m.line.hops = some 0 ∧ m.time.mark = .lineTime)) ∧
    (∀ ops, n.line.unfoldAt = some (n.cycleNo, ops) → n.line.role = .head → n.parN Pid.lineHeaden 0 = 1 → n.line.linkUp = false →
      Effect (.unfoldCycle t) s fun m => m.line.folded = false ∧ m.line.unfoldAt = none ∧ m.line.tailB = 0 ∧
        m.line.rolls = n.line.rolls ++ [{ kind := .unfold, ops := ops }])

/-! ### Side-lanes, shadows and adoption -/

/-- R461 to R466, R469 to R471: a bulk frame that fails its check, comes without link or repeats a sequence number does nothing; links,
resends, beacons, shadow transfers and adoptions. -/
def Obligations.LanesAndAdoption : Prop :=
  (∀ (s : State) (q : LinePort) (t : Nat), s.node.power.vcel = true → s.node.power.cresetn = true → let n := s.node.atT t
    Effect (.laneLinkChange q true t) s (fun m => m.laneLink q = true ∧ m.store = n.store ∧ m.core = n.core) ∧
    ((∀ a, n.lane.adoption = some a → a.op = none) → Effect (.laneLinkChange q false t) s fun m =>
      m.laneLink q = false ∧ m.lane.refresh q = none ∧
      (match q with | .up => m.lane.beaconUp | .dn => m.lane.beaconDn) = none ∧
      ∀ a, n.lane.adoption = some a → m.lane.adoption = if a.port = q then none else some a)) ∧
  (∀ (s : State) (q : LinePort) (t : Nat), s.node.up = true → let n := s.node.atT t
    let sends := fun (m : Node) (xs : List LaneMsg) => m.lane.out.map LaneOut.msg = n.lane.out.map LaneOut.msg ++ xs
    Effect (.bulkResend t) s (fun m => m = if n.lane.sending then n.modLane fun l =>
      { l with out := n.lane.out.map fun o =>
          if o.port = n.lane.partnerPort ∧ kLe (o.tick + 4) n.time.k48 then { o with tick := n.time.k48 } else o } else n) ∧
    Effect (.beaconSend t) s (fun m => sends m ((if n.lane.upLink then [LaneMsg.beacon (n.beacon .up)] else []) ++
      if n.lane.dnLink then [LaneMsg.beacon (n.beacon .dn)] else [])) ∧
    (∀ x sh h, n.lane.refresh q = some x → x.header = some h → x.shadow = some sh → Effect (.shadowRefreshDone q t) s fun m =>
      m.lane.refresh q = none ∧ m.store.writes = n.store.writes ++ [{ kind := .shadow (q == .up) sh, op := none, words := [] }]) ∧
    (∀ x h, n.lane.refresh q = some x → x.header = some h → x.shadow = none → Effect (.shadowRefreshDone q t) s fun m =>
      m.lane.refresh q = none ∧ m.store = n.store) ∧
    (∀ x port, n.line.outcome = some 0 → n.core.mode = .cask → n.lane.adoption = none →
      (match q with | .up => n.lane.beaconUp | .dn => n.lane.beaconDn) = some x → x.autoAdopt = true → (n.eligible q).isSome = true →
      n.adoptSide 0 = some port → Effect (.autoAdopt q t) s fun m =>
        m.lane.adoption = some { op := none, port := port, transfer := { port := port } } ∧ sends m [.shadowReq true]) ∧
    (∀ a sh c, n.lane.adoption = some a → a.transfer.shadow = some sh → configOfBytes sh.bytes = some c → s.node.mayRun = true →
      Effect (.adoptionDone t) s fun m =>
        m.store.configs.get n.store.otherSlot = { c with generation := n.store.current.generation + 1 } ∧
        m.store.configs.get (!n.store.otherSlot) = n.store.configs.get (!n.store.otherSlot) ∧
        m.line.lock = some (sh.ownerPos.toNat, sh.ownerSig) ∧ m.line.outcome = some 1 ∧ m.core.pool = [] ∧
        m.core.run = .steep { trigger := .coreReset, start := n.now })) ∧
  (∀ (s : State) (g : LaneHdr) (t : Nat), s.node.up = true → let n := s.node.atT t
    let sends := fun (m : Node) (xs : List LaneMsg) => m.lane.out.map LaneOut.msg = n.lane.out.map LaneOut.msg ++ xs
    let fresh := g.crcOk && n.laneLink g.port && ((match g.port with | .up => n.lane.gotUp | .dn => n.lane.gotDn) != some g.seq)
    (fresh = false →
      ∀ (b : BeaconBody) (a : Bool) (x : ShadowPart) (fr : FormRequest) (r : BitVec 4) (p : Packet) (k : Nat) (y : RelayResult)
        (e : LaneEvent) (z : LaneRecord),
        ∀ c ∈ [Instr.beacon g b t, .shadowReq g a t, .shadowData g x t, .formReq g fr t, .formAns g r t, .split g t, .relay g p k t,
          .result g y t, .event g e t, .record g z t], Effect c s fun m => m = n) ∧
    (fresh = true →
      (∀ x : BeaconBody, Effect (.beacon g x t) s (fun m => (match g.port with | .up => m.lane.beaconUp | .dn => m.lane.beaconDn) = some x) ∧
        (n.lane.adoption = none → x.lockState = 1 → shadowDiffers (n.shadowOf g.port) x = true →
          Effect (.beacon g x t) s fun m => m.lane.refresh g.port = some { port := g.port } ∧ sends m [.shadowReq false]) ∧
        (shadowDiffers (n.shadowOf g.port) x = false → Effect (.beacon g x t) s fun m => m.lane.out = n.lane.out)) ∧
      (∀ (adopt : Bool) (sh : Shadow), (if adopt then n.shadowOf g.port else some n.ownShadow) = some sh →
        let ps := shadowParts sh (sh.bytes.length + 1) 0 sh.bytes
        ps.flatMap ShadowPart.bytes = sh.bytes ∧
        Effect (.shadowReq g adopt t) s fun m => sends m (ps.map LaneMsg.shadowData)) ∧
      (∀ (p : ShadowPart) (x : Transfer), n.lane.adoption = none → n.lane.refresh g.port = some x → p.offset = x.bytes.length →
        Effect (.shadowData g p t) s fun m => m.lane.refresh g.port =
          some { x with bytes := x.bytes ++ p.bytes, header := if p.last then some p else x.header }) ∧
      (∀ (p : ShadowPart) (a : Adoption), n.lane.adoption = some a → a.port = g.port →
        (p.last = false → p.offset = a.transfer.bytes.length → Effect (.shadowData g p t) s fun m =>
          m.lane.adoption = some { a with transfer := { a.transfer with bytes := a.transfer.bytes ++ p.bytes } }) ∧
        (p.last = true → a.op = none → (a.transfer.take p).shadow = none → Effect (.shadowData g p t) s fun m =>
          m.lane.adoption = none ∧ m.store = n.store)))) ∧
  (∀ (s : State) (p : Packet), let q := asRow .adopt p
    s.node.runsNow q = true →
    (∀ port, s.node.lane.adoption = none → fld (pw q 0) 9 0 = s.node.hopCount → s.node.lockState ≠ 1 →
      s.node.adoptSide (fld (pw q 0) 11 10) = some port → Effect (.adopt p) s fun m => s.node.goesOn q m ∧
        m.lane.adoption = some { op := some (s.node.opFrom q).order, port := port, transfer := { port := port } }) ∧
    (s.node.lane.adoption = none →
      fld (pw q 0) 9 0 ≠ s.node.hopCount ∨ s.node.lockState = 1 ∨ s.node.adoptSide (fld (pw q 0) 11 10) = none →
      Effect (.adopt p) s fun m => s.node.replies q .refusedUnsafe [[]] m ∧ m.lane.adoption = none))

/-! ### A tandem pair -/

/-- R471 to R498: the commands of a pair, its forming and fusion, tick packets, relayed commands and their results, partner loss and
splitting. -/
def Obligations.TandemPair : Prop :=
  (∀ (s : State) (p : Packet), let n := s.node
    (∀ q, q = asRow .tandemForm p → n.runsNow q = true → n.lane.state ≠ .forming →
      let want := fld (pw q 0) 9 0
      let r := n.formReasonOf (senderOf q) (n.lane.dnLink && want == n.lockPos + 1) true
      (r = 0 → Effect (.tandemForm p) s fun m => n.goesOn q m ∧ m.lane.state = .forming ∧ m.lane.isLower = true ∧
        m.lane.partnerPos = want ∧ m.lane.kf = wrapK (n.time.k48 + 32) ∧ m.lane.formOp = some (n.opFrom q).order ∧
        ∃ x : FormRequest, m.lane.out.map LaneOut.msg = n.lane.out.map LaneOut.msg ++ [.formReq x] ∧
          x.fusionTick = BitVec.ofNat 48 (wrapK (n.time.k48 + 32)) ∧ x.client = p.client) ∧
      (r ≠ 0 → Effect (.tandemForm p) s fun m => n.replies q (formStatus r) [[wN r]] m ∧ m.lane = n.lane)) ∧
    (∀ q, q = asRow .tandemSplit p → n.runsNow q = true →
      (n.lane.splitting = false → (∀ (c : Ch) a, (n.core.slots.get c).active = some a → a.1 ≠ (n.opFrom q).order) →
        (∀ w ∈ n.core.rests, w.op ≠ some (n.opFrom q).order) → Effect (.tandemSplit p) s fun m => n.goesOn q m ∧ m.lane.state = .splitting ∧ m.lane.splitting = true ∧
        m.lane.splitOp = some (n.opFrom q).order ∧ LaneMsg.split ∈ m.lane.out.map LaneOut.msg) ∧
      (n.lane.splitting = true → Effect (.tandemSplit p) s fun m => n.replies q .busy [[]] m ∧ m.lane = n.lane)) ∧
    (∀ q, q = asRow .tandemStatus p → n.runsNow q = true → let l := n.lane
      Effect (.tandemStatus p) s fun m => n.answersWith q .done
        [[wN (l.state.code + n.lockPos % 1024 * 2 ^ 3 + (if l.state = .single then 0 else l.partnerPos) % 1024 * 2 ^ 13 +
            flag (n.laneLink l.partnerPort) 23 + l.pkt.mode * 2 ^ 24), wN l.kMark, wN l.laneMiss, wN l.laneCrc, wN l.termMisses]] false m)) ∧
  (∀ (s : State) (g : LaneHdr) (t : Nat), let n := s.node.atT t
    s.node.up = true → g.crcOk = true → n.laneLink g.port = true →
    (match g.port with | .up => n.lane.gotUp | .dn => n.lane.gotDn) ≠ some g.seq →
    let sends := fun (m : Node) (xs : List LaneMsg) => m.lane.out.map LaneOut.msg = n.lane.out.map LaneOut.msg ++ xs
    (∀ x : FormRequest, g.port = .up → let r := n.answerForm x (clientOf x.fromHost x.client)
      Effect (.formReq g x t) s fun m => sends m [.formAns (BitVec.ofNat 4 r)] ∧
        (r = 0 → m.lane.state = .forming ∧ m.lane.isLower = false ∧ m.lane.kf = x.fusionTick.toNat ∧ m.lane.sending = true) ∧
        (r ≠ 0 → m.lane.state = n.lane.state)) ∧
    (∀ r : BitVec 4, g.port = .dn → n.lane.state = .forming → n.lane.isLower = true → Effect (.formAns g r t) s fun m =>
      m.lane.formReason = some r.toNat ∧ m.lane.sending = decide (r = 0)) ∧
    (n.isUpper = true →
      Effect (.split g t) s (fun m => m.lane.state = .splitting ∧ m.lane.splitting = true) ∧
      (∀ p k, kLe k n.time.k48 = false → Effect (.relay g p k t) s fun m => ∃ op : PoolOp, m.core.pool = n.core.pool ++ [op] ∧ op.packet = p ∧
        op.due = k ∧ op.side = .heldForPair ∧ op.phase = .waiting) ∧
      (∀ p k, kLe k n.time.k48 = true → (∀ op ∈ n.core.pool, op.order ≠ n.core.nextOrder) → Effect (.relay g p k t) s fun m =>
        m.core.pool = n.core.pool ∧ ∃ x : RelayResult, sends m [.result x] ∧ x.tag = p.tag ∧ x.status = 0x28)) ∧
    (n.isLower = true →
      (∀ (x : RelayResult) (op : PoolOp) (p : Packet), n.core.pool = [op] → op.client = clientOf x.fromHost x.client → op.packet.tag = x.tag →
        op.side = .sent → x.status = 0 → x.words.length ≤ 250 → 0 < x.words.length → op.packet = asRow .readPosition p →
        senderOf op.packet = op.client → Effect (.result g x t) s fun m => m.core.pool = [] ∧
          m.sentTo op.client = n.sentTo op.client ++ replyPackets op.packet .done x.green true x.tick.toNat [x.words]) ∧
      (∀ x : LaneEvent, x.code = BitVec.ofNat 16 EventCode.hopEnd.code → Effect (.event g x t) s fun m =>
        m.lane.remoteHops = n.lane.remoteHops.filter fun h => h.1 != fld (x.words.headD 0) 23 0) ∧
      (∀ x : LaneRecord, Effect (.record g x t) s fun m => m.lane.record = some x ∧ m.lane.pairRecLen = x.len.toNat))) ∧
  (∀ (s : State), let n := s.node
    n.up = true →
    (n.lane.state = .forming → n.lane.isLower = true → kLe n.lane.kf (n.time.k48 + 4) = true → n.lane.formReason ≠ some 0 →
      ∀ op : PoolOp, n.lane.formOp = some op.order → n.core.pool = [op] → op.side = .here →
      let r := n.lane.formReason.getD 5
      Effect .formAnswerDeadline s fun m => m.core.pool = [] ∧ m.lane.sending = false ∧ m.lane.state ≠ .forming ∧
        m.sentTo (senderOf op.packet) = n.sentTo (senderOf op.packet) ++ replyPackets op.packet (formStatus r) false true n.tick16 [[wN r]]) ∧
    (n.lane.state = .forming → n.lane.sending = true → wrapK (n.time.k48 + 2) = n.lane.kf →
      Effect .fusionReady s fun m => ∃ r, m.lane.formReason = some r ∧ m.lane.sentReady = decide (r = 0) ∧ m.core = n.core) ∧
    (n.lane.state = .forming → n.lane.sending = true → n.lane.kf = n.time.k48 →
      (n.lane.sentReady = true → n.lane.gotReady = true → Effect .tandemFusion s fun m => m.core.mode = .tandem ∧
        m.lane.state = (if n.lane.isLower then .lower else .upper) ∧ m.lane.survivor = false ∧ m.lane.kMark = n.time.k48) ∧
      (n.lane.gotReady = false → Effect .tandemFusion s fun m => m.core.mode = n.core.mode ∧ m.lane.sending = false ∧
        m.lane.state = if n.lane.survivor then .survivor else .single)) ∧
    (∀ bs : List Byte, n.core.faults.points = [] → n.core.mode = .tandem → n.laneLink n.lane.partnerPort = true →
      (tickPacketOk bs = false → Effect (.tickPacket bs) s fun m => m = n.modLane fun l => { l with laneCrc := l.laneCrc + 1 }) ∧
      (tickPacketOk bs = true → byteAt bs 1 ≠ n.time.k48 % 256 ∨ (tickPacketOf bs).mode ≠ 3 → Effect (.tickPacket bs) s fun m => m = n) ∧
      (tickPacketOk bs = true → byteAt bs 1 = n.time.k48 % 256 → (tickPacketOf bs).mode = 3 → Effect (.tickPacket bs) s fun m =>
        m.lane.pkt = tickPacketOf bs ∧ m.lane.pktTick = some n.time.k48 ∧ m.core = n.core)) ∧
    (2 ≤ n.lane.missRun → n.lane.lossDue = none → n.core.mode = .tandem → Effect .partnerLoss s fun m =>
      m.core.mode = .drive ∧ m.lane.state = .survivor ∧ m.lane.survivor = true ∧ m.lane.kMark = n.time.k48 ∧
      ∀ c : Ch, m.reported .partnerLost c.val) ∧
    (n.lane.missRun < 2 → Effect .partnerLoss s fun m => m = n) ∧
    (∀ t, n.lane.leavingAt = some t → n.core.mode = .tandem → kLe (t + 3) n.time.k48 = true → Effect .splitComplete s fun m =>
      m.core.mode = .track ∧ m.lane.state = .single ∧ m.lane.splitting = false ∧ m.lane.leavingAt = none))

/-! ### Store and firmware -/

/-- R447, R448, R537, R545 to R553: transfers of images, their checks, the activation with its drain, reads of the store, and finished
writes. -/
def Obligations.FirmwareAndStore : Prop :=
  (∀ (s : State) (p : Packet), let n := s.node
    (∀ q, q = asRow .fwBegin p → n.runsNow q = true →
      let trial := match n.core.running with
        | .image b => (n.store.images.get b).state == .trial
        | .boot => false
      let len := fld (pw q 0) 18 0
      (trial = true → Effect (.fwBegin p) s fun m => n.answersWith q .refusedUnsafe [[]] false m) ∧
      (∀ t : FwTransfer, trial = false → n.core.fw = some t → t.client ≠ senderOf q →
        Effect (.fwBegin p) s fun m => n.answersWith q .busy [[]] false m) ∧
      (trial = false → n.core.fw = none → n.core.fwCommit = none → n.store.writes = [] → Effect (.fwBegin p) s fun m =>
        n.replies q .done [[wN (flag n.targetSlot 0)]] m ∧
        m.core.fw = some { client := senderOf q, id := fld (pw q 0) 34 19, length := len, slot := n.targetSlot } ∧
        m.store.images.get n.targetSlot = { state := .receiving, length := len } ∧
        m.store.images.get (!n.targetSlot) = n.store.images.get (!n.targetSlot))) ∧
    (∀ q, q = asRow .fwBlock p → n.runsNow q = true → let off := fld (pw q 0) 18 0
      let count := fld (pw q 0) 29 19
      (∀ t : FwTransfer, n.core.fw = some t → t.client = senderOf q →
        (off + count ≤ t.length → Effect (.fwBlock p) s fun m => n.goesOn q m ∧ m.store.writes = n.store.writes ++
          [{ kind := .fwBlock off (((q.words.drop 1).flatMap wordBytes).take count), op := some (n.opFrom q).order, words := [] }]) ∧
        (t.length < off + count → Effect (.fwBlock p) s fun m => n.replies q .outOfRange [[]] m ∧ m.store = n.store)) ∧
      (n.core.fw = none → Effect (.fwBlock p) s fun m => n.replies q .refusedUnsafe [[]] m ∧ m.store = n.store)) ∧
    (∀ q, q = asRow .fwCommit p → n.runsNow q = true →
      (n.core.fw = none → Effect (.fwCommit p) s fun m => n.replies q .refusedUnsafe [[0, 0]] m ∧ m.store = n.store) ∧
      (∀ t : FwTransfer, n.core.fw = some t → t.client = senderOf q → n.core.fwCommit = none → Effect (.fwCommit p) s fun m =>
        n.goesOn q m ∧ m.core.fwCommit = some (n.opFrom q).order ∧ m.store = n.store)) ∧
    (∀ q, q = asRow .fwActivate p → n.runsNow q = true →
      (n.pendingImage = false → Effect (.fwActivate p) s fun m => n.replies q .refusedUnsafe [[]] m ∧ m.core.drain = none) ∧
      (n.pendingImage = true → Effect (.fwActivate p) s fun m => n.goesOn q m ∧ m.core.drain =
        some { op := (n.opFrom q).order, deadline := n.time.p0e + n.parN Pid.nodeDrain 0 * 1000000 })) ∧
    (∀ q, q = asRow .storeRead p → n.runsNow q = true → let region := fld (pw q 0) 3 0
      let off := fld (pw q 0) 23 4
      let count := fld (pw q 1) 10 0
      (region ≤ 9 → off + count ≤ regionSize region → Effect (.storeRead p) s fun m => m.store = n.store ∧ m.free = n.free + 1 ∧
        n.replies q .done [packWords count ((List.range count).map fun i => n.storeByte region (off + i))] m) ∧
      (9 < region ∨ regionSize region < off + count →
        Effect (.storeRead p) s fun m => n.answersWith q .outOfRange [[]] false m))) ∧
  (∀ (n : Node) (i : Nat),
    n.storeByte 0 i = n.store.images.a.bytes.get i ∧ n.storeByte 1 i = n.store.images.b.bytes.get i ∧
    (∀ b, (configBytes n.store.configs.a)[i]? = some b → n.storeByte 2 i = b) ∧
    (∀ b, (configBytes n.store.configs.b)[i]? = some b → n.storeByte 3 i = b) ∧
    (16 ≤ i → i < 32 → n.storeByte 8 i = 0)) ∧
  (∀ (s : State) (t : Nat) (f : FwTransfer) (o : Nat), let n := s.node.atT t
    let img := n.store.images.get f.slot
    s.node.up = true → n.core.fw = some f → n.core.fwCommit = some o →
    (∀ off, img.unwritten = some off → Effect (.fwCommitChecked t) s fun m =>
      m.core.fw = some f ∧ m.core.fwCommit = none ∧ m.store = n.store) ∧
    (img.unwritten = none → imageHeaderOk img = false ∨ imageRevisionOk img = false ∨ Config.signatureOk img.length img.bytes = false →
      Effect (.fwCommitChecked t) s fun m => m.core.fw = none ∧ m.core.fwCommit = none ∧ m.store.images.get f.slot = {} ∧
        m.store.images.get (!f.slot) = n.store.images.get (!f.slot)) ∧
    (img.unwritten = none → imageHeaderOk img = true → imageRevisionOk img = true → Config.signatureOk img.length img.bytes = true →
      let seq := (n.store.images.get (!f.slot)).seq + 1
      Effect (.fwCommitChecked t) s (fun m => m.core.fw = none ∧ m.core.fwCommit = none ∧
        m.store.images.get f.slot = { img with state := .pending, seq := seq, failed := 0 } ∧ m.pendingImage = true) ∧
      (∀ op : PoolOp, n.core.pool = [op] → op.order = o → op.side = .here → Effect (.fwCommitChecked t) s fun m =>
        m.sentTo (senderOf op.packet) = n.sentTo (senderOf op.packet) ++
          replyPackets op.packet .done false true n.tick16 [[wN seq, wN (imageVersion img.bytes)]]))) ∧
  (∀ (s : State) (d : Drain), s.node.up = true → s.node.core.drain = some d →
    (s.node.time.p0e < d.deadline → (∃ op ∈ s.node.core.pool, op.order ≠ d.op) → Effect .drainEnd s fun m => m = s.node) ∧
    (d.deadline ≤ s.node.time.p0e ∨ ((∀ op ∈ s.node.core.pool, op.order = d.op) ∧ s.node.core.hops = []) → s.node.mayRun = true →
      Effect .drainEnd s fun m => m.core.pool = [] ∧ m.core.run = .steep { trigger := .activation, start := s.node.now } ∧
        m.restart.updating = true ∧ m.store.configs = s.node.store.configs ∧
        ∀ op, s.node.opOf d.op = some op → m.held = some { client := op.client, packet := op.packet, order := op.order })) ∧
  (∀ (s : State) (t : Nat) (w : StoreWrite) (rest : List StoreWrite), s.node.up = true →
    s.node.store.nextWrite = some (w, rest) → w.op = none →
    (∀ f off bs, w.kind = .fwBlock off bs → s.node.core.fw = some f → Effect (.storeWriteDone t) s fun m => m.store.writes = rest ∧
      (m.store.images.get f.slot).bytes = (s.node.store.images.get f.slot).bytes.putAll off bs) ∧
    (∀ b c, w.kind = .config b c → Effect (.storeWriteDone t) s fun m =>
      m.store = { s.node.store with writes := rest, configs := s.node.store.configs.set b c })) ∧
  (∀ (s : State) (t : Nat), s.node.up = true → s.node.store.writes = [] →
    Effect (.storeWriteDone t) s fun m => m = s.node.atT t)

/-! ### The whole machine -/

/-- R48 to R51: the packet read from the bytes of a well-formed packet is that packet, every field at every value, with its check and
length found good; when AUTH is set the packet ends with the 32-bit MAC as four bytes, most significant first, and the word count, byte
7, does not include it; a packet holds between 10 and 1,264 bytes. -/
def Obligations.PacketsRoundTrip : Prop :=
  ∀ p : Packet, p.wf = true →
    packetOfBytes p.port (packetBytes p) = some (p, true) ∧
    (∀ mac, p.mac = some mac → packetBytes p = packetBody p ++ bytesBE 4 mac.toNat) ∧
    (packetBytes p)[7]? = some (BitVec.ofNat 8 p.words.length) ∧
    10 ≤ (packetBytes p).length ∧ (packetBytes p).length ≤ 1264

/-- The values of State.reset that the spec fixes or that follow from a node without supply (log entries 4, 6 and 7): its memories are in
canonical form, every item holds its After Steep value, no client, operation, instance or frame waits, the core is held, FAULTN and CASKN are
low, IRQN and SYNCOUT are not driven. -/
def Obligations.ResetLeavesAWellFormedNode : Prop :=
  let n := State.reset.node
  State.reset.wf = true ∧ State.reset.pending = [] ∧ (∀ i, n.core.params.get i = paramDefault i) ∧ (∀ i, n.core.waves.mem.get i = 0) ∧
  n.core.run = .held ∧ n.up = false ∧ n.core.mode = .cask ∧ n.core.pool = [] ∧ n.core.hops = [] ∧ n.core.faults.insts = [] ∧
  n.clients = [] ∧ n.sessions = [] ∧ n.stream = [] ∧ n.host.replies = [] ∧ n.store.writes = [] ∧ n.line.lock = none ∧ n.store.key = none ∧
  n.faultnLow = true ∧ n.casknLow = true ∧ n.irqnLow = false ∧ n.syncoutHigh = false ∧
  ∀ c : Ch, n.slotRunning c = false ∧ (n.core.fronts.get c).trk.running = false

/-- An invariant of every step: the parameter memory, the wave memory and both image memories stay in canonical form (rising addresses, no
entry equal to what an unlisted address reads as), so that equal contents are equal data. -/
def Obligations.EveryStepKeepsTheMemoriesCanonical : Prop :=
  ∀ s s' : State, s.wf = true → step s = .next s' → s'.wf = true

/-- R58, R60, R79, R83: a packet that does not pass the checks on arrival, or repeats a tag that is in the pool or cached, changes nothing
but the talk: its answer, the session's time and the replay cache. And the rows that only read change nothing but the talk, whatever becomes
of their packet (the lane of a pair carries the command to the partner, and the model's own counter of free values may advance). -/
def Obligations.ReadersAndRefusedPacketsChangeOnlyTheTalk : Prop :=
  (∀ (s : State) (p : Packet) (c : Ch) (v : Word),
    ∀ x ∈ [(Instr.ping p, asRow .ping p), (.openSession p, asRow .openSession p), (.closeSession p, asRow .closeSession p),
      (.subscribeSet p, withBits 0 2 0 (asRow .subscribe p)), (.keySet p, withBits 0 1 0 (asRow .keySet p)),
      (.setModeCask p, withBits 0 2 0 (asRow .setMode p)), (.setModeTrack p, withBits 0 2 1 (asRow .setMode p)),
      (.setModeDrive p, withBits 0 2 2 (asRow .setMode p)), (.steepRun p, asRow .steepRun p), (.clearFaults p, asRow .clearFaults p),
      (.tickRealign p, asRow .tickRealign p), (.paramWrite p, asRow .paramWrite p), (.tickRateWrite p v, writeOf p Pid.tickRate v),
      (.posOffsetWrite p c v, writeOf p (pidAt Pid.posOffset c.val) v), (.paramSave p, asRow .paramSave p),
      (.paramRestore p, asRow .paramRestore p), (.paramDefaults p, asRow .paramDefaults p), (.setPosition p, asRow .setPosition p),
      (.calibrateAngleWrite p, withBits 0 2 1 (asRow .calibrateAngle p)), (.historyRead p, asRow .historyRead p),
      (.moveTo p, asRow .moveTo p), (.moveBy p, asRow .moveBy p), (.jog p, asRow .jog p), (.stop p, asRow .stop p), (.park p, asRow .park p),
      (.setLimits p, asRow .setLimits p), (.gainSet p, asRow .gainSet p), (.loopEnable p, withBits 0 1 1 (asRow .loopEnable p)),
      (.loopDisable p, withBits 0 1 0 (asRow .loopEnable p)), (.cascadeSet p, asRow .cascadeSet p), (.latchArm p, asRow .latchArm p),
      (.latchRead p, asRow .latchRead p), (.hopAdd p, asRow .hopAdd p), (.emuSet p, asRow .emuSet p), (.dacConfig p, asRow .dacConfig p),
      (.dacWrite p, asRow .dacWrite p), (.dacStrobe p, asRow .dacStrobe p), (.waveLoadDefine p, withBits 4 2 0 (asRow .waveLoad p)),
      (.waveLoadData p, withBits 4 2 1 (asRow .waveLoad p)), (.wavePlay p, asRow .wavePlay p), (.waveStop p, asRow .waveStop p),
      (.soundConfig p, asRow .soundConfig p), (.zeroFlowCal p, asRow .zeroFlowCal p), (.fanSet p, asRow .fanSet p),
      (.rollcallSurvey p, withBits 0 2 0 (asRow .rollcall p)), (.relock p, asRow .relock p), (.adopt p, asRow .adopt p),
      (.fold p, asRow .fold p), (.unfold p, asRow .unfold p), (.pitchArm p, asRow .pitchArm p), (.pitchDisarm p, asRow .pitchDisarm p),
      (.fwBegin p, asRow .fwBegin p), (.fwBlock p, asRow .fwBlock p), (.fwCommit p, asRow .fwCommit p),
      (.fwActivate p, asRow .fwActivate p), (.storeRead p, asRow .storeRead p), (.tandemForm p, asRow .tandemForm p),
      (.tandemSplit p, asRow .tandemSplit p)],
      (s.node.arrived x.2).1 = none → Effect x.1 s fun m => m.body = s.node.body) ∧
  ∀ (s : State) (p : Packet),
    ∀ c ∈ [Instr.ping p, .describe p, .replay p, .replayList p, .subscribeSet p, .subscribeAdd p, .subscribeRemove p, .subscribeAll p,
      .status p, .paramRead p, .readPosition p, .calibrateAngleRead p, .historyRead p, .hopList p, .soundRead p, .rtdRead p, .fanRead p,
      .lineStats p, .timeRead p, .faultRead p, .faultLog p, .refStatus p, .tickStats p, .storeRead p, .tandemStatus p],
      Effect c s fun m => { m.body with free := s.node.free, lane := s.node.lane } = s.node.body

/-- The frame of the writing commands, family by family and in whatever way they end: motion leaves all but the slots, loops and cascade all
but slots, items, outputs and faults, outputs and waves all but outputs, waves and waiting writes, latches and hops all but those, line
commands all but the line, firmware commands all but the image slots, waiting writes and their transfer. -/
def Obligations.FamiliesStayInTheirPlace : Prop :=
  ∀ (s : State) (p : Packet), let n := s.node
    let still := fun (m : Node) => m.power = n.power ∧ m.time = n.time ∧ m.nonces = n.nonces ∧ m.restart = n.restart ∧ m.held = n.held ∧
      m.adopted = n.adopted ∧ m.steepWord = n.steepWord
    (n.core.rests = [] → ∀ c ∈ [Instr.moveTo p, .moveBy p, .jog p, .stop p], Effect c s fun m => still m ∧ m.line = n.line ∧
      m.store = n.store ∧ { m.core.body with slots := n.core.slots, rests := [] } = n.core.body) ∧
    (n.core.rests = [] → ∀ c ∈ [Instr.park p, .loopEnable p, .loopDisable p, .cascadeSet p, .setLimits p, .gainSet p], Effect c s fun m =>
      still m ∧ m.line = n.line ∧ m.store = n.store ∧
      { m.core.body with
        slots := n.core.slots, rests := [], params := n.core.params, outs := n.core.outs, faults := n.core.faults } = n.core.body) ∧
    (∀ c ∈ [Instr.dacWrite p, .dacStrobe p, .waveLoadDefine p, .waveLoadData p, .waveLoadSeal p, .waveLoadDelete p, .wavePlay p, .waveStop p],
      Effect c s fun m => still m ∧ m.line = n.line ∧ { m.store with writes := n.store.writes } = n.store ∧
        { m.core.body with outs := n.core.outs, waves := n.core.waves, strobes := n.core.strobes } = n.core.body) ∧
    (∀ c ∈ [Instr.latchArm p, .latchArmOff p, .latchRead p, .hopAdd p, .hopRemoveByHandle p, .hopRemoveByChannel p, .hopRemoveByOutput p],
      Effect c s fun m => still m ∧ m.line = n.line ∧ m.store = n.store ∧
        { m.core.body with pos := n.core.pos, hops := n.core.hops } = n.core.body) ∧
    (∀ c ∈ [Instr.rollcallSurvey p, .rollcallAssign p, .relock p, .fold p, .unfold p, .lineStats p], Effect c s fun m =>
      still m ∧ m.store = n.store ∧ m.core.body = n.core.body) ∧
    (∀ c ∈ [Instr.fwBegin p, .fwBlock p, .fwCommit p, .fwActivate p], Effect c s fun m => still m ∧ m.line = n.line ∧
      { m.store with images := n.store.images, writes := n.store.writes } = n.store ∧
      { m.core.body with fw := n.core.fw, fwCommit := n.core.fwCommit, drain := n.core.drain } = n.core.body)
end

