-- ==== Sys2Proof/Laws/Memory.lean ====
section
/-!
SUPPORT. The sparse memories of the node: every write keeps the canonical form, and a read after a write gives what was
written at its place and what was there elsewhere.
-/
namespace Sys2Proof.Machine

/-- An entry that the working set may list. -/
def ParamMem.entryOk (e : Nat × Word) : Prop := e.2 ≠ paramDefault e.1
/-- An entry that wave memory may list. -/
def WaveMem.entryOk (e : Nat × BitVec 18) : Prop := e.2 ≠ 0
/-- An entry that an image may list. -/
def ByteMem.entryOk (e : Nat × Byte) : Prop := e.2 ≠ 0

/-! ### ParamMem -/

/-- What a write leaves listed: its own place, and what was listed. -/
theorem ParamMem.mem_put (m : ParamMem) (i : Nat) (v : Word) (x : Nat × Word) (hx : x ∈ ParamMem.put m i v) : x.1 = i ∨ x ∈ m := by
  induction m with
  | nil =>
    unfold ParamMem.put at hx
    split at hx
    · exact .inr hx
    · rw [List.mem_singleton] at hx; exact .inl (by rw [hx])
  | cons e es ih =>
    unfold ParamMem.put at hx
    split at hx
    · split at hx
      · exact .inr hx
      · rcases List.mem_cons.mp hx with h | h
        · exact .inl (by rw [h])
        · exact .inr h
    · split at hx
      · split at hx
        · exact .inr (List.mem_cons_of_mem _ hx)
        · rcases List.mem_cons.mp hx with h | h
          · exact .inl (by rw [h])
          · exact .inr (List.mem_cons_of_mem _ h)
      · rcases List.mem_cons.mp hx with h | h
        · exact .inr (by rw [h]; exact List.mem_cons_self)
        · rcases ih h with h | h
          · exact .inl h
          · exact .inr (List.mem_cons_of_mem _ h)

theorem ParamMem.wf_cons (e : Nat × Word) (es : ParamMem) :
    ParamMem.wf (e :: es) = true ↔ (ParamMem.entryOk e ∧ ∀ x ∈ es, e.1 < x.1) ∧ ParamMem.wf es = true := by
  simp [ParamMem.wf, ParamMem.entryOk, and_assoc]

/-- A write keeps the canonical form. -/
theorem ParamMem.put_wf (m : ParamMem) (i : Nat) (v : Word) (h : ParamMem.wf m = true) : ParamMem.wf (ParamMem.put m i v) = true := by
  induction m with
  | nil =>
    unfold ParamMem.put
    split
    · exact h
    · rename_i hv
      exact (ParamMem.wf_cons _ _).mpr ⟨⟨hv, fun _ hx => absurd hx List.not_mem_nil⟩, rfl⟩
  | cons e es ih =>
    have hc := (ParamMem.wf_cons e es).mp h
    unfold ParamMem.put
    split
    · rename_i hlt
      split
      · exact h
      · rename_i hv
        refine (ParamMem.wf_cons _ _).mpr ⟨⟨hv, fun x hx => ?_⟩, h⟩
        rcases List.mem_cons.mp hx with hx | hx
        · rw [hx]; exact hlt
        · exact Nat.lt_trans hlt (hc.1.2 x hx)
    · split
      · rename_i heq
        split
        · exact hc.2
        · rename_i hv
          exact (ParamMem.wf_cons _ _).mpr ⟨⟨hv, fun x hx => heq ▸ hc.1.2 x hx⟩, hc.2⟩
      · rename_i hlt hne
        refine (ParamMem.wf_cons _ _).mpr ⟨⟨hc.1.1, fun x hx => ?_⟩, ih hc.2⟩
        rcases ParamMem.mem_put es i v x hx with hx | hx
        · rw [hx]; omega
        · exact hc.1.2 x hx

theorem ParamMem.get_cons (e : Nat × Word) (es : ParamMem) (j : Nat) :
    ParamMem.get (e :: es) j = if e.1 = j then e.2 else ParamMem.get es j := by
  by_cases h : e.1 = j <;> simp [ParamMem.get, h]

theorem ParamMem.get_unlisted (m : ParamMem) (j : Nat) (h : ∀ x ∈ m, j ≠ x.1) : ParamMem.get m j = ParamMem.get [] j := by
  induction m with
  | nil => rfl
  | cons e es ih =>
    rw [ParamMem.get_cons, if_neg (fun he => h e List.mem_cons_self he.symm)]
    exact ih fun x hx => h x (List.mem_cons_of_mem _ hx)

theorem ParamMem.get_nil (j : Nat) : ParamMem.get [] j = paramDefault j := rfl

/-- Reading after a write gives the value written at its place, and elsewhere what was there. -/
theorem ParamMem.get_put (m : ParamMem) (i j : Nat) (v : Word) (h : ParamMem.wf m = true) :
    ParamMem.get (ParamMem.put m i v) j = if j = i then v else ParamMem.get m j := by
  induction m with
  | nil =>
    unfold ParamMem.put
    split
    · rename_i hv
      split
      · rename_i hj; rw [hv, hj]; exact ParamMem.get_nil i
      · rfl
    · rw [ParamMem.get_cons]
      by_cases hj : j = i
      · rw [if_pos hj, if_pos hj.symm]
      · rw [if_neg hj, if_neg (fun he => hj he.symm)]
  | cons e es ih =>
    have hc := (ParamMem.wf_cons e es).mp h
    have ih := ih hc.2
    unfold ParamMem.put
    split
    · rename_i hlt
      have hno : ParamMem.get (e :: es) i = paramDefault i :=
        ParamMem.get_unlisted _ i fun x hx => by
          rcases List.mem_cons.mp hx with hx | hx
          · rw [hx]; omega
          · have := hc.1.2 x hx; omega
      split
      · rename_i hv
        by_cases hj : j = i
        · rw [if_pos hj, hj, hno, hv]
        · rw [if_neg hj]
      · rw [ParamMem.get_cons]
        by_cases hj : j = i
        · rw [if_pos hj, if_pos hj.symm]
        · rw [if_neg hj, if_neg (fun he => hj he.symm)]
    · split
      · rename_i heq
        have hno : ParamMem.get es e.1 = ParamMem.get [] e.1 :=
          ParamMem.get_unlisted _ _ fun x hx => by have := hc.1.2 x hx; omega
        split
        · rename_i hv
          by_cases hj : j = i
          · rw [if_pos hj, hj, heq, hno, ParamMem.get_nil, hv, ← heq]
          · rw [if_neg hj, ParamMem.get_cons, if_neg (fun he => hj (by omega))]
        · rw [ParamMem.get_cons, ParamMem.get_cons]
          by_cases hj : j = i
          · rw [if_pos hj, if_pos hj.symm]
          · rw [if_neg hj, if_neg (fun he => hj he.symm), if_neg (fun he => hj (by omega))]
      · rw [ParamMem.get_cons, ParamMem.get_cons, ih]
        by_cases hj : e.1 = j
        · rw [if_pos hj, if_pos hj, if_neg (by omega)]
        · rw [if_neg hj, if_neg hj]

/-! ### WaveMem -/

/-- What a write leaves listed: its own place, and what was listed. -/
theorem WaveMem.mem_put (m : WaveMem) (i : Nat) (v : BitVec 18) (x : Nat × BitVec 18) (hx : x ∈ WaveMem.put m i v) : x.1 = i ∨ x ∈ m := by
  induction m with
  | nil =>
    unfold WaveMem.put at hx
    split at hx
    · exact .inr hx
    · rw [List.mem_singleton] at hx; exact .inl (by rw [hx])
  | cons e es ih =>
    unfold WaveMem.put at hx
    split at hx
    · split at hx
      · exact .inr hx
      · rcases List.mem_cons.mp hx with h | h
        · exact .inl (by rw [h])
        · exact .inr h
    · split at hx
      · split at hx
        · exact .inr (List.mem_cons_of_mem _ hx)
        · rcases List.mem_cons.mp hx with h | h
          · exact .inl (by rw [h])
          · exact .inr (List.mem_cons_of_mem _ h)
      · rcases List.mem_cons.mp hx with h | h
        · exact .inr (by rw [h]; exact List.mem_cons_self)
        · rcases ih h with h | h
          · exact .inl h
          · exact .inr (List.mem_cons_of_mem _ h)

theorem WaveMem.wf_cons (e : Nat × BitVec 18) (es : WaveMem) :
    WaveMem.wf (e :: es) = true ↔ (WaveMem.entryOk e ∧ ∀ x ∈ es, e.1 < x.1) ∧ WaveMem.wf es = true := by
  simp [WaveMem.wf, WaveMem.entryOk, and_assoc]

/-- A write keeps the canonical form. -/
theorem WaveMem.put_wf (m : WaveMem) (i : Nat) (v : BitVec 18) (h : WaveMem.wf m = true) : WaveMem.wf (WaveMem.put m i v) = true := by
  induction m with
  | nil =>
    unfold WaveMem.put
    split
    · exact h
    · rename_i hv
      exact (WaveMem.wf_cons _ _).mpr ⟨⟨hv, fun _ hx => absurd hx List.not_mem_nil⟩, rfl⟩
  | cons e es ih =>
    have hc := (WaveMem.wf_cons e es).mp h
    unfold WaveMem.put
    split
    · rename_i hlt
      split
      · exact h
      · rename_i hv
        refine (WaveMem.wf_cons _ _).mpr ⟨⟨hv, fun x hx => ?_⟩, h⟩
        rcases List.mem_cons.mp hx with hx | hx
        · rw [hx]; exact hlt
        · exact Nat.lt_trans hlt (hc.1.2 x hx)
    · split
      · rename_i heq
        split
        · exact hc.2
        · rename_i hv
          exact (WaveMem.wf_cons _ _).mpr ⟨⟨hv, fun x hx => heq ▸ hc.1.2 x hx⟩, hc.2⟩
      · rename_i hlt hne
        refine (WaveMem.wf_cons _ _).mpr ⟨⟨hc.1.1, fun x hx => ?_⟩, ih hc.2⟩
        rcases WaveMem.mem_put es i v x hx with hx | hx
        · rw [hx]; omega
        · exact hc.1.2 x hx

theorem WaveMem.get_cons (e : Nat × BitVec 18) (es : WaveMem) (j : Nat) :
    WaveMem.get (e :: es) j = if e.1 = j then e.2 else WaveMem.get es j := by
  by_cases h : e.1 = j <;> simp [WaveMem.get, h]

theorem WaveMem.get_unlisted (m : WaveMem) (j : Nat) (h : ∀ x ∈ m, j ≠ x.1) : WaveMem.get m j = WaveMem.get [] j := by
  induction m with
  | nil => rfl
  | cons e es ih =>
    rw [WaveMem.get_cons, if_neg (fun he => h e List.mem_cons_self he.symm)]
    exact ih fun x hx => h x (List.mem_cons_of_mem _ hx)

theorem WaveMem.get_nil (j : Nat) : WaveMem.get [] j = 0 := rfl

/-- Reading after a write gives the value written at its place, and elsewhere what was there. -/
theorem WaveMem.get_put (m : WaveMem) (i j : Nat) (v : BitVec 18) (h : WaveMem.wf m = true) :
    WaveMem.get (WaveMem.put m i v) j = if j = i then v else WaveMem.get m j := by
  induction m with
  | nil =>
    unfold WaveMem.put
    split
    · rename_i hv
      split
      · rename_i hj; rw [hv, hj]; exact WaveMem.get_nil i
      · rfl
    · rw [WaveMem.get_cons]
      by_cases hj : j = i
      · rw [if_pos hj, if_pos hj.symm]
      · rw [if_neg hj, if_neg (fun he => hj he.symm)]
  | cons e es ih =>
    have hc := (WaveMem.wf_cons e es).mp h
    have ih := ih hc.2
    unfold WaveMem.put
    split
    · rename_i hlt
      have hno : WaveMem.get (e :: es) i = 0 :=
        WaveMem.get_unlisted _ i fun x hx => by
          rcases List.mem_cons.mp hx with hx | hx
          · rw [hx]; omega
          · have := hc.1.2 x hx; omega
      split
      · rename_i hv
        by_cases hj : j = i
        · rw [if_pos hj, hj, hno, hv]
        · rw [if_neg hj]
      · rw [WaveMem.get_cons]
        by_cases hj : j = i
        · rw [if_pos hj, if_pos hj.symm]
        · rw [if_neg hj, if_neg (fun he => hj he.symm)]
    · split
      · rename_i heq
        have hno : WaveMem.get es e.1 = WaveMem.get [] e.1 :=
          WaveMem.get_unlisted _ _ fun x hx => by have := hc.1.2 x hx; omega
        split
        · rename_i hv
          by_cases hj : j = i
          · rw [if_pos hj, hj, heq, hno, WaveMem.get_nil, hv]
          · rw [if_neg hj, WaveMem.get_cons, if_neg (fun he => hj (by omega))]
        · rw [WaveMem.get_cons, WaveMem.get_cons]
          by_cases hj : j = i
          · rw [if_pos hj, if_pos hj.symm]
          · rw [if_neg hj, if_neg (fun he => hj he.symm), if_neg (fun he => hj (by omega))]
      · rw [WaveMem.get_cons, WaveMem.get_cons, ih]
        by_cases hj : e.1 = j
        · rw [if_pos hj, if_pos hj, if_neg (by omega)]
        · rw [if_neg hj, if_neg hj]

/-! ### ByteMem -/

/-- What a write leaves listed: its own place, and what was listed. -/
theorem ByteMem.mem_put (m : ByteMem) (i : Nat) (v : Byte) (x : Nat × Byte) (hx : x ∈ ByteMem.put m i v) : x.1 = i ∨ x ∈ m := by
  induction m with
  | nil =>
    unfold ByteMem.put at hx
    split at hx
    · exact .inr hx
    · rw [List.mem_singleton] at hx; exact .inl (by rw [hx])
  | cons e es ih =>
    unfold ByteMem.put at hx
    split at hx
    · split at hx
      · exact .inr hx
      · rcases List.mem_cons.mp hx with h | h
        · exact .inl (by rw [h])
        · exact .inr h
    · split at hx
      · split at hx
        · exact .inr (List.mem_cons_of_mem _ hx)
        · rcases List.mem_cons.mp hx with h | h
          · exact .inl (by rw [h])
          · exact .inr (List.mem_cons_of_mem _ h)
      · rcases List.mem_cons.mp hx with h | h
        · exact .inr (by rw [h]; exact List.mem_cons_self)
        · rcases ih h with h | h
          · exact .inl h
          · exact .inr (List.mem_cons_of_mem _ h)

theorem ByteMem.wf_cons (e : Nat × Byte) (es : ByteMem) :
    ByteMem.wf (e :: es) = true ↔ (ByteMem.entryOk e ∧ ∀ x ∈ es, e.1 < x.1) ∧ ByteMem.wf es = true := by
  simp [ByteMem.wf, ByteMem.entryOk, and_assoc]

/-- A write keeps the canonical form. -/
theorem ByteMem.put_wf (m : ByteMem) (i : Nat) (v : Byte) (h : ByteMem.wf m = true) : ByteMem.wf (ByteMem.put m i v) = true := by
  induction m with
  | nil =>
    unfold ByteMem.put
    split
    · exact h
    · rename_i hv
      exact (ByteMem.wf_cons _ _).mpr ⟨⟨hv, fun _ hx => absurd hx List.not_mem_nil⟩, rfl⟩
  | cons e es ih =>
    have hc := (ByteMem.wf_cons e es).mp h
    unfold ByteMem.put
    split
    · rename_i hlt
      split
      · exact h
      · rename_i hv
        refine (ByteMem.wf_cons _ _).mpr ⟨⟨hv, fun x hx => ?_⟩, h⟩
        rcases List.mem_cons.mp hx with hx | hx
        · rw [hx]; exact hlt
        · exact Nat.lt_trans hlt (hc.1.2 x hx)
    · split
      · rename_i heq
        split
        · exact hc.2
        · rename_i hv
          exact (ByteMem.wf_cons _ _).mpr ⟨⟨hv, fun x hx => heq ▸ hc.1.2 x hx⟩, hc.2⟩
      · rename_i hlt hne
        refine (ByteMem.wf_cons _ _).mpr ⟨⟨hc.1.1, fun x hx => ?_⟩, ih hc.2⟩
        rcases ByteMem.mem_put es i v x hx with hx | hx
        · rw [hx]; omega
        · exact hc.1.2 x hx

theorem ByteMem.get_cons (e : Nat × Byte) (es : ByteMem) (j : Nat) :
    ByteMem.get (e :: es) j = if e.1 = j then e.2 else ByteMem.get es j := by
  by_cases h : e.1 = j <;> simp [ByteMem.get, h]

theorem ByteMem.get_unlisted (m : ByteMem) (j : Nat) (h : ∀ x ∈ m, j ≠ x.1) : ByteMem.get m j = ByteMem.get [] j := by
  induction m with
  | nil => rfl
  | cons e es ih =>
    rw [ByteMem.get_cons, if_neg (fun he => h e List.mem_cons_self he.symm)]
    exact ih fun x hx => h x (List.mem_cons_of_mem _ hx)

theorem ByteMem.get_nil (j : Nat) : ByteMem.get [] j = 0 := rfl

/-- Reading after a write gives the value written at its place, and elsewhere what was there. -/
theorem ByteMem.get_put (m : ByteMem) (i j : Nat) (v : Byte) (h : ByteMem.wf m = true) :
    ByteMem.get (ByteMem.put m i v) j = if j = i then v else ByteMem.get m j := by
  induction m with
  | nil =>
    unfold ByteMem.put
    split
    · rename_i hv
      split
      · rename_i hj; rw [hv, hj]; exact ByteMem.get_nil i
      · rfl
    · rw [ByteMem.get_cons]
      by_cases hj : j = i
      · rw [if_pos hj, if_pos hj.symm]
      · rw [if_neg hj, if_neg (fun he => hj he.symm)]
  | cons e es ih =>
    have hc := (ByteMem.wf_cons e es).mp h
    have ih := ih hc.2
    unfold ByteMem.put
    split
    · rename_i hlt
      have hno : ByteMem.get (e :: es) i = 0 :=
        ByteMem.get_unlisted _ i fun x hx => by
          rcases List.mem_cons.mp hx with hx | hx
          · rw [hx]; omega
          · have := hc.1.2 x hx; omega
      split
      · rename_i hv
        by_cases hj : j = i
        · rw [if_pos hj, hj, hno, hv]
        · rw [if_neg hj]
      · rw [ByteMem.get_cons]
        by_cases hj : j = i
        · rw [if_pos hj, if_pos hj.symm]
        · rw [if_neg hj, if_neg (fun he => hj he.symm)]
    · split
      · rename_i heq
        have hno : ByteMem.get es e.1 = ByteMem.get [] e.1 :=
          ByteMem.get_unlisted _ _ fun x hx => by have := hc.1.2 x hx; omega
        split
        · rename_i hv
          by_cases hj : j = i
          · rw [if_pos hj, hj, heq, hno, ByteMem.get_nil, hv]
          · rw [if_neg hj, ByteMem.get_cons, if_neg (fun he => hj (by omega))]
        · rw [ByteMem.get_cons, ByteMem.get_cons]
          by_cases hj : j = i
          · rw [if_pos hj, if_pos hj.symm]
          · rw [if_neg hj, if_neg (fun he => hj he.symm), if_neg (fun he => hj (by omega))]
      · rw [ByteMem.get_cons, ByteMem.get_cons, ih]
        by_cases hj : e.1 = j
        · rw [if_pos hj, if_pos hj, if_neg (by omega)]
        · rw [if_neg hj, if_neg hj]

/-- Writing bytes one after the other keeps the canonical form. -/
theorem ByteMem.putAll_wf (m : ByteMem) (a : Nat) (bs : List Byte) (h : ByteMem.wf m = true) : ByteMem.wf (ByteMem.putAll m a bs) = true := by
  induction bs generalizing m a with
  | nil => exact h
  | cons b bs ih => exact ih _ _ (ByteMem.put_wf m a b h)

/-- Writing several items keeps the canonical form. -/
theorem ParamMem.putAll_wf (m : ParamMem) (xs : List (Nat × Word)) (h : ParamMem.wf m = true) : ParamMem.wf (ParamMem.putAll m xs) = true := by
  unfold ParamMem.putAll
  induction xs generalizing m with
  | nil => exact h
  | cons e es ih => exact ih _ (ParamMem.put_wf m e.1 e.2 h)

end Sys2Proof.Machine
end

