-- ==== Sys2Proof/Laws/State.lean ====
section
/-!
SUPPORT. One lemma per field per update of the node, each true by unfolding the update once, so that no later proof
unfolds a record update.
-/
namespace Sys2Proof.Machine

/-! ### modCore -/

@[simp] theorem modCore_power (f : Core → Core) (n : Node) : (n.modCore f).power = n.power := rfl
@[simp] theorem modCore_time (f : Core → Core) (n : Node) : (n.modCore f).time = n.time := rfl
@[simp] theorem modCore_clients (f : Core → Core) (n : Node) : (n.modCore f).clients = n.clients := rfl
@[simp] theorem modCore_sessions (f : Core → Core) (n : Node) : (n.modCore f).sessions = n.sessions := rfl
@[simp] theorem modCore_nonces (f : Core → Core) (n : Node) : (n.modCore f).nonces = n.nonces := rfl
@[simp] theorem modCore_stream (f : Core → Core) (n : Node) : (n.modCore f).stream = n.stream := rfl
@[simp] theorem modCore_streamSent (f : Core → Core) (n : Node) : (n.modCore f).streamSent = n.streamSent := rfl
@[simp] theorem modCore_host (f : Core → Core) (n : Node) : (n.modCore f).host = n.host := rfl
@[simp] theorem modCore_store (f : Core → Core) (n : Node) : (n.modCore f).store = n.store := rfl
@[simp] theorem modCore_restart (f : Core → Core) (n : Node) : (n.modCore f).restart = n.restart := rfl
@[simp] theorem modCore_held (f : Core → Core) (n : Node) : (n.modCore f).held = n.held := rfl
@[simp] theorem modCore_adopted (f : Core → Core) (n : Node) : (n.modCore f).adopted = n.adopted := rfl
@[simp] theorem modCore_steepWord (f : Core → Core) (n : Node) : (n.modCore f).steepWord = n.steepWord := rfl
@[simp] theorem modCore_line (f : Core → Core) (n : Node) : (n.modCore f).line = n.line := rfl
@[simp] theorem modCore_lane (f : Core → Core) (n : Node) : (n.modCore f).lane = n.lane := rfl
@[simp] theorem modCore_core (f : Core → Core) (n : Node) : (n.modCore f).core = f n.core := rfl
@[simp] theorem modCore_free (f : Core → Core) (n : Node) : (n.modCore f).free = n.free := rfl

/-! ### modLine -/

@[simp] theorem modLine_power (f : Line → Line) (n : Node) : (n.modLine f).power = n.power := rfl
@[simp] theorem modLine_time (f : Line → Line) (n : Node) : (n.modLine f).time = n.time := rfl
@[simp] theorem modLine_clients (f : Line → Line) (n : Node) : (n.modLine f).clients = n.clients := rfl
@[simp] theorem modLine_sessions (f : Line → Line) (n : Node) : (n.modLine f).sessions = n.sessions := rfl
@[simp] theorem modLine_nonces (f : Line → Line) (n : Node) : (n.modLine f).nonces = n.nonces := rfl
@[simp] theorem modLine_stream (f : Line → Line) (n : Node) : (n.modLine f).stream = n.stream := rfl
@[simp] theorem modLine_streamSent (f : Line → Line) (n : Node) : (n.modLine f).streamSent = n.streamSent := rfl
@[simp] theorem modLine_host (f : Line → Line) (n : Node) : (n.modLine f).host = n.host := rfl
@[simp] theorem modLine_store (f : Line → Line) (n : Node) : (n.modLine f).store = n.store := rfl
@[simp] theorem modLine_restart (f : Line → Line) (n : Node) : (n.modLine f).restart = n.restart := rfl
@[simp] theorem modLine_held (f : Line → Line) (n : Node) : (n.modLine f).held = n.held := rfl
@[simp] theorem modLine_adopted (f : Line → Line) (n : Node) : (n.modLine f).adopted = n.adopted := rfl
@[simp] theorem modLine_steepWord (f : Line → Line) (n : Node) : (n.modLine f).steepWord = n.steepWord := rfl
@[simp] theorem modLine_line (f : Line → Line) (n : Node) : (n.modLine f).line = f n.line := rfl
@[simp] theorem modLine_lane (f : Line → Line) (n : Node) : (n.modLine f).lane = n.lane := rfl
@[simp] theorem modLine_core (f : Line → Line) (n : Node) : (n.modLine f).core = n.core := rfl
@[simp] theorem modLine_free (f : Line → Line) (n : Node) : (n.modLine f).free = n.free := rfl

/-! ### modLane -/

@[simp] theorem modLane_power (f : Lane → Lane) (n : Node) : (n.modLane f).power = n.power := rfl
@[simp] theorem modLane_time (f : Lane → Lane) (n : Node) : (n.modLane f).time = n.time := rfl
@[simp] theorem modLane_clients (f : Lane → Lane) (n : Node) : (n.modLane f).clients = n.clients := rfl
@[simp] theorem modLane_sessions (f : Lane → Lane) (n : Node) : (n.modLane f).sessions = n.sessions := rfl
@[simp] theorem modLane_nonces (f : Lane → Lane) (n : Node) : (n.modLane f).nonces = n.nonces := rfl
@[simp] theorem modLane_stream (f : Lane → Lane) (n : Node) : (n.modLane f).stream = n.stream := rfl
@[simp] theorem modLane_streamSent (f : Lane → Lane) (n : Node) : (n.modLane f).streamSent = n.streamSent := rfl
@[simp] theorem modLane_host (f : Lane → Lane) (n : Node) : (n.modLane f).host = n.host := rfl
@[simp] theorem modLane_store (f : Lane → Lane) (n : Node) : (n.modLane f).store = n.store := rfl
@[simp] theorem modLane_restart (f : Lane → Lane) (n : Node) : (n.modLane f).restart = n.restart := rfl
@[simp] theorem modLane_held (f : Lane → Lane) (n : Node) : (n.modLane f).held = n.held := rfl
@[simp] theorem modLane_adopted (f : Lane → Lane) (n : Node) : (n.modLane f).adopted = n.adopted := rfl
@[simp] theorem modLane_steepWord (f : Lane → Lane) (n : Node) : (n.modLane f).steepWord = n.steepWord := rfl
@[simp] theorem modLane_line (f : Lane → Lane) (n : Node) : (n.modLane f).line = n.line := rfl
@[simp] theorem modLane_lane (f : Lane → Lane) (n : Node) : (n.modLane f).lane = f n.lane := rfl
@[simp] theorem modLane_core (f : Lane → Lane) (n : Node) : (n.modLane f).core = n.core := rfl
@[simp] theorem modLane_free (f : Lane → Lane) (n : Node) : (n.modLane f).free = n.free := rfl

/-! ### modHost -/

@[simp] theorem modHost_power (f : HostPort → HostPort) (n : Node) : (n.modHost f).power = n.power := rfl
@[simp] theorem modHost_time (f : HostPort → HostPort) (n : Node) : (n.modHost f).time = n.time := rfl
@[simp] theorem modHost_clients (f : HostPort → HostPort) (n : Node) : (n.modHost f).clients = n.clients := rfl
@[simp] theorem modHost_sessions (f : HostPort → HostPort) (n : Node) : (n.modHost f).sessions = n.sessions := rfl
@[simp] theorem modHost_nonces (f : HostPort → HostPort) (n : Node) : (n.modHost f).nonces = n.nonces := rfl
@[simp] theorem modHost_stream (f : HostPort → HostPort) (n : Node) : (n.modHost f).stream = n.stream := rfl
@[simp] theorem modHost_streamSent (f : HostPort → HostPort) (n : Node) : (n.modHost f).streamSent = n.streamSent := rfl
@[simp] theorem modHost_host (f : HostPort → HostPort) (n : Node) : (n.modHost f).host = f n.host := rfl
@[simp] theorem modHost_store (f : HostPort → HostPort) (n : Node) : (n.modHost f).store = n.store := rfl
@[simp] theorem modHost_restart (f : HostPort → HostPort) (n : Node) : (n.modHost f).restart = n.restart := rfl
@[simp] theorem modHost_held (f : HostPort → HostPort) (n : Node) : (n.modHost f).held = n.held := rfl
@[simp] theorem modHost_adopted (f : HostPort → HostPort) (n : Node) : (n.modHost f).adopted = n.adopted := rfl
@[simp] theorem modHost_steepWord (f : HostPort → HostPort) (n : Node) : (n.modHost f).steepWord = n.steepWord := rfl
@[simp] theorem modHost_line (f : HostPort → HostPort) (n : Node) : (n.modHost f).line = n.line := rfl
@[simp] theorem modHost_lane (f : HostPort → HostPort) (n : Node) : (n.modHost f).lane = n.lane := rfl
@[simp] theorem modHost_core (f : HostPort → HostPort) (n : Node) : (n.modHost f).core = n.core := rfl
@[simp] theorem modHost_free (f : HostPort → HostPort) (n : Node) : (n.modHost f).free = n.free := rfl

/-! ### modStore -/

@[simp] theorem modStore_power (f : Store → Store) (n : Node) : (n.modStore f).power = n.power := rfl
@[simp] theorem modStore_time (f : Store → Store) (n : Node) : (n.modStore f).time = n.time := rfl
@[simp] theorem modStore_clients (f : Store → Store) (n : Node) : (n.modStore f).clients = n.clients := rfl
@[simp] theorem modStore_sessions (f : Store → Store) (n : Node) : (n.modStore f).sessions = n.sessions := rfl
@[simp] theorem modStore_nonces (f : Store → Store) (n : Node) : (n.modStore f).nonces = n.nonces := rfl
@[simp] theorem modStore_stream (f : Store → Store) (n : Node) : (n.modStore f).stream = n.stream := rfl
@[simp] theorem modStore_streamSent (f : Store → Store) (n : Node) : (n.modStore f).streamSent = n.streamSent := rfl
@[simp] theorem modStore_host (f : Store → Store) (n : Node) : (n.modStore f).host = n.host := rfl
@[simp] theorem modStore_store (f : Store → Store) (n : Node) : (n.modStore f).store = f n.store := rfl
@[simp] theorem modStore_restart (f : Store → Store) (n : Node) : (n.modStore f).restart = n.restart := rfl
@[simp] theorem modStore_held (f : Store → Store) (n : Node) : (n.modStore f).held = n.held := rfl
@[simp] theorem modStore_adopted (f : Store → Store) (n : Node) : (n.modStore f).adopted = n.adopted := rfl
@[simp] theorem modStore_steepWord (f : Store → Store) (n : Node) : (n.modStore f).steepWord = n.steepWord := rfl
@[simp] theorem modStore_line (f : Store → Store) (n : Node) : (n.modStore f).line = n.line := rfl
@[simp] theorem modStore_lane (f : Store → Store) (n : Node) : (n.modStore f).lane = n.lane := rfl
@[simp] theorem modStore_core (f : Store → Store) (n : Node) : (n.modStore f).core = n.core := rfl
@[simp] theorem modStore_free (f : Store → Store) (n : Node) : (n.modStore f).free = n.free := rfl

/-! ### modPower -/

@[simp] theorem modPower_power (f : Power → Power) (n : Node) : (n.modPower f).power = f n.power := rfl
@[simp] theorem modPower_time (f : Power → Power) (n : Node) : (n.modPower f).time = n.time := rfl
@[simp] theorem modPower_clients (f : Power → Power) (n : Node) : (n.modPower f).clients = n.clients := rfl
@[simp] theorem modPower_sessions (f : Power → Power) (n : Node) : (n.modPower f).sessions = n.sessions := rfl
@[simp] theorem modPower_nonces (f : Power → Power) (n : Node) : (n.modPower f).nonces = n.nonces := rfl
@[simp] theorem modPower_stream (f : Power → Power) (n : Node) : (n.modPower f).stream = n.stream := rfl
@[simp] theorem modPower_streamSent (f : Power → Power) (n : Node) : (n.modPower f).streamSent = n.streamSent := rfl
@[simp] theorem modPower_host (f : Power → Power) (n : Node) : (n.modPower f).host = n.host := rfl
@[simp] theorem modPower_store (f : Power → Power) (n : Node) : (n.modPower f).store = n.store := rfl
@[simp] theorem modPower_restart (f : Power → Power) (n : Node) : (n.modPower f).restart = n.restart := rfl
@[simp] theorem modPower_held (f : Power → Power) (n : Node) : (n.modPower f).held = n.held := rfl
@[simp] theorem modPower_adopted (f : Power → Power) (n : Node) : (n.modPower f).adopted = n.adopted := rfl
@[simp] theorem modPower_steepWord (f : Power → Power) (n : Node) : (n.modPower f).steepWord = n.steepWord := rfl
@[simp] theorem modPower_line (f : Power → Power) (n : Node) : (n.modPower f).line = n.line := rfl
@[simp] theorem modPower_lane (f : Power → Power) (n : Node) : (n.modPower f).lane = n.lane := rfl
@[simp] theorem modPower_core (f : Power → Power) (n : Node) : (n.modPower f).core = n.core := rfl
@[simp] theorem modPower_free (f : Power → Power) (n : Node) : (n.modPower f).free = n.free := rfl

/-! ### modTime -/

@[simp] theorem modTime_power (f : TimeBase → TimeBase) (n : Node) : (n.modTime f).power = n.power := rfl
@[simp] theorem modTime_time (f : TimeBase → TimeBase) (n : Node) : (n.modTime f).time = f n.time := rfl
@[simp] theorem modTime_clients (f : TimeBase → TimeBase) (n : Node) : (n.modTime f).clients = n.clients := rfl
@[simp] theorem modTime_sessions (f : TimeBase → TimeBase) (n : Node) : (n.modTime f).sessions = n.sessions := rfl
@[simp] theorem modTime_nonces (f : TimeBase → TimeBase) (n : Node) : (n.modTime f).nonces = n.nonces := rfl
@[simp] theorem modTime_stream (f : TimeBase → TimeBase) (n : Node) : (n.modTime f).stream = n.stream := rfl
@[simp] theorem modTime_streamSent (f : TimeBase → TimeBase) (n : Node) : (n.modTime f).streamSent = n.streamSent := rfl
@[simp] theorem modTime_host (f : TimeBase → TimeBase) (n : Node) : (n.modTime f).host = n.host := rfl
@[simp] theorem modTime_store (f : TimeBase → TimeBase) (n : Node) : (n.modTime f).store = n.store := rfl
@[simp] theorem modTime_restart (f : TimeBase → TimeBase) (n : Node) : (n.modTime f).restart = n.restart := rfl
@[simp] theorem modTime_held (f : TimeBase → TimeBase) (n : Node) : (n.modTime f).held = n.held := rfl
@[simp] theorem modTime_adopted (f : TimeBase → TimeBase) (n : Node) : (n.modTime f).adopted = n.adopted := rfl
@[simp] theorem modTime_steepWord (f : TimeBase → TimeBase) (n : Node) : (n.modTime f).steepWord = n.steepWord := rfl
@[simp] theorem modTime_line (f : TimeBase → TimeBase) (n : Node) : (n.modTime f).line = n.line := rfl
@[simp] theorem modTime_lane (f : TimeBase → TimeBase) (n : Node) : (n.modTime f).lane = n.lane := rfl
@[simp] theorem modTime_core (f : TimeBase → TimeBase) (n : Node) : (n.modTime f).core = n.core := rfl
@[simp] theorem modTime_free (f : TimeBase → TimeBase) (n : Node) : (n.modTime f).free = n.free := rfl

/-! ### modFront -/

@[simp] theorem modFront_power (c : Ch) (f : Front → Front) (n : Node) : (n.modFront c f).power = n.power := rfl
@[simp] theorem modFront_time (c : Ch) (f : Front → Front) (n : Node) : (n.modFront c f).time = n.time := rfl
@[simp] theorem modFront_clients (c : Ch) (f : Front → Front) (n : Node) : (n.modFront c f).clients = n.clients := rfl
@[simp] theorem modFront_sessions (c : Ch) (f : Front → Front) (n : Node) : (n.modFront c f).sessions = n.sessions := rfl
@[simp] theorem modFront_nonces (c : Ch) (f : Front → Front) (n : Node) : (n.modFront c f).nonces = n.nonces := rfl
@[simp] theorem modFront_stream (c : Ch) (f : Front → Front) (n : Node) : (n.modFront c f).stream = n.stream := rfl
@[simp] theorem modFront_streamSent (c : Ch) (f : Front → Front) (n : Node) : (n.modFront c f).streamSent = n.streamSent := rfl
@[simp] theorem modFront_host (c : Ch) (f : Front → Front) (n : Node) : (n.modFront c f).host = n.host := rfl
@[simp] theorem modFront_store (c : Ch) (f : Front → Front) (n : Node) : (n.modFront c f).store = n.store := rfl
@[simp] theorem modFront_restart (c : Ch) (f : Front → Front) (n : Node) : (n.modFront c f).restart = n.restart := rfl
@[simp] theorem modFront_held (c : Ch) (f : Front → Front) (n : Node) : (n.modFront c f).held = n.held := rfl
@[simp] theorem modFront_adopted (c : Ch) (f : Front → Front) (n : Node) : (n.modFront c f).adopted = n.adopted := rfl
@[simp] theorem modFront_steepWord (c : Ch) (f : Front → Front) (n : Node) : (n.modFront c f).steepWord = n.steepWord := rfl
@[simp] theorem modFront_line (c : Ch) (f : Front → Front) (n : Node) : (n.modFront c f).line = n.line := rfl
@[simp] theorem modFront_lane (c : Ch) (f : Front → Front) (n : Node) : (n.modFront c f).lane = n.lane := rfl
@[simp] theorem modFront_core (c : Ch) (f : Front → Front) (n : Node) : (n.modFront c f).core = { n.core with fronts := n.core.fronts.set c (f (n.core.fronts.get c)) } := rfl
@[simp] theorem modFront_free (c : Ch) (f : Front → Front) (n : Node) : (n.modFront c f).free = n.free := rfl

/-! ### modPos -/

@[simp] theorem modPos_power (c : Ch) (f : Pos → Pos) (n : Node) : (n.modPos c f).power = n.power := rfl
@[simp] theorem modPos_time (c : Ch) (f : Pos → Pos) (n : Node) : (n.modPos c f).time = n.time := rfl
@[simp] theorem modPos_clients (c : Ch) (f : Pos → Pos) (n : Node) : (n.modPos c f).clients = n.clients := rfl
@[simp] theorem modPos_sessions (c : Ch) (f : Pos → Pos) (n : Node) : (n.modPos c f).sessions = n.sessions := rfl
@[simp] theorem modPos_nonces (c : Ch) (f : Pos → Pos) (n : Node) : (n.modPos c f).nonces = n.nonces := rfl
@[simp] theorem modPos_stream (c : Ch) (f : Pos → Pos) (n : Node) : (n.modPos c f).stream = n.stream := rfl
@[simp] theorem modPos_streamSent (c : Ch) (f : Pos → Pos) (n : Node) : (n.modPos c f).streamSent = n.streamSent := rfl
@[simp] theorem modPos_host (c : Ch) (f : Pos → Pos) (n : Node) : (n.modPos c f).host = n.host := rfl
@[simp] theorem modPos_store (c : Ch) (f : Pos → Pos) (n : Node) : (n.modPos c f).store = n.store := rfl
@[simp] theorem modPos_restart (c : Ch) (f : Pos → Pos) (n : Node) : (n.modPos c f).restart = n.restart := rfl
@[simp] theorem modPos_held (c : Ch) (f : Pos → Pos) (n : Node) : (n.modPos c f).held = n.held := rfl
@[simp] theorem modPos_adopted (c : Ch) (f : Pos → Pos) (n : Node) : (n.modPos c f).adopted = n.adopted := rfl
@[simp] theorem modPos_steepWord (c : Ch) (f : Pos → Pos) (n : Node) : (n.modPos c f).steepWord = n.steepWord := rfl
@[simp] theorem modPos_line (c : Ch) (f : Pos → Pos) (n : Node) : (n.modPos c f).line = n.line := rfl
@[simp] theorem modPos_lane (c : Ch) (f : Pos → Pos) (n : Node) : (n.modPos c f).lane = n.lane := rfl
@[simp] theorem modPos_core (c : Ch) (f : Pos → Pos) (n : Node) : (n.modPos c f).core = { n.core with pos := n.core.pos.set c (f (n.core.pos.get c)) } := rfl
@[simp] theorem modPos_free (c : Ch) (f : Pos → Pos) (n : Node) : (n.modPos c f).free = n.free := rfl

/-! ### modSlot -/

@[simp] theorem modSlot_power (c : Ch) (f : Slot → Slot) (n : Node) : (n.modSlot c f).power = n.power := rfl
@[simp] theorem modSlot_time (c : Ch) (f : Slot → Slot) (n : Node) : (n.modSlot c f).time = n.time := rfl
@[simp] theorem modSlot_clients (c : Ch) (f : Slot → Slot) (n : Node) : (n.modSlot c f).clients = n.clients := rfl
@[simp] theorem modSlot_sessions (c : Ch) (f : Slot → Slot) (n : Node) : (n.modSlot c f).sessions = n.sessions := rfl
@[simp] theorem modSlot_nonces (c : Ch) (f : Slot → Slot) (n : Node) : (n.modSlot c f).nonces = n.nonces := rfl
@[simp] theorem modSlot_stream (c : Ch) (f : Slot → Slot) (n : Node) : (n.modSlot c f).stream = n.stream := rfl
@[simp] theorem modSlot_streamSent (c : Ch) (f : Slot → Slot) (n : Node) : (n.modSlot c f).streamSent = n.streamSent := rfl
@[simp] theorem modSlot_host (c : Ch) (f : Slot → Slot) (n : Node) : (n.modSlot c f).host = n.host := rfl
@[simp] theorem modSlot_store (c : Ch) (f : Slot → Slot) (n : Node) : (n.modSlot c f).store = n.store := rfl
@[simp] theorem modSlot_restart (c : Ch) (f : Slot → Slot) (n : Node) : (n.modSlot c f).restart = n.restart := rfl
@[simp] theorem modSlot_held (c : Ch) (f : Slot → Slot) (n : Node) : (n.modSlot c f).held = n.held := rfl
@[simp] theorem modSlot_adopted (c : Ch) (f : Slot → Slot) (n : Node) : (n.modSlot c f).adopted = n.adopted := rfl
@[simp] theorem modSlot_steepWord (c : Ch) (f : Slot → Slot) (n : Node) : (n.modSlot c f).steepWord = n.steepWord := rfl
@[simp] theorem modSlot_line (c : Ch) (f : Slot → Slot) (n : Node) : (n.modSlot c f).line = n.line := rfl
@[simp] theorem modSlot_lane (c : Ch) (f : Slot → Slot) (n : Node) : (n.modSlot c f).lane = n.lane := rfl
@[simp] theorem modSlot_core (c : Ch) (f : Slot → Slot) (n : Node) : (n.modSlot c f).core = { n.core with slots := n.core.slots.set c (f (n.core.slots.get c)) } := rfl
@[simp] theorem modSlot_free (c : Ch) (f : Slot → Slot) (n : Node) : (n.modSlot c f).free = n.free := rfl

/-! ### modOut -/

@[simp] theorem modOut_power (c : Ch) (f : AOut → AOut) (n : Node) : (n.modOut c f).power = n.power := rfl
@[simp] theorem modOut_time (c : Ch) (f : AOut → AOut) (n : Node) : (n.modOut c f).time = n.time := rfl
@[simp] theorem modOut_clients (c : Ch) (f : AOut → AOut) (n : Node) : (n.modOut c f).clients = n.clients := rfl
@[simp] theorem modOut_sessions (c : Ch) (f : AOut → AOut) (n : Node) : (n.modOut c f).sessions = n.sessions := rfl
@[simp] theorem modOut_nonces (c : Ch) (f : AOut → AOut) (n : Node) : (n.modOut c f).nonces = n.nonces := rfl
@[simp] theorem modOut_stream (c : Ch) (f : AOut → AOut) (n : Node) : (n.modOut c f).stream = n.stream := rfl
@[simp] theorem modOut_streamSent (c : Ch) (f : AOut → AOut) (n : Node) : (n.modOut c f).streamSent = n.streamSent := rfl
@[simp] theorem modOut_host (c : Ch) (f : AOut → AOut) (n : Node) : (n.modOut c f).host = n.host := rfl
@[simp] theorem modOut_store (c : Ch) (f : AOut → AOut) (n : Node) : (n.modOut c f).store = n.store := rfl
@[simp] theorem modOut_restart (c : Ch) (f : AOut → AOut) (n : Node) : (n.modOut c f).restart = n.restart := rfl
@[simp] theorem modOut_held (c : Ch) (f : AOut → AOut) (n : Node) : (n.modOut c f).held = n.held := rfl
@[simp] theorem modOut_adopted (c : Ch) (f : AOut → AOut) (n : Node) : (n.modOut c f).adopted = n.adopted := rfl
@[simp] theorem modOut_steepWord (c : Ch) (f : AOut → AOut) (n : Node) : (n.modOut c f).steepWord = n.steepWord := rfl
@[simp] theorem modOut_line (c : Ch) (f : AOut → AOut) (n : Node) : (n.modOut c f).line = n.line := rfl
@[simp] theorem modOut_lane (c : Ch) (f : AOut → AOut) (n : Node) : (n.modOut c f).lane = n.lane := rfl
@[simp] theorem modOut_core (c : Ch) (f : AOut → AOut) (n : Node) : (n.modOut c f).core = { n.core with outs := n.core.outs.set c (f (n.core.outs.get c)) } := rfl
@[simp] theorem modOut_free (c : Ch) (f : AOut → AOut) (n : Node) : (n.modOut c f).free = n.free := rfl

/-! ### modFaults -/

@[simp] theorem modFaults_power (f : Faults → Faults) (n : Node) : (n.modFaults f).power = n.power := rfl
@[simp] theorem modFaults_time (f : Faults → Faults) (n : Node) : (n.modFaults f).time = n.time := rfl
@[simp] theorem modFaults_clients (f : Faults → Faults) (n : Node) : (n.modFaults f).clients = n.clients := rfl
@[simp] theorem modFaults_sessions (f : Faults → Faults) (n : Node) : (n.modFaults f).sessions = n.sessions := rfl
@[simp] theorem modFaults_nonces (f : Faults → Faults) (n : Node) : (n.modFaults f).nonces = n.nonces := rfl
@[simp] theorem modFaults_stream (f : Faults → Faults) (n : Node) : (n.modFaults f).stream = n.stream := rfl
@[simp] theorem modFaults_streamSent (f : Faults → Faults) (n : Node) : (n.modFaults f).streamSent = n.streamSent := rfl
@[simp] theorem modFaults_host (f : Faults → Faults) (n : Node) : (n.modFaults f).host = n.host := rfl
@[simp] theorem modFaults_store (f : Faults → Faults) (n : Node) : (n.modFaults f).store = n.store := rfl
@[simp] theorem modFaults_restart (f : Faults → Faults) (n : Node) : (n.modFaults f).restart = n.restart := rfl
@[simp] theorem modFaults_held (f : Faults → Faults) (n : Node) : (n.modFaults f).held = n.held := rfl
@[simp] theorem modFaults_adopted (f : Faults → Faults) (n : Node) : (n.modFaults f).adopted = n.adopted := rfl
@[simp] theorem modFaults_steepWord (f : Faults → Faults) (n : Node) : (n.modFaults f).steepWord = n.steepWord := rfl
@[simp] theorem modFaults_line (f : Faults → Faults) (n : Node) : (n.modFaults f).line = n.line := rfl
@[simp] theorem modFaults_lane (f : Faults → Faults) (n : Node) : (n.modFaults f).lane = n.lane := rfl
@[simp] theorem modFaults_core (f : Faults → Faults) (n : Node) : (n.modFaults f).core = { n.core with faults := f n.core.faults } := rfl
@[simp] theorem modFaults_free (f : Faults → Faults) (n : Node) : (n.modFaults f).free = n.free := rfl

/-! ### modSound -/

@[simp] theorem modSound_power (f : Sound → Sound) (n : Node) : (n.modSound f).power = n.power := rfl
@[simp] theorem modSound_time (f : Sound → Sound) (n : Node) : (n.modSound f).time = n.time := rfl
@[simp] theorem modSound_clients (f : Sound → Sound) (n : Node) : (n.modSound f).clients = n.clients := rfl
@[simp] theorem modSound_sessions (f : Sound → Sound) (n : Node) : (n.modSound f).sessions = n.sessions := rfl
@[simp] theorem modSound_nonces (f : Sound → Sound) (n : Node) : (n.modSound f).nonces = n.nonces := rfl
@[simp] theorem modSound_stream (f : Sound → Sound) (n : Node) : (n.modSound f).stream = n.stream := rfl
@[simp] theorem modSound_streamSent (f : Sound → Sound) (n : Node) : (n.modSound f).streamSent = n.streamSent := rfl
@[simp] theorem modSound_host (f : Sound → Sound) (n : Node) : (n.modSound f).host = n.host := rfl
@[simp] theorem modSound_store (f : Sound → Sound) (n : Node) : (n.modSound f).store = n.store := rfl
@[simp] theorem modSound_restart (f : Sound → Sound) (n : Node) : (n.modSound f).restart = n.restart := rfl
@[simp] theorem modSound_held (f : Sound → Sound) (n : Node) : (n.modSound f).held = n.held := rfl
@[simp] theorem modSound_adopted (f : Sound → Sound) (n : Node) : (n.modSound f).adopted = n.adopted := rfl
@[simp] theorem modSound_steepWord (f : Sound → Sound) (n : Node) : (n.modSound f).steepWord = n.steepWord := rfl
@[simp] theorem modSound_line (f : Sound → Sound) (n : Node) : (n.modSound f).line = n.line := rfl
@[simp] theorem modSound_lane (f : Sound → Sound) (n : Node) : (n.modSound f).lane = n.lane := rfl
@[simp] theorem modSound_core (f : Sound → Sound) (n : Node) : (n.modSound f).core = { n.core with sound := f n.core.sound } := rfl
@[simp] theorem modSound_free (f : Sound → Sound) (n : Node) : (n.modSound f).free = n.free := rfl

/-! ### modWaves -/

@[simp] theorem modWaves_power (f : Waves → Waves) (n : Node) : (n.modWaves f).power = n.power := rfl
@[simp] theorem modWaves_time (f : Waves → Waves) (n : Node) : (n.modWaves f).time = n.time := rfl
@[simp] theorem modWaves_clients (f : Waves → Waves) (n : Node) : (n.modWaves f).clients = n.clients := rfl
@[simp] theorem modWaves_sessions (f : Waves → Waves) (n : Node) : (n.modWaves f).sessions = n.sessions := rfl
@[simp] theorem modWaves_nonces (f : Waves → Waves) (n : Node) : (n.modWaves f).nonces = n.nonces := rfl
@[simp] theorem modWaves_stream (f : Waves → Waves) (n : Node) : (n.modWaves f).stream = n.stream := rfl
@[simp] theorem modWaves_streamSent (f : Waves → Waves) (n : Node) : (n.modWaves f).streamSent = n.streamSent := rfl
@[simp] theorem modWaves_host (f : Waves → Waves) (n : Node) : (n.modWaves f).host = n.host := rfl
@[simp] theorem modWaves_store (f : Waves → Waves) (n : Node) : (n.modWaves f).store = n.store := rfl
@[simp] theorem modWaves_restart (f : Waves → Waves) (n : Node) : (n.modWaves f).restart = n.restart := rfl
@[simp] theorem modWaves_held (f : Waves → Waves) (n : Node) : (n.modWaves f).held = n.held := rfl
@[simp] theorem modWaves_adopted (f : Waves → Waves) (n : Node) : (n.modWaves f).adopted = n.adopted := rfl
@[simp] theorem modWaves_steepWord (f : Waves → Waves) (n : Node) : (n.modWaves f).steepWord = n.steepWord := rfl
@[simp] theorem modWaves_line (f : Waves → Waves) (n : Node) : (n.modWaves f).line = n.line := rfl
@[simp] theorem modWaves_lane (f : Waves → Waves) (n : Node) : (n.modWaves f).lane = n.lane := rfl
@[simp] theorem modWaves_core (f : Waves → Waves) (n : Node) : (n.modWaves f).core = { n.core with waves := f n.core.waves } := rfl
@[simp] theorem modWaves_free (f : Waves → Waves) (n : Node) : (n.modWaves f).free = n.free := rfl

/-! ### setPar, atT and setClient -/

@[simp] theorem setPar_power (pid i : Nat) (w : Word) (n : Node) : (n.setPar pid i w).power = n.power := rfl
@[simp] theorem setPar_time (pid i : Nat) (w : Word) (n : Node) : (n.setPar pid i w).time = n.time := rfl
@[simp] theorem setPar_clients (pid i : Nat) (w : Word) (n : Node) : (n.setPar pid i w).clients = n.clients := rfl
@[simp] theorem setPar_sessions (pid i : Nat) (w : Word) (n : Node) : (n.setPar pid i w).sessions = n.sessions := rfl
@[simp] theorem setPar_nonces (pid i : Nat) (w : Word) (n : Node) : (n.setPar pid i w).nonces = n.nonces := rfl
@[simp] theorem setPar_stream (pid i : Nat) (w : Word) (n : Node) : (n.setPar pid i w).stream = n.stream := rfl
@[simp] theorem setPar_streamSent (pid i : Nat) (w : Word) (n : Node) : (n.setPar pid i w).streamSent = n.streamSent := rfl
@[simp] theorem setPar_host (pid i : Nat) (w : Word) (n : Node) : (n.setPar pid i w).host = n.host := rfl
@[simp] theorem setPar_store (pid i : Nat) (w : Word) (n : Node) : (n.setPar pid i w).store = n.store := rfl
@[simp] theorem setPar_restart (pid i : Nat) (w : Word) (n : Node) : (n.setPar pid i w).restart = n.restart := rfl
@[simp] theorem setPar_held (pid i : Nat) (w : Word) (n : Node) : (n.setPar pid i w).held = n.held := rfl
@[simp] theorem setPar_adopted (pid i : Nat) (w : Word) (n : Node) : (n.setPar pid i w).adopted = n.adopted := rfl
@[simp] theorem setPar_steepWord (pid i : Nat) (w : Word) (n : Node) : (n.setPar pid i w).steepWord = n.steepWord := rfl
@[simp] theorem setPar_line (pid i : Nat) (w : Word) (n : Node) : (n.setPar pid i w).line = n.line := rfl
@[simp] theorem setPar_lane (pid i : Nat) (w : Word) (n : Node) : (n.setPar pid i w).lane = n.lane := rfl
@[simp] theorem setPar_core (pid i : Nat) (w : Word) (n : Node) : (n.setPar pid i w).core = { n.core with params := n.core.params.put (pidAt pid i) w } := rfl
@[simp] theorem setPar_free (pid i : Nat) (w : Word) (n : Node) : (n.setPar pid i w).free = n.free := rfl

@[simp] theorem atT_power (t : Nat) (n : Node) : (n.atT t).power = n.power := rfl
@[simp] theorem atT_time (t : Nat) (n : Node) : (n.atT t).time = { n.time with dt := t } := rfl
@[simp] theorem atT_clients (t : Nat) (n : Node) : (n.atT t).clients = n.clients := rfl
@[simp] theorem atT_sessions (t : Nat) (n : Node) : (n.atT t).sessions = n.sessions := rfl
@[simp] theorem atT_nonces (t : Nat) (n : Node) : (n.atT t).nonces = n.nonces := rfl
@[simp] theorem atT_stream (t : Nat) (n : Node) : (n.atT t).stream = n.stream := rfl
@[simp] theorem atT_streamSent (t : Nat) (n : Node) : (n.atT t).streamSent = n.streamSent := rfl
@[simp] theorem atT_host (t : Nat) (n : Node) : (n.atT t).host = n.host := rfl
@[simp] theorem atT_store (t : Nat) (n : Node) : (n.atT t).store = n.store := rfl
@[simp] theorem atT_restart (t : Nat) (n : Node) : (n.atT t).restart = n.restart := rfl
@[simp] theorem atT_held (t : Nat) (n : Node) : (n.atT t).held = n.held := rfl
@[simp] theorem atT_adopted (t : Nat) (n : Node) : (n.atT t).adopted = n.adopted := rfl
@[simp] theorem atT_steepWord (t : Nat) (n : Node) : (n.atT t).steepWord = n.steepWord := rfl
@[simp] theorem atT_line (t : Nat) (n : Node) : (n.atT t).line = n.line := rfl
@[simp] theorem atT_lane (t : Nat) (n : Node) : (n.atT t).lane = n.lane := rfl
@[simp] theorem atT_core (t : Nat) (n : Node) : (n.atT t).core = n.core := rfl
@[simp] theorem atT_free (t : Nat) (n : Node) : (n.atT t).free = n.free := rfl

@[simp] theorem setClient_power (r : ClientRec) (n : Node) : (n.setClient r).power = n.power := by unfold Node.setClient; split <;> rfl
@[simp] theorem setClient_time (r : ClientRec) (n : Node) : (n.setClient r).time = n.time := by unfold Node.setClient; split <;> rfl
@[simp] theorem setClient_sessions (r : ClientRec) (n : Node) : (n.setClient r).sessions = n.sessions := by unfold Node.setClient; split <;> rfl
@[simp] theorem setClient_nonces (r : ClientRec) (n : Node) : (n.setClient r).nonces = n.nonces := by unfold Node.setClient; split <;> rfl
@[simp] theorem setClient_stream (r : ClientRec) (n : Node) : (n.setClient r).stream = n.stream := by unfold Node.setClient; split <;> rfl
@[simp] theorem setClient_streamSent (r : ClientRec) (n : Node) : (n.setClient r).streamSent = n.streamSent := by unfold Node.setClient; split <;> rfl
@[simp] theorem setClient_host (r : ClientRec) (n : Node) : (n.setClient r).host = n.host := by unfold Node.setClient; split <;> rfl
@[simp] theorem setClient_store (r : ClientRec) (n : Node) : (n.setClient r).store = n.store := by unfold Node.setClient; split <;> rfl
@[simp] theorem setClient_restart (r : ClientRec) (n : Node) : (n.setClient r).restart = n.restart := by unfold Node.setClient; split <;> rfl
@[simp] theorem setClient_held (r : ClientRec) (n : Node) : (n.setClient r).held = n.held := by unfold Node.setClient; split <;> rfl
@[simp] theorem setClient_adopted (r : ClientRec) (n : Node) : (n.setClient r).adopted = n.adopted := by unfold Node.setClient; split <;> rfl
@[simp] theorem setClient_steepWord (r : ClientRec) (n : Node) : (n.setClient r).steepWord = n.steepWord := by unfold Node.setClient; split <;> rfl
@[simp] theorem setClient_line (r : ClientRec) (n : Node) : (n.setClient r).line = n.line := by unfold Node.setClient; split <;> rfl
@[simp] theorem setClient_lane (r : ClientRec) (n : Node) : (n.setClient r).lane = n.lane := by unfold Node.setClient; split <;> rfl
@[simp] theorem setClient_core (r : ClientRec) (n : Node) : (n.setClient r).core = n.core := by unfold Node.setClient; split <;> rfl
@[simp] theorem setClient_free (r : ClientRec) (n : Node) : (n.setClient r).free = n.free := by unfold Node.setClient; split <;> rfl

/-! ### States -/

@[simp] theorem upd_next (s : State) (f : Node → Node) : s.upd f = .next { s with node := f s.node } := rfl

/-! ### Quads -/

@[simp] theorem Quad.get_set_same {α : Type} (q : Quad α) (c : Ch) (x : α) : (q.set c x).get c = x := by
  match c with | 0 => rfl | 1 => rfl | 2 => rfl | 3 => rfl

theorem Quad.get_set_other {α : Type} (q : Quad α) (c d : Ch) (x : α) (h : d ≠ c) : (q.set c x).get d = q.get d := by
  match c, d with
  | 0, 0 | 1, 1 | 2, 2 | 3, 3 => exact absurd rfl h
  | 0, 1 | 0, 2 | 0, 3 | 1, 0 | 1, 2 | 1, 3 | 2, 0 | 2, 1 | 2, 3 | 3, 0 | 3, 1 | 3, 2 => rfl

@[simp] theorem Quad.get_all {α : Type} (x : α) (c : Ch) : (Quad.all x).get c = x := by
  match c with | 0 => rfl | 1 => rfl | 2 => rfl | 3 => rfl

end Sys2Proof.Machine
end

