-- ==== Sys2Proof/Laws/Reply.lean ====
section
/-!
SUPPORT. What sending does: each shared sending operation adds exactly its packets to what is on its way to their receiver, and
touches neither the core nor the time.
-/
namespace Sys2Proof.Machine

theorem Client.isL_iff (c : Client) : c.isL = true ↔ c = .ctxL := by cases c <;> simp [Client.isL]

/-- A sent packet joins what is on its way to its receiver, behind everything before it. -/
theorem emit_sentTo (c d : Client) (b : Bool) (p : ReplyPkt) (n : Node) :
    (n.emit d b p).sentTo c = if c = d then n.sentTo c ++ [p] else n.sentTo c := by
  cases c with
  | ctxL =>
    cases d with
    | ctxL =>
      simp only [Node.emit, Node.sentTo, Client.isL, if_true, modHost_host]
      split
      · rename_i h
        simp only [Bool.and_eq_true, List.isEmpty_iff] at h
        simp [h.1]
      · simp
    | line i => simp [Node.emit, Node.sentTo, Client.isL]
  | line j =>
    cases d with
    | ctxL => simp [Node.emit, Node.sentTo, Client.isL]
    | line i =>
      by_cases h : j = i
      · subst h; simp [Node.emit, Node.sentTo, Client.isL]
      · have : ¬ i = j := fun e => h e.symm
        simp [Node.emit, Node.sentTo, Client.isL, h, this]

theorem emit_fields (d : Client) (b : Bool) (p : ReplyPkt) (n : Node) :
    (n.emit d b p).core = n.core ∧ (n.emit d b p).time = n.time ∧ (n.emit d b p).clients = n.clients ∧
      (n.emit d b p).sessions = n.sessions ∧ (n.emit d b p).store = n.store ∧ (n.emit d b p).line = n.line ∧
      (n.emit d b p).lane = n.lane ∧ (n.emit d b p).power = n.power := by
  cases d <;> simp [Node.emit, Client.isL]

/-- The body of the node is what no packet on its way can change. -/
theorem emit_body (d : Client) (b : Bool) (p : ReplyPkt) (n : Node) : (n.emit d b p).body = n.body := by
  cases d with
  | ctxL =>
    simp only [Node.emit, Client.isL, if_true, Node.modHost, Node.body]
    split <;> rfl
  | line i => rfl

theorem emitAll_nil (d : Client) (n : Node) : n.emitAll d [] = n := rfl

theorem emitAll_cons (d : Client) (p : ReplyPkt) (ps : List ReplyPkt) (n : Node) :
    n.emitAll d (p :: ps) = (n.emit d false p).emitAll d ps := rfl

theorem emitAll_sentTo (c d : Client) (ps : List ReplyPkt) (n : Node) :
    (n.emitAll d ps).sentTo c = if c = d then n.sentTo c ++ ps else n.sentTo c := by
  induction ps generalizing n with
  | nil => simp [emitAll_nil]
  | cons p ps ih =>
    rw [emitAll_cons, ih, emit_sentTo]
    split <;> simp

theorem emitAll_body (d : Client) (ps : List ReplyPkt) (n : Node) : (n.emitAll d ps).body = n.body := by
  induction ps generalizing n with
  | nil => rfl
  | cons p ps ih => rw [emitAll_cons, ih, emit_body]

theorem emitAll_fields (d : Client) (ps : List ReplyPkt) (n : Node) :
    (n.emitAll d ps).core = n.core ∧ (n.emitAll d ps).time = n.time ∧ (n.emitAll d ps).clients = n.clients ∧
      (n.emitAll d ps).sessions = n.sessions ∧ (n.emitAll d ps).store = n.store ∧ (n.emitAll d ps).line = n.line ∧
      (n.emitAll d ps).lane = n.lane ∧ (n.emitAll d ps).power = n.power := by
  induction ps generalizing n with
  | nil => simp [emitAll_nil]
  | cons p ps ih => rw [emitAll_cons]; simp only [ih, emit_fields, and_self]

@[simp] theorem emitAll_core (d : Client) (ps : List ReplyPkt) (n : Node) : (n.emitAll d ps).core = n.core := (emitAll_fields d ps n).1
@[simp] theorem emitAll_time (d : Client) (ps : List ReplyPkt) (n : Node) : (n.emitAll d ps).time = n.time := (emitAll_fields d ps n).2.1
@[simp] theorem emitAll_clients (d : Client) (ps : List ReplyPkt) (n : Node) : (n.emitAll d ps).clients = n.clients :=
  (emitAll_fields d ps n).2.2.1
@[simp] theorem emitAll_sessions (d : Client) (ps : List ReplyPkt) (n : Node) : (n.emitAll d ps).sessions = n.sessions :=
  (emitAll_fields d ps n).2.2.2.1
@[simp] theorem emitAll_store (d : Client) (ps : List ReplyPkt) (n : Node) : (n.emitAll d ps).store = n.store :=
  (emitAll_fields d ps n).2.2.2.2.1
@[simp] theorem emitAll_line (d : Client) (ps : List ReplyPkt) (n : Node) : (n.emitAll d ps).line = n.line :=
  (emitAll_fields d ps n).2.2.2.2.2.1
@[simp] theorem emitAll_lane (d : Client) (ps : List ReplyPkt) (n : Node) : (n.emitAll d ps).lane = n.lane :=
  (emitAll_fields d ps n).2.2.2.2.2.2.1
@[simp] theorem emitAll_power (d : Client) (ps : List ReplyPkt) (n : Node) : (n.emitAll d ps).power = n.power :=
  (emitAll_fields d ps n).2.2.2.2.2.2.2

/-- A client record is part of the talk, and of nothing on its way. -/
@[simp] theorem setClient_body (r : ClientRec) (n : Node) : (n.setClient r).body = n.body := by
  unfold Node.setClient; split <;> rfl

@[simp] theorem setClient_sentTo (c : Client) (r : ClientRec) (n : Node) : (n.setClient r).sentTo c = n.sentTo c := by
  unfold Node.setClient; split <;> rfl

@[simp] theorem cacheReply_core (c : Client) (t : BitVec 12) (ps : List ReplyPkt) (n : Node) : (n.cacheReply c t ps).core = n.core := by
  simp [Node.cacheReply]

@[simp] theorem cacheReply_body (c : Client) (t : BitVec 12) (ps : List ReplyPkt) (n : Node) : (n.cacheReply c t ps).body = n.body := by
  simp [Node.cacheReply]

@[simp] theorem cacheReply_sentTo (d c : Client) (t : BitVec 12) (ps : List ReplyPkt) (n : Node) :
    (n.cacheReply c t ps).sentTo d = n.sentTo d := by
  simp [Node.cacheReply]

/-- A final reply goes to the sender of the packet and nowhere else. -/
theorem finish_sentTo (c : Client) (p : Packet) (s : Status) (ch : List (List Word)) (g : Bool) (k : Nat) (n : Node) :
    (n.finish p s ch g k).sentTo c =
      if c = senderOf p then n.sentTo c ++ replyPackets p s g true k ch else n.sentTo c := by
  unfold Node.finish
  split <;> simp [emitAll_sentTo]

@[simp] theorem finish_body (p : Packet) (s : Status) (ch : List (List Word)) (g : Bool) (k : Nat) (n : Node) :
    (n.finish p s ch g k).body = n.body := by
  unfold Node.finish
  split <;> simp [emitAll_body]

@[simp] theorem finish_core (p : Packet) (s : Status) (ch : List (List Word)) (g : Bool) (k : Nat) (n : Node) :
    (n.finish p s ch g k).core = n.core := by
  unfold Node.finish
  split <;> simp

@[simp] theorem answer_core (p : Packet) (s : Status) (ws : List Word) (n : Node) : (n.answer p s ws).core = n.core := by
  simp [Node.answer]

@[simp] theorem answer_body (p : Packet) (s : Status) (ws : List Word) (n : Node) : (n.answer p s ws).body = n.body := by
  simp [Node.answer, emitAll_body]

theorem answer_sentTo (c : Client) (p : Packet) (s : Status) (ws : List Word) (n : Node) :
    (n.answer p s ws).sentTo c =
      if c = senderOf p then n.sentTo c ++ replyPackets p s false true n.tick16 [ws] else n.sentTo c := by
  simp [Node.answer, emitAll_sentTo]

@[simp] theorem accepted_body (p : Packet) (k : Nat) (n : Node) : (n.accepted p k).body = n.body := by
  unfold Node.accepted
  split <;> simp [emitAll_body]

@[simp] theorem accepted_core (p : Packet) (k : Nat) (n : Node) : (n.accepted p k).core = n.core := by
  unfold Node.accepted
  split <;> simp

/-- The ACCEPTED reply goes to the sender, unless FINAL_ONLY is set. -/
theorem accepted_sentTo (c : Client) (p : Packet) (k : Nat) (n : Node) :
    (n.accepted p k).sentTo c =
      if c = senderOf p ∧ p.finalOnly = false then n.sentTo c ++ replyPackets p .accepted false false (k % 65536) [[]]
      else n.sentTo c := by
  unfold Node.accepted
  cases h : p.finalOnly <;> simp [emitAll_sentTo]

@[simp] theorem dropOp_body (o : Nat) (n : Node) : (n.dropOp o).body = n.body := rfl

@[simp] theorem dropOp_sentTo (c : Client) (o : Nat) (n : Node) : (n.dropOp o).sentTo c = n.sentTo c := rfl

@[simp] theorem dropOp_tick16 (o : Nat) (n : Node) : (n.dropOp o).tick16 = n.tick16 := rfl

@[simp] theorem markCommitted_body (o : Nat) (n : Node) : (n.markCommitted o).body = n.body := rfl

@[simp] theorem markCommitted_sentTo (c : Client) (o : Nat) (n : Node) : (n.markCommitted o).sentTo c = n.sentTo c := rfl

/-- Replacing a client's record changes that record and no other. -/
theorem clientRec_setClient (r : ClientRec) (c : Client) (n : Node) :
    (n.setClient r).clientRec c = if c = r.client then r else n.clientRec c := by
  unfold Node.setClient Node.clientRec
  split
  · rename_i h
    rw [List.find?_map]
    by_cases hc : c = r.client
    · subst hc
      rw [if_pos rfl]
      have hcomp : ((fun x : ClientRec => x.client == r.client) ∘ fun x => if (x.client == r.client) = true then r else x) =
          fun x => x.client == r.client := by
        funext x; simp only [Function.comp_apply]; split
        · rename_i h; simp [h]
        · rfl
      rw [hcomp]
      cases hf : n.clients.find? fun x => x.client == r.client with
      | none =>
        rw [List.find?_eq_none] at hf
        rw [List.any_eq_true] at h
        obtain ⟨x, hx, hx'⟩ := h
        exact absurd hx' (hf x hx)
      | some x =>
        have := List.find?_some hf
        simp only [Option.map_some, Option.getD_some, this, if_true]
    · rw [if_neg hc]
      have hcomp : ((fun x : ClientRec => x.client == c) ∘ fun x => if (x.client == r.client) = true then r else x) =
          fun x => x.client == c := by
        funext x; simp only [Function.comp_apply]; split
        · rename_i h
          simp only [beq_iff_eq] at h
          have h1 : ¬ r.client = c := fun e => hc e.symm
          have h2 : ¬ x.client = c := fun e => hc (by rw [← h, e])
          rw [beq_eq_false_iff_ne.mpr h1, beq_eq_false_iff_ne.mpr h2]
        · rfl
      rw [hcomp]
      cases hf : n.clients.find? fun x => x.client == c with
      | none => rfl
      | some x =>
        have := List.find?_some hf
        simp only [beq_iff_eq] at this
        have hne : (x.client == r.client) = false := by
          simp only [beq_eq_false_iff_ne]; intro e; exact hc (by rw [← this, e])
        have hne' : ¬ x.client = r.client := by simpa using hne
        simp [hne']
  · rename_i h
    simp only [Bool.not_eq_true, List.any_eq_false, beq_iff_eq] at h
    rw [List.find?_append]
    by_cases hc : c = r.client
    · subst hc
      have hf : n.clients.find? (fun x => x.client == r.client) = none := by
        rw [List.find?_eq_none]; intro x hx; simpa using h x hx
      rw [hf, if_pos rfl]; simp
    · rw [if_neg hc]
      have : ¬ r.client = c := fun e => hc e.symm
      cases hf : n.clients.find? fun x => x.client == c with
      | none => simp [this]
      | some x => simp

end Sys2Proof.Machine
end

