-- ==== Sys2Proof/Laws/Packet.lean ====
section
/-!
SUPPORT. The life of a command given as a packet, said once: when the packet runs now, its row is the command's effect on the
node at the commit, and its answer. What the arrival itself does to the node is said here too.
-/
namespace Sys2Proof.Machine

/-! ### The arrival -/

@[simp] theorem touchSession_core (p : Packet) (n : Node) : (n.touchSession p).core = n.core := by
  unfold Node.touchSession; split <;> rfl
@[simp] theorem touchSession_time (p : Packet) (n : Node) : (n.touchSession p).time = n.time := by
  unfold Node.touchSession; split <;> rfl
@[simp] theorem touchSession_body (p : Packet) (n : Node) : (n.touchSession p).body = n.body := by
  unfold Node.touchSession; split <;> rfl
@[simp] theorem touchSession_sentTo (c : Client) (p : Packet) (n : Node) : (n.touchSession p).sentTo c = n.sentTo c := by
  unfold Node.touchSession; split <;> rfl
@[simp] theorem touchSession_clients (p : Packet) (n : Node) : (n.touchSession p).clients = n.clients := by
  unfold Node.touchSession; split <;> rfl

/-- Whether ACCEPTED goes out as the packet arrives, for a command executed here (R77, R557). -/
def acceptedOnArrival (p : Packet) : Bool :=
  p.scheduled || (match opcodeOf p with
    | some o => o.answersLater
    | none => false)

/-- The operation that a packet executed here becomes. -/
def Node.freshOp (p : Packet) (due : Nat) (n : Node) : PoolOp :=
  { slot := n.nextSlot, order := n.core.nextOrder, client := senderOf p, packet := p, scheduled := p.scheduled, due := due
    phase := .waiting, side := .here, arrivedAt := n.now }

/-- The node with that operation in its pool. -/
def Node.withOp (op : PoolOp) (n : Node) : Node :=
  n.modCore fun k => { k with pool := op.enter k.pool, nextOrder := n.core.nextOrder + 1, slotUses := bumpUses op.slot k.slotUses }

theorem freshOp_accepted (p : Packet) (due : Nat) (n : Node) : (n.freshOp p due).acceptedAtOnce = acceptedOnArrival p := by
  cases h : opcodeOf p <;> cases p.scheduled <;>
    simp [PoolOp.acceptedAtOnce, Node.freshOp, acceptedOnArrival, h, show (RelaySide.here == RelaySide.sent) = false from rfl,
      show (RelaySide.here == RelaySide.both) = false from rfl]

theorem poolIn_eq (p : Packet) (due : Nat) (n : Node) :
    (n.poolIn p due p.scheduled .here).2 =
      if acceptedOnArrival p then (n.withOp (n.freshOp p due)).accepted p due else n.withOp (n.freshOp p due) := by
  rw [← freshOp_accepted p due n]
  rfl

@[simp] theorem withOp_body (op : PoolOp) (n : Node) : (n.withOp op).body = n.body := rfl
@[simp] theorem withOp_time (op : PoolOp) (n : Node) : (n.withOp op).time = n.time := rfl
@[simp] theorem withOp_clients (op : PoolOp) (n : Node) : (n.withOp op).clients = n.clients := rfl
@[simp] theorem withOp_sessions (op : PoolOp) (n : Node) : (n.withOp op).sessions = n.sessions := rfl
@[simp] theorem withOp_sentTo (c : Client) (op : PoolOp) (n : Node) : (n.withOp op).sentTo c = n.sentTo c := rfl
@[simp] theorem accepted_time (p : Packet) (k : Nat) (n : Node) : (n.accepted p k).time = n.time := by
  unfold Node.accepted; split <;> simp
@[simp] theorem accepted_clients (p : Packet) (k : Nat) (n : Node) : (n.accepted p k).clients = n.clients := by
  unfold Node.accepted; split <;> simp
@[simp] theorem accepted_sessions (p : Packet) (k : Nat) (n : Node) : (n.accepted p k).sessions = n.sessions := by
  unfold Node.accepted; split <;> simp

theorem poolIn_here (p : Packet) (due : Nat) (n : Node) :
    (n.poolIn p due p.scheduled .here).2.body = n.body ∧ (n.poolIn p due p.scheduled .here).2.time = n.time ∧
      (n.poolIn p due p.scheduled .here).2.clients = n.clients ∧ (n.poolIn p due p.scheduled .here).2.sessions = n.sessions ∧
      ∀ c, (n.poolIn p due p.scheduled .here).2.sentTo c =
        if c = senderOf p ∧ p.finalOnly = false ∧ acceptedOnArrival p = true then
          n.sentTo c ++ replyPackets p .accepted false false (due % 65536) [[]]
        else n.sentTo c := by
  rw [poolIn_eq]
  cases acceptedOnArrival p
  · simp
  · simp [accepted_sentTo]

/-- A packet that is not accepted leaves the body of the node as it was (R58, R60). -/
theorem arrive_none_body (p : Packet) (lenOk : Bool) (first : Nat) (n : Node) (h : (n.arrive p lenOk first).1 = none) :
    (n.arrive p lenOk first).2.body = n.body := by
  unfold Node.arrive at h ⊢
  cases hd : (n.touchSession p).downStatus with
  | some s => simp [hd]
  | none =>
    simp only [hd] at h ⊢
    cases hj : (n.touchSession p).judgePacket p lenOk first with
    | refuse s ws cache => cases cache <;> simp
    | resend ps => simp [emitAll_body]
    | accept op due sch side => simp [hj] at h

theorem accept_of_ite {b : Prop} [Decidable b] {s : Status} {ws : List Word} {c : Bool} {x : Arrival} {oc : Opcode} {due : Nat}
    {sch : Bool} {side : RelaySide} (h : (if b then Arrival.refuse s ws c else x) = .accept oc due sch side) :
    x = .accept oc due sch side := by
  by_cases hb : b
  · rw [if_pos hb] at h; exact nomatch h
  · rwa [if_neg hb] at h

theorem not_of_accept {b : Prop} [Decidable b] {s : Status} {ws : List Word} {c : Bool} {x : Arrival} {oc : Opcode} {due : Nat}
    {sch : Bool} {side : RelaySide} (h : (if b then Arrival.refuse s ws c else x) = .accept oc due sch side) : ¬ b :=
  fun hb => by rw [if_pos hb] at h; exact nomatch h

theorem accept_of_match {x : Option (List Word)} {s : Status} {c : Bool} {y : Arrival} {oc : Opcode} {due : Nat} {sch : Bool}
    {side : RelaySide}
    (h : (match x with
      | some ws => Arrival.refuse s ws c
      | none => y) = .accept oc due sch side) : y = .accept oc due sch side := by
  cases x with
  | some ws => exact nomatch h
  | none => exact h

/-- A tick that lies 1 to 32,767 ticks ahead is not reached yet (R71, R617). -/
theorem kLe_ahead (k d : Nat) (h0 : 0 < d) (h1 : d < 32768) : kLe (wrapK (k + d)) k = false := by
  unfold kLe kSub wrapK
  rw [decide_eq_false_iff_not]
  omega

theorem judgeOp_accept (n : Node) (op oc : Opcode) (p : Packet) (first due : Nat) (sch : Bool) (side : RelaySide)
    (h : n.judgeOp op p first = .accept oc due sch side) :
    sch = p.scheduled ∧ oc = op ∧ side = n.sideOf op p ∧ (p.scheduled = true → kLe due n.time.k48 = false) := by
  unfold Node.judgeOp at h
  dsimp only at h
  have h := accept_of_ite (accept_of_ite (accept_of_ite (accept_of_ite (accept_of_ite h))))
  have h := accept_of_match (accept_of_ite (accept_of_match h))
  have hd := not_of_accept h
  have h := accept_of_ite (accept_of_ite (accept_of_ite (accept_of_ite h)))
  injection h with h1 h2 h3 h4
  refine ⟨h3.symm, h1.symm, h4.symm, fun hs => ?_⟩
  rw [if_pos hs] at h2
  simp only [hs, Bool.true_and, Bool.or_eq_true, decide_eq_true_eq, not_or] at hd
  rw [← h2]
  exact kLe_ahead _ _ (by omega) (by omega)

theorem tagCheck_accept (n : Node) (p : Packet) (oc : Opcode) (due : Nat) (sch : Bool) (side : RelaySide)
    (h : n.tagCheck p = some (.accept oc due sch side)) : False := by
  unfold Node.tagCheck at h
  dsimp only at h
  by_cases h1 : p.tag = 4095
  · rw [if_pos h1] at h; injection h with h; exact nomatch h
  · rw [if_neg h1] at h
    generalize (n.core.pool.any (fun o => o.client == senderOf p && o.packet.tag == p.tag) ||
      (match n.held with
        | some h => h.client == senderOf p && h.packet.tag == p.tag
        | none => false)) = b at h
    cases b with
    | true => simp only [if_true] at h; injection h with h; exact nomatch h
    | false =>
      simp only [Bool.false_eq_true, if_false] at h
      cases hc : (n.clientRec (senderOf p)).cache.find? fun e => e.tag == p.tag with
      | some e => simp only [hc] at h; injection h with h; exact nomatch h
      | none => simp only [hc] at h; exact nomatch h

theorem judgePacket_accept (n : Node) (oc : Opcode) (p : Packet) (ok : Bool) (first due : Nat) (sch : Bool) (side : RelaySide)
    (h : n.judgePacket p ok first = .accept oc due sch side) :
    sch = p.scheduled ∧ opcodeOf p = some oc ∧ side = n.sideOf oc p ∧ (p.scheduled = true → kLe due n.time.k48 = false) := by
  unfold Node.judgePacket at h
  dsimp only at h
  have h := accept_of_ite (accept_of_ite (accept_of_ite h))
  cases ht : n.tagCheck p with
  | some a => simp only [ht] at h; subst h; exact (tagCheck_accept _ _ _ _ _ _ ht).elim
  | none =>
    simp only [ht] at h
    cases ho : opcodeOf p with
    | none => simp only [ho] at h; exact nomatch h
    | some o =>
      simp only [ho] at h
      obtain ⟨h1, h2, h3, h4⟩ := judgeOp_accept _ _ _ _ _ _ _ _ (accept_of_ite h)
      subst h2
      exact ⟨h1, rfl, h3, h4⟩

/-- A packet that is accepted joins the pool (R58, R78). -/
theorem arrive_some (p : Packet) (ok : Bool) (first o : Nat) (n : Node) (h : (n.arrive p ok first).1 = some o) :
    ∃ oc due side, opcodeOf p = some oc ∧ side = (n.touchSession p).sideOf oc p ∧ (p.scheduled = true → kLe due n.time.k48 = false) ∧
      (n.arrive p ok first).2 = ((n.touchSession p).poolIn p due p.scheduled side).2 ∧
      o = ((n.touchSession p).poolIn p due p.scheduled side).1 := by
  unfold Node.arrive at h ⊢
  cases hd : (n.touchSession p).downStatus with
  | some s => simp [hd] at h
  | none =>
    simp only [hd] at h ⊢
    cases hj : (n.touchSession p).judgePacket p ok first with
    | refuse s ws cache => simp [hj] at h
    | resend ps => simp [hj] at h
    | accept op due sch side =>
      obtain ⟨h1, h2, h3, h4⟩ := judgePacket_accept _ _ _ _ _ _ _ _ hj
      rw [touchSession_time] at h4
      simp only [hj] at h
      injection h with h
      exact ⟨op, due, side, h2, h3, h4, by rw [h1], by rw [← h1, h]⟩

/-- An operation that enters the pool is found under its order number where no other bears it. -/
theorem enter_find (op : PoolOp) (pool : List PoolOp) (h : pool.find? (fun x => x.order == op.order) = none) :
    (op.enter pool).find? (fun x => x.order == op.order) = some op := by
  have hf : ∀ g : PoolOp → Bool, (pool.filter g).find? (fun x => x.order == op.order) = none := fun g => by
    rw [List.find?_eq_none] at h ⊢
    exact fun x hx => h x (List.mem_filter.mp hx).1
  simp [PoolOp.enter, List.find?_append, hf]

/-- What entering the pool adds is the operation alone. -/
theorem mem_enter (op o : PoolOp) (pool : List PoolOp) : o ∈ op.enter pool ↔ o = op ∨ o ∈ pool := by
  simp only [PoolOp.enter, List.mem_append, List.mem_cons, List.mem_filter]
  cases (op.client.isL && !o.client.isL && o.arrivedAt == op.arrivedAt) <;> simp [or_comm]

theorem poolIn_opOf (p : Packet) (due : Nat) (sch : Bool) (side : RelaySide) (n : Node)
    (h : (n.core.pool.any fun o => o.order == n.core.nextOrder) = false) :
    (n.poolIn p due sch side).2.opOf (n.poolIn p due sch side).1 =
      some { slot := n.nextSlot, order := n.core.nextOrder, client := senderOf p, packet := p, scheduled := sch, due := due
             phase := .waiting, side := side, arrivedAt := n.now } := by
  have hf : n.core.pool.find? (fun x => x.order == n.core.nextOrder) = none := by
    rw [List.find?_eq_none]
    intro x hx he
    rw [List.any_eq_false] at h
    exact h x hx he
  unfold Node.poolIn Node.opOf
  simp only
  have he := enter_find
    { slot := n.nextSlot, order := n.core.nextOrder, client := senderOf p, packet := p, scheduled := sch, due := due,
      phase := .waiting, side := side, arrivedAt := n.now } n.core.pool hf
  split <;> split <;> simpa [Node.laneSend] using he

/-! ### A packet that runs now -/

/-- What `runsNow` says, taken apart. -/
structure RunsNow (p : Packet) (n : Node) (oc : Opcode) : Prop where
  cellar : n.power.vcel = true ∧ n.power.cresetn = true
  up : n.up = true
  arrived : (n.arrived p).1 = some (n.opFrom p)
  opcode : opcodeOf p = some oc
  notScheduled : p.scheduled = false
  fresh : ∃ due, n.opFrom p = (n.touchSession p).freshOp p due ∧
    (n.arrived p).2 = ((n.touchSession p).poolIn p due p.scheduled .here).2
  due : kLe (n.opFrom p).due n.time.k48 = true
  notPassed : (n.opFrom p).passed (n.arrived p).2.time.stepped (n.arrived p).2.time.k48 = false
  checks : (n.arrived p).2.commitChecks oc (n.opFrom p).client p = none

theorem RunsNow.side {p : Packet} {n : Node} {oc : Opcode} (h : RunsNow p n oc) : (n.opFrom p).side = .here := by
  obtain ⟨_, h, _⟩ := h.fresh; rw [h]; rfl

theorem RunsNow.packet {p : Packet} {n : Node} {oc : Opcode} (h : RunsNow p n oc) : (n.opFrom p).packet = p := by
  obtain ⟨_, h, _⟩ := h.fresh; rw [h]; rfl

theorem RunsNow.client {p : Packet} {n : Node} {oc : Opcode} (h : RunsNow p n oc) : (n.opFrom p).client = senderOf p := by
  obtain ⟨_, h, _⟩ := h.fresh; rw [h]; rfl

theorem runsNow_spec (p : Packet) (n : Node) (h : n.runsNow p = true) : ∃ oc, RunsNow p n oc := by
  unfold Node.runsNow at h
  simp only [Bool.and_eq_true] at h
  obtain ⟨ht, h⟩ := h
  cases h1 : (n.arrived p).1 with
  | none => simp [h1] at h
  | some op =>
    cases h2 : opcodeOf p with
    | none => simp [h1, h2] at h
    | some oc =>
      have hop : n.opFrom p = op := by simp [Node.opFrom, h1]
      simp only [h1, h2, Bool.and_eq_true, beq_iff_eq, Bool.not_eq_true', Option.isNone_iff_eq_none] at h
      simp only [Node.takesPackets, Bool.and_eq_true] at ht
      obtain ⟨⟨⟨⟨hs, hl⟩, hd⟩, hn⟩, hk⟩ := h
      subst hop
      cases hb : (n.arrive p (decide (p.words.length ≤ 250)) n.firstTick).1 with
      | none => unfold Node.arrived at h1; dsimp only at h1; rw [hb] at h1; simp at h1
      | some o =>
        obtain ⟨oc', due, side, ho, hside, hsch, hm, ho'⟩ := arrive_some _ _ _ _ _ hb
        have hfr : ((n.touchSession p).core.pool.any fun o => o.order == (n.touchSession p).core.nextOrder) = false := by
          rw [touchSession_core]; exact hl
        have hfind := poolIn_opOf p due p.scheduled side (n.touchSession p) hfr
        have h1' := h1
        unfold Node.arrived at h1'
        dsimp only at h1'
        rw [hb, Option.bind_some, hm, ho', hfind] at h1'
        injection h1' with he
        have he := he.symm
        have hs' : side = .here := by rw [he] at hs; exact hs
        subst hs'
        have hdue : (n.opFrom p).due = due := by rw [he]
        have hns : p.scheduled = false := by
          cases hp : p.scheduled with
          | false => rfl
          | true => have := hsch hp; rw [hdue, this] at hd; exact nomatch hd
        exact ⟨oc, ⟨ht.1.1.1, ht.1.1.2⟩, ht.1.2, h1, h2, hns, ⟨due, he, hm⟩, hd, hn, hk⟩

/-- The row of a packet that runs now: its command acts on the node at the commit, and its answer is delivered. -/
theorem packetRow_runsNow (f : PoolOp → Node → Ans × Node) (p : Packet) (n : Node) (h : n.runsNow p = true) :
    n.packetRow f p =
      match (f (n.opFrom p) (n.atCommit p)).2.opOf (n.opFrom p).order with
      | some op => (f (n.opFrom p) (n.atCommit p)).2.deliver op (f (n.opFrom p) (n.atCommit p)).1
      | none => (f (n.opFrom p) (n.atCommit p)).2 := by
  obtain ⟨oc, hr⟩ := runsNow_spec p n h
  have ha : ((n.arrive p (decide (p.words.length ≤ 250)) n.firstTick).1.bind
      (n.arrive p (decide (p.words.length ≤ 250)) n.firstTick).2.opOf) = some (n.opFrom p) := hr.arrived
  have hpk : opcodeOf (n.opFrom p).packet = some oc := by rw [hr.packet]; exact hr.opcode
  have hch : (n.arrived p).2.commitChecks oc (n.opFrom p).client (n.opFrom p).packet = none := by
    rw [hr.packet]; exact hr.checks
  have hnp := hr.notPassed
  simp only [Node.packetRow, Node.whenCellar, hr.cellar.1, hr.cellar.2, Bool.and_self, if_true, ha]
  have hcond : (decide ((n.opFrom p).side = RelaySide.sent) || !kLe (n.opFrom p).due n.time.k48) = false := by
    rw [hr.side, hr.due]
    rfl
  simp only [hcond, Bool.false_eq_true, if_false]
  show Node.commitOp f (n.opFrom p) (n.arrived p).2 = _
  unfold Node.commitOp
  simp only [hpk, hnp, Bool.false_eq_true, if_false, hch]
  rfl

/-- The operation of a packet that runs now stands in the pool at its commit, marked committed. -/
theorem atCommit_opOf (p : Packet) (n : Node) (h : n.runsNow p = true) :
    (n.atCommit p).opOf (n.opFrom p).order = some { n.opFrom p with phase := .committed } := by
  obtain ⟨oc, hr⟩ := runsNow_spec p n h
  have ha := hr.arrived
  unfold Node.arrived at ha
  simp only at ha
  cases hb : (n.arrive p (decide (p.words.length ≤ 250)) n.firstTick).1 with
  | none => rw [hb] at ha; simp at ha
  | some o =>
    rw [hb] at ha
    simp only [Option.bind_some] at ha
    have ho : (n.opFrom p).order = o := by
      unfold Node.opOf at ha
      have := List.find?_some ha
      simpa using this
    have hf : (n.arrived p).2.core.pool.find? (fun x => x.order == (n.opFrom p).order) = some (n.opFrom p) := by
      rw [ho]; exact ha
    unfold Node.atCommit Node.markCommitted Node.opOf
    simp only [modCore_core]
    rw [List.find?_map]
    have hcomp : ((fun x : PoolOp => x.order == (n.opFrom p).order) ∘ fun x : PoolOp =>
        if (x.order == (n.opFrom p).order) = true then { x with phase := .committed } else x) =
        fun x => x.order == (n.opFrom p).order := by
      funext x
      simp only [Function.comp_apply]
      split <;> rfl
    rw [hcomp, hf]
    simp

/-- The node at the commit: only the talk has changed since before the packet, and ACCEPTED may have gone out. -/
theorem atCommit_spec (p : Packet) (n : Node) (h : n.runsNow p = true) :
    (n.atCommit p).body = n.body ∧ (n.atCommit p).time = n.time ∧ (n.atCommit p).clients = n.clients ∧
      (n.atCommit p).sessions = (n.touchSession p).sessions ∧
      ∀ c, (n.atCommit p).sentTo c =
        if c = senderOf p ∧ p.finalOnly = false ∧ acceptedOnArrival p = true then
          n.sentTo c ++ replyPackets p .accepted false false ((n.opFrom p).due % 65536) [[]]
        else n.sentTo c := by
  obtain ⟨oc, hr⟩ := runsNow_spec p n h
  obtain ⟨due, hop, hm⟩ := hr.fresh
  obtain ⟨h1, h2, h3, h4, h5⟩ := poolIn_here p due (n.touchSession p)
  have hdue : (n.opFrom p).due = due := by rw [hop]; rfl
  unfold Node.atCommit
  rw [hm, hdue]
  refine ⟨?_, ?_, ?_, ?_, fun c => ?_⟩
  · rw [markCommitted_body, h1, touchSession_body]
  · rw [Node.markCommitted, modCore_time, h2, touchSession_time]
  · rw [Node.markCommitted, modCore_clients, h3, touchSession_clients]
  · rw [Node.markCommitted, modCore_sessions, h4]
  · rw [markCommitted_sentTo, h5, touchSession_sentTo]

/-- A command that answers at once without touching the node: its reply goes out, and nothing else of the node changes. -/
theorem packetRow_reader (f : PoolOp → Node → Ans × Node) (p : Packet) (n : Node) (h : n.runsNow p = true) (st : Status)
    (ch : List (List Word)) (g : Bool) (hf : f (n.opFrom p) (n.atCommit p) = (.final st ch g, n.atCommit p)) :
    n.packetRow f p = ((n.atCommit p).dropOp (n.opFrom p).order).finish p st ch g n.tick16 := by
  obtain ⟨oc, hr⟩ := runsNow_spec p n h
  rw [packetRow_runsNow f p n h, hf]
  simp only [atCommit_opOf p n h, Node.deliver, Node.endOp]
  have hs : (n.opFrom p).side = .here := hr.side
  have ht : (n.atCommit p).time = n.time := (atCommit_spec p n h).2.1
  simp only [hs, hr.packet, Node.tick16, ht]

/-- A command that answers at once and leaves the pool alone: its effect, and then its reply. -/
theorem packetRow_final (f : PoolOp → Node → Ans × Node) (p : Packet) (n m : Node) (h : n.runsNow p = true) (st : Status)
    (ch : List (List Word)) (g : Bool) (hf : f (n.opFrom p) (n.atCommit p) = (.final st ch g, m))
    (hp : m.core.pool = (n.atCommit p).core.pool) :
    n.packetRow f p = (m.dropOp (n.opFrom p).order).finish p st ch g m.tick16 := by
  obtain ⟨oc, hr⟩ := runsNow_spec p n h
  have ho : m.opOf (n.opFrom p).order = some { n.opFrom p with phase := .committed } := by
    rw [← atCommit_opOf p n h]; unfold Node.opOf; rw [hp]
  rw [packetRow_runsNow f p n h, hf]
  simp only [ho, Node.deliver, Node.endOp]
  have hs : (n.opFrom p).side = .here := hr.side
  simp only [hs, hr.packet]

/-- A command that waits and leaves the pool alone: its effect, and ACCEPTED where it did not go out on arrival. -/
theorem packetRow_wait (f : PoolOp → Node → Ans × Node) (p : Packet) (n m : Node) (h : n.runsNow p = true)
    (hf : f (n.opFrom p) (n.atCommit p) = (.wait, m)) (hp : m.core.pool = (n.atCommit p).core.pool) :
    n.packetRow f p = if acceptedOnArrival p then m else m.accepted p (n.opFrom p).due := by
  obtain ⟨oc, hr⟩ := runsNow_spec p n h
  obtain ⟨due, hop, _⟩ := hr.fresh
  have ho : m.opOf (n.opFrom p).order = some { n.opFrom p with phase := .committed } := by
    rw [← atCommit_opOf p n h]; unfold Node.opOf; rw [hp]
  have ha : ({ n.opFrom p with phase := .committed } : PoolOp).acceptedAtOnce = acceptedOnArrival p := by
    rw [← freshOp_accepted p due (n.touchSession p), hop]; rfl
  rw [packetRow_runsNow f p n h, hf]
  simp only [ho, Node.deliver]
  rw [ha]
  have hside : (RelaySide.here != RelaySide.here) = false := rfl
  simp only [hr.packet, hr.side, hside, Bool.or_false]

/-! ### The packet of a row -/

@[simp] theorem asRow_words (oc : Opcode) (p : Packet) : (asRow oc p).words = p.words := rfl
@[simp] theorem asRow_sender (oc : Opcode) (p : Packet) : senderOf (asRow oc p) = senderOf p := rfl
@[simp] theorem asRow_client (oc : Opcode) (p : Packet) : (asRow oc p).client = p.client := rfl
@[simp] theorem asRow_mask (oc : Opcode) (p : Packet) : (asRow oc p).mask = p.mask := rfl
@[simp] theorem asRow_tag (oc : Opcode) (p : Packet) : (asRow oc p).tag = p.tag := rfl
@[simp] theorem asRow_pw (oc : Opcode) (p : Packet) (i : Nat) : pw (asRow oc p) i = pw p i := rfl

@[simp] theorem withBits_sender (lo w v : Nat) (p : Packet) : senderOf (withBits lo w v p) = senderOf p := by
  unfold withBits; split <;> rfl
@[simp] theorem withBits_client (lo w v : Nat) (p : Packet) : (withBits lo w v p).client = p.client := by
  unfold withBits; split <;> rfl
@[simp] theorem withBits_mask (lo w v : Nat) (p : Packet) : (withBits lo w v p).mask = p.mask := by
  unfold withBits; split <;> rfl
@[simp] theorem withBits_opcode (lo w v : Nat) (p : Packet) : (withBits lo w v p).opcode = p.opcode := by
  unfold withBits; split <;> rfl
@[simp] theorem withBits_pw_succ (lo w v : Nat) (p : Packet) (i : Nat) : pw (withBits lo w v p) (i + 1) = pw p (i + 1) := by
  unfold withBits pw; split
  · rfl
  · rename_i h; rw [h]; rfl
@[simp] theorem withBits_drop (lo w v : Nat) (p : Packet) (k : Nat) : (withBits lo w v p).words.drop (k + 1) = p.words.drop (k + 1) := by
  unfold withBits; split
  · rfl
  · rename_i h; rw [h]; rfl

theorem bits_replaced (x lo w v : Nat) (hv : v < 2 ^ w) :
    (x - x / 2 ^ lo % 2 ^ w * 2 ^ lo + v * 2 ^ lo) / 2 ^ lo % 2 ^ w = v := by
  have hp : 0 < 2 ^ lo := Nat.two_pow_pos lo
  have hq : 0 < 2 ^ w := Nat.two_pow_pos w
  have h1 : x = x / 2 ^ lo * 2 ^ lo + x % 2 ^ lo := by rw [Nat.mul_comm]; exact (Nat.div_add_mod x (2 ^ lo)).symm
  have h2 : x / 2 ^ lo = x / 2 ^ lo / 2 ^ w * 2 ^ w + x / 2 ^ lo % 2 ^ w := by
    rw [Nat.mul_comm]; exact (Nat.div_add_mod (x / 2 ^ lo) (2 ^ w)).symm
  generalize x / 2 ^ lo / 2 ^ w = a at h2
  generalize x / 2 ^ lo % 2 ^ w = b at h2 ⊢
  generalize x / 2 ^ lo = c at h1 h2
  generalize hr : x % 2 ^ lo = r at h1
  have hrl : r < 2 ^ lo := by rw [← hr]; exact Nat.mod_lt _ hp
  have h3 : x - b * 2 ^ lo + v * 2 ^ lo = r + (a * 2 ^ w + v) * 2 ^ lo := by
    rw [h1, h2, Nat.add_mul, Nat.add_mul]; omega
  rw [h3, Nat.add_mul_div_right _ _ hp, Nat.div_eq_of_lt hrl, Nat.zero_add, Nat.add_comm, Nat.add_mul_mod_self_right, Nat.mod_eq_of_lt hv]

/-- The bits that name the row's operation read as the row says. -/
theorem withBits_fld (lo w v : Nat) (p : Packet) (hp : p.words ≠ []) (hv : v < 2 ^ (w + 1)) (hw : lo + (w + 1) ≤ 40) :
    fld (pw (withBits lo (w + 1) v p) 0) (lo + w) lo = v := by
  cases hws : p.words with
  | nil => exact absurd hws hp
  | cons x xs =>
    have hx : pw (withBits lo (w + 1) v p) 0 = wN (x.toNat - (x.toNat / 2 ^ lo % 2 ^ (w + 1)) * 2 ^ lo + v * 2 ^ lo) := by
      unfold withBits pw; rw [hws]; rfl
    have hs : lo + w + 1 - lo = w + 1 := by omega
    rw [hx, fld, wN, BitVec.toNat_ofNat, Nat.shiftRight_eq_div_pow, hs]
    have hb := bits_replaced x.toNat lo (w + 1) v hv
    have hlt : x.toNat - x.toNat / 2 ^ lo % 2 ^ (w + 1) * 2 ^ lo + v * 2 ^ lo < 2 ^ 40 := by
      have hxl := x.isLt
      generalize hb' : x.toNat / 2 ^ lo % 2 ^ (w + 1) = b
      have hsp : 2 ^ 40 = 2 ^ (40 - lo - (w + 1)) * 2 ^ (w + 1) * 2 ^ lo := by rw [← Nat.pow_add, ← Nat.pow_add]; congr 1; omega
      have hpos : 0 < 2 ^ lo := Nat.two_pow_pos lo
      have h1 : x.toNat = x.toNat / 2 ^ lo * 2 ^ lo + x.toNat % 2 ^ lo := by
        rw [Nat.mul_comm]; exact (Nat.div_add_mod x.toNat (2 ^ lo)).symm
      have h2 : x.toNat / 2 ^ lo = x.toNat / 2 ^ lo / 2 ^ (w + 1) * 2 ^ (w + 1) + b := by
        rw [← hb', Nat.mul_comm]; exact (Nat.div_add_mod (x.toNat / 2 ^ lo) (2 ^ (w + 1))).symm
      have hr : x.toNat % 2 ^ lo < 2 ^ lo := Nat.mod_lt _ hpos
      generalize x.toNat % 2 ^ lo = r at h1 hr
      have ha : x.toNat / 2 ^ lo / 2 ^ (w + 1) < 2 ^ (40 - lo - (w + 1)) := by
        rw [Nat.div_div_eq_div_mul, Nat.div_lt_iff_lt_mul (Nat.mul_pos hpos (Nat.two_pow_pos (w + 1))), ← Nat.pow_add, ← Nat.pow_add]
        have : 40 - lo - (w + 1) + (lo + (w + 1)) = 40 := by omega
        rw [this]; exact hxl
      generalize x.toNat / 2 ^ lo / 2 ^ (w + 1) = a at h2 ha
      generalize x.toNat / 2 ^ lo = c at h1 h2
      have h3 : x.toNat - b * 2 ^ lo + v * 2 ^ lo = r + (a * 2 ^ (w + 1) + v) * 2 ^ lo := by
        rw [h1, h2, Nat.add_mul, Nat.add_mul]; omega
      rw [h3, hsp]
      have h4 : a * 2 ^ (w + 1) + v < 2 ^ (40 - lo - (w + 1)) * 2 ^ (w + 1) := by
        have : (a + 1) * 2 ^ (w + 1) ≤ 2 ^ (40 - lo - (w + 1)) * 2 ^ (w + 1) := Nat.mul_le_mul_right _ ha
        rw [Nat.add_mul] at this; omega
      have h5 : (a * 2 ^ (w + 1) + v + 1) * 2 ^ lo ≤ 2 ^ (40 - lo - (w + 1)) * 2 ^ (w + 1) * 2 ^ lo := Nat.mul_le_mul_right _ h4
      rw [Nat.add_mul] at h5; omega
    rw [Nat.mod_eq_of_lt hlt]
    exact hb

/-- Commands that are answered at their commit send no ACCEPTED on arrival (R77, R557). -/
theorem notAccepted (p : Packet) (n : Node) (oc : Opcode) (h : n.runsNow p = true) (ho : opcodeOf p = some oc)
    (ha : oc.answersLater = false) : acceptedOnArrival p = false := by
  obtain ⟨oc', hr⟩ := runsNow_spec p n h
  simp [acceptedOnArrival, hr.notScheduled, ho, ha]

/-- A command that only reads: its reply goes to its sender, and nothing but the talk changes. -/
theorem answersWith_reader (f : PoolOp → Node → Ans × Node) (p : Packet) (n : Node) (h : n.runsNow p = true) (st : Status)
    (ch : List (List Word)) (g : Bool) (hf : f (n.opFrom p) (n.atCommit p) = (.final st ch g, n.atCommit p))
    (hacc : acceptedOnArrival p = false) : n.answersWith p st ch g (n.packetRow f p) := by
  obtain ⟨h1, h2, h3, h4, h5⟩ := atCommit_spec p n h
  rw [packetRow_reader f p n h st ch g hf]
  refine ⟨?_, ?_⟩
  · rw [finish_sentTo, if_pos rfl, dropOp_sentTo, h5, if_neg (by rw [hacc]; simp)]; rfl
  · rw [finish_body, dropOp_body, h1]

theorem opcodeOf_asRow (oc : Opcode) (p : Packet) : opcodeOf (asRow oc p) = some oc := by cases oc <;> rfl

@[simp] theorem opcodeOf_withBits (lo w v : Nat) (p : Packet) : opcodeOf (withBits lo w v p) = opcodeOf p := by
  unfold withBits opcodeOf; split <;> rfl

/-! ### Bodies -/

theorem body_core {a b : Node} (h : a.body = b.body) : a.core.body = b.core.body := congrArg (fun n : Node => n.core) h
theorem body_store {a b : Node} (h : a.body = b.body) : a.store = b.store := by have := congrArg Node.store h; exact this
theorem body_line {a b : Node} (h : a.body = b.body) : a.line = b.line := by have := congrArg Node.line h; exact this
theorem body_lane {a b : Node} (h : a.body = b.body) : a.lane = b.lane := by have := congrArg Node.lane h; exact this
theorem body_time {a b : Node} (h : a.body = b.body) : a.time = b.time := by have := congrArg Node.time h; exact this
theorem body_nonces {a b : Node} (h : a.body = b.body) : a.nonces = b.nonces := by have := congrArg Node.nonces h; exact this

/-! ### What the answer leaves alone -/

/-- The parts of the node that an answer to a command never changes. -/
structure Node.SameBut (m n : Node) : Prop where
  power : m.power = n.power
  time : m.time = n.time
  sessions : m.sessions = n.sessions
  nonces : m.nonces = n.nonces
  store : m.store = n.store
  restart : m.restart = n.restart
  held : m.held = n.held
  adopted : m.adopted = n.adopted
  steepWord : m.steepWord = n.steepWord
  line : m.line = n.line
  core : m.core.body = n.core.body
  free : m.free = n.free

theorem Node.SameBut.refl (n : Node) : n.SameBut n := ⟨rfl, rfl, rfl, rfl, rfl, rfl, rfl, rfl, rfl, rfl, rfl, rfl⟩

theorem Node.SameBut.trans {a b c : Node} (h : a.SameBut b) (g : b.SameBut c) : a.SameBut c :=
  ⟨h.power.trans g.power, h.time.trans g.time, h.sessions.trans g.sessions, h.nonces.trans g.nonces, h.store.trans g.store,
    h.restart.trans g.restart, h.held.trans g.held, h.adopted.trans g.adopted, h.steepWord.trans g.steepWord,
    h.line.trans g.line, h.core.trans g.core, h.free.trans g.free⟩

theorem emit_sameBut (d : Client) (b : Bool) (p : ReplyPkt) (n : Node) : (n.emit d b p).SameBut n := by
  cases d <;> exact ⟨rfl, rfl, rfl, rfl, rfl, rfl, rfl, rfl, rfl, rfl, rfl, rfl⟩

theorem emitAll_sameBut (d : Client) (ps : List ReplyPkt) (n : Node) : (n.emitAll d ps).SameBut n := by
  induction ps generalizing n with
  | nil => exact .refl n
  | cons p ps ih => rw [emitAll_cons]; exact (ih _).trans (emit_sameBut d false p n)

theorem setClient_sameBut (r : ClientRec) (n : Node) : (n.setClient r).SameBut n := by
  unfold Node.setClient; split <;> exact ⟨rfl, rfl, rfl, rfl, rfl, rfl, rfl, rfl, rfl, rfl, rfl, rfl⟩

theorem dropOp_sameBut (o : Nat) (n : Node) : (n.dropOp o).SameBut n := ⟨rfl, rfl, rfl, rfl, rfl, rfl, rfl, rfl, rfl, rfl, rfl, rfl⟩

theorem finish_sameBut (p : Packet) (s : Status) (ch : List (List Word)) (g : Bool) (k : Nat) (n : Node) :
    (n.finish p s ch g k).SameBut n := by
  unfold Node.finish Node.cacheReply
  split
  · exact (setClient_sameBut _ _).trans (emitAll_sameBut _ _ _)
  · exact emitAll_sameBut _ _ _

theorem accepted_sameBut (p : Packet) (k : Nat) (n : Node) : (n.accepted p k).SameBut n := by
  unfold Node.accepted
  split
  · exact .refl n
  · exact emitAll_sameBut _ _ _

theorem endOp_sameBut (op : PoolOp) (s : Status) (ch : List (List Word)) (g : Bool) (n : Node) : (n.endOp op s ch g).SameBut n := by
  unfold Node.endOp
  split
  · exact ⟨rfl, rfl, rfl, rfl, rfl, rfl, rfl, rfl, rfl, rfl, rfl, rfl⟩
  · exact ⟨rfl, rfl, rfl, rfl, rfl, rfl, rfl, rfl, rfl, rfl, rfl, rfl⟩
  · exact (finish_sameBut _ _ _ _ _ _).trans (dropOp_sameBut _ _)
  · exact (finish_sameBut _ _ _ _ _ _).trans (dropOp_sameBut _ _)

theorem deliver_sameBut (op : PoolOp) (a : Ans) (n : Node) : (n.deliver op a).SameBut n := by
  cases a with
  | final s ws g => exact endOp_sameBut op s ws g n
  | wait =>
    simp only [Node.deliver]
    split
    · exact .refl n
    · exact accepted_sameBut _ _ _
  | gone =>
    simp only [Node.deliver]
    refine (dropOp_sameBut _ _).trans ?_
    split
    · exact .refl n
    · exact accepted_sameBut _ _ _

/-- The effect of a packet that runs now is its command's effect, but for the talk. -/
theorem packetRow_sameBut (f : PoolOp → Node → Ans × Node) (p : Packet) (n : Node) (h : n.runsNow p = true) :
    (n.packetRow f p).SameBut (f (n.opFrom p) (n.atCommit p)).2 := by
  rw [packetRow_runsNow f p n h]
  split
  · exact deliver_sameBut _ _ _
  · exact .refl _

end Sys2Proof.Machine
end

