-- ==== Sys2Proof/Tests/Slice0.lean ====
section
/-!
SUPPORT. Tests of the model: an ill-formed term for each check of WellFormed, the spec's own worked examples, and for each
obligation concrete states and operands that meet the hypotheses of its clauses.
-/
namespace Sys2Proof.Tests
open Sys2Proof Sys2Proof.Machine
set_option Elab.async false

/-! ### States the tests start from -/

/-- A node that is up in TRACK with an open session of a maintainer, client 7. -/
def live : Node :=
  let n := State.reset.node
  { n with
    power := { n.power with vcel := true, railsGood := true }
    core := { n.core with run := .up, mode := .track }
    sessions := [{ id := 7, cls := .maintainer, nonce := 5, lastNs := 0 }] }

/-- The node `live` after a change. -/
def on (f : Node → Node) : State := { node := f live, pending := [] }

/-- The node `live` in another mode, after a change. -/
def inMode (m : Mode) (f : Node → Node) : State := on fun n => f (n.modCore fun k => { k with mode := m })

/-- A packet of client 7 with these words and this channel mask; each row puts its own opcode in. -/
def pk (ws : List Word) (mask : BitVec 8) : Packet :=
  { port := .line, opcode := 0, client := 7, tag := 1, greenOk := false, finalOnly := false, scheduled := false, mask := mask, tick := 0
    words := ws, mac := none }

/-- The bytes of a host-port write of a packet. -/
def hostWrite (bs : List Byte) : HostWrite := { len := BitVec.ofNat 16 bs.length, bytes := bs, cutInByte := false }

/-- The results of a Steep whose checks all pass. -/
def goodSteep : SteepResults :=
  { unfinished := [], crystalPpm := 0, marchPassed := true, uncorrectable := [], corrected := [], crcBad := [], signatureBad := []
    adcDev := Quad.all 0, excDev := Quad.all 0, dacDev := Quad.all (List.replicate 7 0), tdcDev := 0, rtdDev := 0, refDevs := (0, 0, 0)
    refBFitted := true, late := [], t0Ps := 0 }

/-- A Steep without abandoned steps or pitched bits whose checks all pass. -/
def goodGround : SteepGround := { r := goodSteep, abandoned := 0, pitched := 0 }

/-- `Node.reported` as a test. -/
def rep (f : FaultCode) (scope : Nat) (n : Node) : Bool :=
  (n.core.faults.verdicts.any fun v => v.code == f && v.scope == scope) ||
  (n.core.faults.insts.any fun i => i.code == f && i.scope == scope && i.present)

/-- `State.on` with a change of the fault manager. -/
def onF (f : Faults → Faults) : State := on fun n => n.modFaults f

/-- The latest two kilned samples of a tracking channel. -/
def k1 : Kil := { u := 100, v := 5, cnt := 0, st := { lt := 62500, mark := .lineTime, e := 62500 } }
def k2 : Kil := { u := 300, v := 5, cnt := 0, st := { lt := 125000, mark := .lineTime, e := 125000 } }

/-- The node `live` in its third tick, tracking on channel 2, after a change of that channel. -/
def tracked (n : Node) : Node :=
  (n.modTime fun t => { t with lt := 125000, p0e := 125000, k48 := 2 }).modFront 2 fun f =>
    { f with trk := { f.trk with running := true, valid := true, kil := some k2, kilBefore := some k1, kilTick := some k2,
                                 basis := { u := 300, v := 5, st := k2.st } } }
def onTrk (f : Trk → Trk) : State := on fun n => (tracked n).modFront 2 fun x => { x with trk := f x.trk }

/-- A committed operation of client 7 whose packet has this opcode. -/
def opFor (oc : BitVec 8) (ws : List Word) (mask : BitVec 8) : PoolOp :=
  { slot := 3, order := 9, client := .line 7, packet := { pk ws mask with opcode := oc, tag := 2 }, scheduled := false, due := 0, phase := .committed }

/-- In DRIVE, channel 2 runs a loop that client 7 owns, at rest at its kilned position, of kind POSITION or VELOCITY; after a change. -/
def driving (position : Bool) (f : Node → Node) : State := inMode .drive fun n =>
  f (((tracked n).modCore fun k => { k with params := k.params.put (pidAt Pid.ctlKind 2) (if position then 1 else 0) }).modSlot 2 fun x =>
    { x with enabled := true, owner := some 7, sp := { p := auToFx 300 } })
def wf (n : Node) : Bool := n.core.params.wf

/-- `live` tracking on channel 2, after a change of that channel's position services. -/
def onPos (f : Pos → Pos) : State := on fun n => (tracked n).modPos 2 f
def le1 : LatchEntry :=
  { st := { lt := 70000, mark := .lineTime, e := 70000 }, seq := 4, source := .latA, falling := false, reverse := false
    lostBefore := false, group := .value 100 5 false .lineTime }
def le2 : LatchEntry := { le1 with seq := 5, group := .waiting, st := { lt := 130000, mark := .lineTime, e := 130000 } }

/-- A hop entry of client 7 on channel 2 at a raw target, with words 2 and 3. -/
def hop (slot : Nat) (target : Int) (w2 : Word) : HopEntry :=
  { slot := slot, uses := 1, client := .line 7, ch := 2, target := target, w1 := 1000, w2 := w2, w3 := 0, expiry := some 300000
    behind := false }
def onHops (hs : List HopEntry) : State := on fun n => (tracked n).modCore fun k => { k with hops := hs }

/-- `live` with these items set and output 2 out of high impedance holding a fresh code 5; after a change. -/
def onOut (items : List (Nat × Word)) (f : Node → Node) : State := on fun n =>
  f (((tracked n).modCore fun k => { k with params := k.params.putAll items }).modOut 2 fun o =>
    { o with highZ := false, fresh := true, inreg := 5 })

/-- A playback of table 3 on output 2 in pool slot 3. -/
def play (timing : WaveTiming) : Playback :=
  { op := 9, slot := 3, tag := 1, table := 3, outs := [2], trigger := .command, timing := timing, passes := some 1, rearm := false }
def onPlay (t : WaveTable) (q : List Playback) : State := onOut [(pidAt Pid.dacSrc 2, 1)] fun n =>
  n.modCore fun k => { k with waves := { k.waves with tables := k.waves.tables.set 3 t, plays := q,
                                                       mem := [(100, 7), (101, 8), (102, 9)] },
                              pool := [opFor 0x64 [3, 1] 4] }
def table3 (s : TableState) : WaveTable := { state := s, base := 100, len := 3 }

/-- `live` with these items set and a change of the sound-and-heat unit. -/
def onSound (items : List (Nat × Word)) (f : Sound → Sound) : State := on fun n =>
  (tracked n).modCore fun k => { k with params := k.params.putAll items, sound := f k.sound }
def onFan (items : List (Nat × Word)) (f : FanState → FanState) : State := onSound items fun s => { s with fans := s.fans.set true (f (s.fans.get true)) }
/-- A tach that has been present for the latest second. -/
def turning : List Nat := List.replicate 100 124000
/-- A valid duct velocity of path A, in m/s. -/
def duct (v : Int) (s : Sound) : Sound :=
  { s with published := true, paths := s.paths.set false { fitted := true, cOk := true, vOk := true, v := v * fxOne },
           last := { lt := 125000, mark := .lineTime, e := 125000 } }

/-- `live` tracking on channel 2 in this input mode, after a change of its front end. -/
def onFront (mode : Word) (f : Front → Front) : State := on fun n =>
  ((tracked n).modCore fun k => { k with params := k.params.put (pidAt Pid.inMode 2) mode }).modFront 2 f
def calm : ChanInput := { sin := [], cos := [], peakUa := 0, ocHalves := [], sdat := true }
/-- `live` as the board that heads its line. -/
def heading (n : Node) : Node := n.modLine fun l => { l with count := 3, role := .head }

/-- `live` as node 3 of a line of six, after a change of its line state. -/
def onLine (f : Line → Line) : State := on fun n => n.modLine fun l =>
  f { l with role := .middle, linkUp := true, linkDn := true, roleUp := true, roleDn := true, hops := some 3, lock := some (3, 77), count := 6 }
/-- A frame that arrives with hop count 2, in cycle 50. -/
def hd (port : LinePort) (ret : Bool) (e : FrameEnd) : FrameHdr :=
  { port := port, ending := e, ret := ret, fromTail := false, folded := false, tailPresent := false, hop := 2, cycle := 50, cycleUs := 4000 }
/-- `live` as the head of a line of three. -/
def onHead (f : Line → Line) : State := on fun n =>
  (n.modCore fun k => { k with params := k.params.put Pid.lineHeaden 1 }).modLine fun l =>
    f { l with role := .head, linkDn := true, roleDn := true, hops := some 0, count := 3 }

/-- `live`, locked at position 3, with both side-lane links; after a change of its lane state. -/
def onLane (mode : Mode) (f : Lane → Lane) : State := inMode mode fun n =>
  ((n.modCore fun k => { k with params := k.params.putAll [(Pid.tanAllow, 1), (Pid.tanSig, 5)] }).modLine fun l =>
    { l with role := .middle, hops := some 3, lock := some (3, 77), outcome := some 1, rcSig := some 77 }).modLane fun l =>
      f { l with upLink := true, dnLink := true }
def lh (port : LinePort) : LaneHdr := { port := port, seq := 5, crcOk := true }
def cfg4 : Config := { generation := 4, records := [(0x1881, 500)] }
/-- The neighbour's beacon: it holds a shadow of generation 4 of position 3. -/
def bcn : BeaconBody :=
  { lockState := 1, lockPos := 4, signature := 77, generation := 9, crc := 8, autoAdopt := true, shadowPos := 3, shadowSig := 77
    shadowGen := 4, shadowCrc := BitVec.ofNat 32 (configCrc cfg4), shadowValid := true }
def sh4 : Shadow :=
  { ownerPos := 3, ownerSig := 77, generation := 4, crc := BitVec.ofNat 32 (configCrc cfg4), bytes := configBytes cfg4 }
def part4 (off : Nat) (bs : List Byte) (last : Bool) : ShadowPart :=
  { offset := off, bytes := bs, last := last, ownerPos := 3, ownerSig := 77, generation := 4, crc := BitVec.ofNat 32 (configCrc cfg4) }
def freqOf (pos : BitVec 10) (n : Node) : FormRequest :=
  { fusionTick := 500, client := 7, fromHost := false, version := BitVec.ofNat 32 n.version, sig := 5, rateKhz := n.time.rate.khz, position := pos }
def pairOp (oc : BitVec 8) (side : RelaySide) : PoolOp := { opFor oc [] 16 with side := side }

/-! ### Well-formedness: each check refuses an ill-formed term -/

/-- R49: 251 parameter words are refused, 250 are not. -/
theorem test_wf_packet_words :
    (Instr.ping (pk (List.replicate 251 0) 0)).wf = false ∧ (Instr.ping (pk (List.replicate 250 0) 0)).wf = true := by decide +kernel

/-- EXC item 0 and IN item 0x12 are no CASK items; EXC item 7 and IN item 0x3E are. -/
theorem test_wf_cask_items :
    (Instr.caskItemWriteExcited (pk [] 0) { inBlock := false, item := 0 } 0 0).wf = false ∧
      (Instr.caskItemWriteExcited (pk [] 0) { inBlock := true, item := 0x12 } 0 0).wf = false ∧
        (Instr.caskItemWriteExcited (pk [] 0) { inBlock := false, item := 7 } 0 0).wf = true ∧
          (Instr.caskItemWriteExcited (pk [] 0) { inBlock := true, item := 0x3E } 0 0).wf = true := by decide

/-- R406: an outbound row refuses a frame with the return bit, a returning row one without it. -/
theorem test_wf_direction :
    (Instr.cmdFrame (hd .up true .good) [] 0).wf = false ∧ (Instr.retFrame (hd .dn false .good) [] 0).wf = false ∧
      (Instr.cmdFrame (hd .up false .good) [] 0).wf = true ∧ (Instr.retFrame (hd .dn true .good) [] 0).wf = true := by decide

/-- R409: type 6 is a listed frame, type 7 is not. -/
theorem test_wf_unknown_frame :
    (Instr.unknownFrame 6 (hd .up false .good) [] 0).wf = false ∧ (Instr.unknownFrame 7 (hd .up false .good) [] 0).wf = true := by decide

/-- R165: SIN and COS bits come in pairs, at most 2,560 in a tick. -/
theorem test_wf_samples :
    (Instr.frameTick (Quad.all { calm with sin := [true] })).wf = false ∧
      (Instr.frameTick (Quad.all { calm with sin := List.replicate 2561 true, cos := List.replicate 2561 true })).wf = false ∧
        (Instr.frameTick (Quad.all { calm with sin := [true], cos := [false] })).wf = true := by decide +kernel

/-- R166: ratio 16, weights that sum to 16³ over 46 clocks: a stream of ones settles at full scale with the third output. -/
theorem test_sinc3 : (Sinc3.run 16 (List.replicate 64 true) {}).1 = [816, 3536, 4096, 4096] := by decide +kernel

/-- R367, R371: intervals are multiples of 8 ps, and half-waves rise in time. -/
theorem test_wf_shots :
    let shot := fun (a b : Nat) => ({ dn := [[{ peakUv := 1, zcPs := a }, { peakUv := 1, zcPs := b }]], up := [] } : PathShots)
    let none2 : PathShots := { dn := [], up := [] }
    let rtd : RtdShot := { tRef := some 16, tX := some 24 }
    let round := fun (x : PathShots) (r : RtdShot) => Instr.soundRoundPublish { paths := ⟨x, none2⟩, rtds := Quad.all r }
    (round (shot 8 12) rtd).wf = false ∧ (round (shot 16 8) rtd).wf = false ∧ (round none2 { rtd with tX := some 25 }).wf = false ∧
      (round (shot 8 16) rtd).wf = true := by decide

/-- R122, R138: no instant lies after the longest tick, and a stamped one is a whole number of 5 ns. -/
theorem test_wf_instants :
    (Instr.highz 125001).wf = false ∧ (Instr.highz 125000).wf = true ∧ (Instr.clrnFall 7).wf = false ∧ (Instr.clrnFall 10).wf = true := by
  decide

/-- R464, R471, R482: the lengths and numbers of the side-lane and of the timed rows. -/
theorem test_wf_lengths :
    (Instr.tickPacket (List.replicate 15 0)).wf = false ∧ (Instr.tickPacket (List.replicate 16 0)).wf = true ∧
      (Instr.shadowData (lh .up) (part4 0 (List.replicate 241 0) false) 0).wf = false ∧
        (Instr.relay (lh .dn) (pk [] 0) (2 ^ 48) 0).wf = false ∧ (Instr.ssiWord 0 (List.replicate 50 true) 0).wf = false ∧
          (Instr.hopExpiry (2 ^ 24) 0).wf = false ∧ (Instr.waveSampleEntry 4096).wf = false ∧
            (Instr.faultWindowEnd 65536 0 0).wf = false ∧ (Instr.faultWindowEnd 0 256 0).wf = false := by decide +kernel

/-- No row of the table has bits, so no word spells a command. -/
theorem test_decode_none : decodeTableWord 8 0 = none ∧ decodeTableWord 40 0x5507020201 = none := by decide

/-! ### The spec's own worked examples -/

/-- The node after a command. -/
def after (i : Instr) (s : State) : Node :=
  match exec i s with
  | .next t => t.node
  | _ => s.node

/-- The node after a Steep of this trigger with these results, over a store that holds a configuration, with both links present. -/
def afterSteep (tr : SteepTrigger) (r : SteepResults) : Node :=
  after (.steepEnd r 5) (on fun n =>
    let c := { n.core with run := .steep { trigger := tr, start := 0, locked := true } }
    let st := { n.store with configs := ⟨{ generation := 1 }, {}⟩ }
    ({ n with core := c, store := st }).modLine fun l => { l with linkUp := true, linkDn := true })

/-- The status and words of the latest reply to client 7. -/
def answer (n : Node) : Option (BitVec 8 × List Word) := ((n.sentTo (.line 7)).getLast?).map fun r => (r.status, r.words)

/-- The results of a Steep without REF_B in which the excitation loopback of channel 1 fails. -/
def channel1Bad : SteepResults := { goodSteep with refBFitted := false, excDev := (Quad.all 0).set 1 10001 }

/-- Ch. 3 and 17: the Steep words of a clean power-up without REF_B, of a clean STEEP_RUN, and with channel 1 failing. -/
theorem test_steepWord :
    (afterSteep .powerUp { goodSteep with refBFitted := false }).steepWord = 0x0003400000 ∧
      (afterSteep .steepRun { goodSteep with refBFitted := false }).steepWord = 0x1003400000 ∧
        (afterSteep .powerUp channel1Bad).steepWord = 0x8423400020 := by decide +kernel

/-- R93, R94, R97, R102: the bits of a Steep in which a configuration fails its CRC alone, in which step 1 was cut off before the crystal
check ended, in which a failed March test skips a failing loopback, and in which the late detector belongs to an unavailable channel. -/
theorem test_steepBits :
    (let n := (live.modCore fun k => { k with params := k.params.put (pidAt Pid.inMode 1) 1 }).modStore fun s =>
      { s with configs := ⟨{ generation := 2 }, { generation := 1 }⟩ }
     let b := fun (r : SteepResults) (cut : Nat) => n.steepBits { r := r, abandoned := cut, pitched := 0 }
     (b { goodSteep with crcBad := [2] } 0, b { goodSteep with unfinished := [.crystal] } 1,
      b { goodSteep with marchPassed := false, tdcDev := 20000 } 0, b { goodSteep with adcDev := (Quad.all 0).set 1 (-10001), late := [(0x0111, 1, none)] } 0)) =
        (2 ^ 14, 2 ^ 23 + 2 ^ 27, 2 ^ 12, 2) := by decide +kernel

/-- Ch. 3: S40 after the Steep in which channel 1 failed. -/
theorem test_steepS40 : (afterSteep .powerUp channel1Bad).s40 false false = 0x1800020001 := by decide +kernel

/-- Ch. 17: EMU_SET of client 7, tag 0x020, AUTH and mask 0x01 begins 0x5507020201 and holds 39 bytes; READ_POSITION with GREEN_OK, tag
0x021. -/
theorem test_packetHeaders :
    (let p : Packet := { pk [0x21, 1, 0x1000, 0x1000, 0] 1 with opcode := 0x55, tag := 0x20, mac := some 0 }
     let q : Packet := { pk [] 1 with opcode := 0x30, tag := 0x21, greenOk := true }
     (natBE ((packetBytes p).take 5), (packetBytes p).length, natBE ((packetBytes p).drop 5 |>.take 3), natBE ((packetBytes q).take 5)) =
       (0x5507020201, 39, 5, 0x3007021801)) := by decide +kernel

/-- Ch. 2: SET_MODE scheduled at tick 0x3E00 with one word. -/
theorem test_scheduledHeader :
    (let r : Packet := { pk [2] 0 with opcode := 0x10, tag := 0x15, scheduled := true, tick := 0x3E00 }
     (natBE ((packetBytes r).take 5), natBE ((packetBytes r).drop 5 |>.take 3)) = (0x1007015100, 0x3E0001)) := by decide +kernel

/-- Ch. 17: line time 3,600 s as two words, and the VM40 of a green value 52 µs old; ch. 4: the low 16 bits of its tick. -/
theorem test_timeWords :
    [ltHi 3600000000000 0, ltLo 3600000000000, vm40 1 false .lineTime 1 52000] = [3, 301465116672, 0x41000028A0] ∧
      3600000000000 / 62500 % 65536 = 0xE800 := by decide +kernel

/-- A steady channel with a 35 au residual and an acceleration of 0.05 turns/s², 5 turns/s at position 0x3666666, 10 ms in. -/
def steady : Trk :=
  let st := { k2.st with e := 10000000 }
  let k := { k2 with u := 0x3666666, v := 0x5000000, st := st }
  { running := true, valid := true, kilned := 40, rs := [12, 35, 7], kil := some k, basis := { u := 0x3666666, v := 0x5000000, st := st }
    vs := (List.range 32).map fun i => (if i < 16 then 83886080 else 83885241, 10000000 - i * 62500) }

/-- Ch. 17: 52 µs after the basis the green position is 0x3667770 and its bound is 36 au; ch. 7: after 12,010 µs the bound is 96. -/
theorem test_green :
    frontPg live.core.params 0 { trk := steady } 10052000 = 0x3667770 ∧ greenBound live.core.params 0 .resolver steady 10052000 = 36 ∧
      greenBound live.core.params 0 .resolver steady 22010000 = 96 := by decide +kernel

/-- Ch. 12: with RT_0 = 573.58 µs and RT = 399.74 µs node 212 lies 86.92 µs from the head. -/
theorem test_delay :
    (after (.syncFrame (hd .up false .good) { lt := 5000000, rt0 := 573580000, acc := 0, fOut := 640000, fRet := 640000 } 5)
      (onLine fun l => { l with rt := some (399740000, 49) })).line.delay = some (86920000 * fxOne) := by decide +kernel

/-- Ch. 12: the minimum cycle of line 3, a line of 700 with RT_0 = 573.58 µs, is 3,915.72 µs. -/
theorem test_minCycle :
    let nd : RollNode := { hop := 1, outcome := 1, stored := 1, coreDown := false, kept := true, headen := false, dnLink := true, carLen := 50 }
    (onHead fun l => { l with count := 700, rollRt0 := 573580000, roll := List.replicate 699 nd }).node.minCycle 8 512 / 10 = 391572 := by
  decide +kernel

/-- Ch. 9: one tick of node 212's velocity loop. -/
theorem test_velocityLoop :
    (let r := innerLoop (g40ToFx 0x147AE148) (g40ToFx 0x19999999A) (fxRat 62500 1000000000) 0 fxOne (fxRat 1 100) (fxRat 3985 10000)
     (outputCode 0 262143 r.2.1, outputCode 0 262143 (fxRat 8 10)) = (104674, 209714)) := by decide +kernel

/-- Ch. 9: the engine cycles of one velocity slot, and of a follower behind a leader. -/
theorem test_loopBudget :
    (let x : SlotCost := { enabled := true, kind := .velocity, div := 1, phase := 0, ramp := true }
     (costA [x], costB [x] 0) = (400, 850)) ∧
    (let x : SlotCost := { enabled := true, kind := .leader, div := 1, phase := 0, ramp := false }
     let y : SlotCost := { x with kind := .follower }
     (costA [x, y], costB [x, y] 1, costB [y, y] 1) = (1000, 2750, 1950)) := by decide +kernel

/-- Ch. 9: from 5 turns/s at 5 turns/s² and 25 turns/s³ the stopping distance is 3.0 turns. -/
theorem test_stopDistance :
    stopDistance { scurve := true, vmax := 6 * fxOne, amax := 5 * fxOne, dmax := 5 * fxOne, jmax := 25 * fxOne } (5 * fxOne) 0 = 3 * fxOne := by
  decide +kernel

/-- Ch. 15: a reference creeping by 10 ppm per second shows 510 ppm per minute 56 s in. -/
theorem test_creep :
    (creepSums ((List.range 70).map fun (i : Nat) => (max 0 (10 * (56 - (i : Int)) - 5), 0, 0))).1 = 5100 := by decide +kernel

/-- Ch. 11: 3.0 m/s reads 0x30000, and a ratio of 1.1360830625 reads 35 °C. -/
theorem test_soundAndHeat : fxToM40 (3 * fxOne) = 0x30000 ∧ fxToM40 (rtdTemp (fxRat 11360830625 10000000000)) = 0x230000 := by
  decide +kernel

/-- Ch. 8: the HOP_ADD of the diverter on node 213 arms FORWARD, CMP1, PULSE of 150 ms, expiry 5 s. -/
theorem test_hopWords :
    (let h : HopEntry := { hop 3 0 0x801C9C380 with w3 := 0x1388 }
     (h.output, h.dir, fld h.w2 34 33, fld h.w2 27 0 * 5, fld h.w3 23 0) = (1, 0, 0, 150000000, 5000)) := by decide +kernel

/-- Ch. 17: FAN_SET with 0x2BC3 sets both fans FIXED at 70.0 %; TRK.BW reads 250 after Steep. -/
theorem test_fanSet :
    (let n := after (.fanSet (pk [0x2BC3] 0)) (on id)
     [n.core.params.get (pidAt Pid.fanSrc 0), n.core.params.get (pidAt Pid.fanDuty 0), n.core.params.get (pidAt Pid.fanDuty 1),
      n.core.params.get 0x1801] = [0, 700, 700, 250]) := by decide +kernel

/-- Ch. 16: FW_BEGIN 0x618C0000 asks for L = 262,144 and opens transfer 0x0C31. -/
theorem test_fwBegin :
    (after (.fwBegin (pk [0x618C0000] 0)) (inMode .cask id)).core.fw =
      some { client := .line 7, id := 0x0C31, length := 262144, slot := true } := by decide +kernel

/-- Ch. 15: CLEAR_FAULTS of channel 0 with one ceased and one present instance answers 8,193. -/
theorem test_clearFaults :
    answer (after (.clearFaults (pk [0] 1)) (onF fun f => { f with insts :=
      [{ code := .ferr, scope := 0, cls := 2, present := false, injected := false, raised := {}, ctx := 0 },
       { code := .los, scope := 0, cls := 2, present := true, injected := false, raised := {}, ctx := 0 }] })) = some (0, [8193]) := by
  decide +kernel

/-- Ch. 13: DESCRIBE word 2 of the adopted node 212 is 869,588. -/
theorem test_describe :
    ((answer (after (.describe (pk [] 0)) (onLine fun l =>
      { l with lock := some (212, 77), outcome := some 1, rcHops := 212, hops := some 212 }))).map fun x => x.2.getD 2 0) = some 869588 := by
  decide +kernel

/-! ### Witnesses: states and operands that meet the hypotheses of the obligations -/

/-- The hypothesis holds of the state's node. -/
def met (s : State) (h : Node → Bool) : Bool := h s.node

/-- States and operands that meet the hypotheses of `Obligations.PingReturnsItsWords`. -/
theorem witness_PingReturnsItsWords : List.all [
  met (on id) fun n => decide (n.runsNow (asRow .ping (pk [1,2] 0)) = true)] id = true := by
  decide +kernel

/-- States and operands that meet the hypotheses of `Obligations.SessionsOpenAndClose`. -/
theorem witness_SessionsOpenAndClose : List.all [
  met (on id) fun n => decide (n.runsNow (asRow .openSession { pk [3] 0 with client := 9 }) = true ∧
      n.session 9 = none),
  met (on id) fun n => decide (n.runsNow (asRow .openSession (pk [3] 0)) = true ∧ (n.session 7).isSome = true),
  met (on id) fun n => decide (n.runsNow (asRow .closeSession (pk [] 0)) = true),
  met (on fun n => (n.modTime fun t => { t with p0e := 100000000 }).modCore fun k => { k with params := k.params.put Pid.sesTimeout 100 }) fun n =>
      decide (n.power.vcel = true ∧ n.power.cresetn = true ∧ ((n.atT 0).session 7).isSome = true ∧
      (n.atT 0).parN Pid.sesTimeout 0 ≠ 0 ∧ ((n.atT 0).session 7).any (fun x => decide (x.lastNs + (n.atT 0).parN Pid.sesTimeout 0 * 1000000 ≤ (n.atT 0).now)) = true)] id = true := by
  decide +kernel

/-- States and operands that meet the hypotheses of `Obligations.SubscribeChangesTheSet`. -/
theorem witness_SubscribeChangesTheSet : List.all [
  met (on id) fun n => decide (n.runsNow (withBits 0 2 0 (asRow .subscribe (pk [0, 0x701] 0))) = true),
  met (on id) fun n => decide (n.runsNow (withBits 0 2 1 (asRow .subscribe (pk [0, 0x701] 0))) = true),
  met (on id) fun n => decide (n.runsNow (withBits 0 2 2 (asRow .subscribe (pk [0, 0x701] 0))) = true),
  met (on id) fun n => decide (n.runsNow (withBits 0 2 3 (asRow .subscribe (pk [0] 0))) = true)] id = true := by
  decide +kernel

/-- States and operands that meet the hypotheses of `Obligations.ReplayAndDescribe`. -/
theorem witness_ReplayAndDescribe : List.all [
  met ((on fun n => n.setClient { client := .line 7, cache := [{ tag := 5, pkts := [{ opcode := 0, client := 7, tag := 5, status := 0, tick := 0, words := [] }] }] })) fun n =>
      decide (n.runsNow (withBits 12 1 0 (asRow .replay (pk [5] 0))) = true ∧ (((n.clientRec (.line 7)).cache.find? fun x => x.tag.toNat == 5).isSome = true)),
  met ((on fun n => n.setClient { client := .line 7, cache := [{ tag := 5, pkts := [{ opcode := 0, client := 7, tag := 5, status := 0, tick := 0, words := [] }] }] })) fun n =>
      decide (n.runsNow (withBits 12 1 1 (asRow .replay (pk [0] 0))) = true),
  met (on id) fun n => decide (n.runsNow (asRow .describe (pk [] 0)) = true)] id = true := by
  decide +kernel

/-- States and operands that meet the hypotheses of `Obligations.KeySetChangesTheKey`. -/
theorem witness_KeySetChangesTheKey : List.all [
  met (on id) fun n => decide (n.runsNow (withBits 0 1 0 (asRow .keySet { pk [0, 1, 2, 3, 4] 0 with port := .host })) = true),
  met (on id) fun n => decide (n.runsNow (withBits 0 1 1 (asRow .keySet { pk [0] 0 with port := .host })) = true)] id = true := by
  decide +kernel

/-- States and operands that meet the hypotheses of `Obligations.SetModeChangesTheMode`. -/
theorem witness_SetModeChangesTheMode : List.all [
  met (on id) fun n => decide (n.runsNow (withBits 0 2 0 (asRow .setMode (pk [0] 0))) = true ∧
      n.core.mode ≠ .cask),
  met (inMode .cask id) fun n => decide (n.runsNow (withBits 0 2 1 (asRow .setMode (pk [0] 0))) = true ∧
      n.core.mode = .cask ∧ n.lockState ≠ 2 ∧ n.core.faults.topClass ≠ 3),
  met (inMode .drive id) fun n => decide (n.runsNow (withBits 0 2 1 (asRow .setMode (pk [0] 0))) = true ∧
      n.core.mode = .drive ∧ n.core.rests = [] ∧ n.enabledChs = []),
  met (on fun n => n.modSlot 0 fun s => { s with enabled := true, owner := some 7 }) fun n =>
      decide (n.runsNow (withBits 0 2 2 (asRow .setMode (pk [0] 0))) = true ∧ n.core.mode = .track ∧
      n.ownsAll (.line 7) = true ∧ n.enabledChs.any n.hasClass2 = false ∧ n.admissionNow = none ∧
      n.enabledChs ≠ [])] id = true := by
  decide +kernel

/-- States and operands that meet the hypotheses of `Obligations.SteepRunStartsSteep`. -/
theorem witness_SteepRunStartsSteep : List.all [
  met (inMode .cask id) fun n => decide (n.runsNow (asRow .steepRun (pk [] 0)) = true ∧
      n.mayRun = true)] id = true := by
  decide +kernel

/-- States and operands that meet the hypotheses of `Obligations.StatusReturnsS40`. -/
theorem witness_StatusReturnsS40 : List.all [
  met (on fun n => n.setClient { client := .line 7, refuted := true }) fun n => decide (n.runsNow (asRow .status (pk [] 0)) = true)] id = true := by
  decide +kernel

/-- States and operands that meet the hypotheses of `Obligations.TransitionsWithoutACommand`. -/
theorem witness_TransitionsWithoutACommand : List.all [
  met (inMode .cask fun n => n.modCore fun k => { k with auto := .due }) fun n => decide (n.up = true ∧
      n.core.auto = .due ∧ n.core.mode = .cask ∧ n.core.faults.topClass ≠ 3),
  met (on fun n => n.modCore fun k => { k with trackEntry := some { op := none, waiting := [0, 3], ends := 0 } }) fun n =>
      decide (n.up = true ∧ n.core.trackEntry.any (fun e => decide (e.ends ≤ (n.atT 0).now)) = true)] id = true := by
  decide +kernel

/-- States and operands that meet the hypotheses of `Obligations.SuppliesAndResets`. -/
theorem witness_SuppliesAndResets : List.all [
  met (State.reset) fun n => decide (n.power.vcel = false),
  met (on id) fun n => decide (n.power.vcel = true),
  met ({ node := { State.reset.node with power := { State.reset.node.power with vcel := true } }, pending := [] }) fun n =>
      decide (n.power.vcel = true ∧ n.power.cresetn = true ∧ n.power.resetn = true ∧
      n.power.railsGood = false ∧ n.core.run = .held ∧ [0, 2, 3].contains n.power.tapIr = false),
  met (on id) fun n => decide (n.power.vcel = true ∧ n.power.cresetn = true ∧ n.power.railsGood = true),
  met (on id) fun n => decide (n.power.vcel = true ∧ n.power.cresetn = true),
  met (on fun n => { n with power := { n.power with resetn := false } }) fun n => decide (n.power.resetn = false),
  met (on id) fun n => decide (n.power.cresetn = true),
  met (on fun n => { n with power := { n.power with cresetn := false } }) fun n => decide (n.power.cresetn = false)] id = true := by
  decide +kernel

/-- States and operands that meet the hypotheses of `Obligations.SteepSteps`. -/
theorem witness_SteepSteps : List.all [
  met (on id) fun n => decide (n.up = true ∧ n.mayRun = true),
  met ((on fun n => n.modCore fun k => { k with run := .steep { trigger := .powerUp, start := 0, locked := true } })) fun n =>
      decide (n.power.vcel = true ∧ n.power.cresetn = true ∧ n.core.run = .steep { trigger := .powerUp, start := 0, locked := true }),
  met ((on fun n => n.modCore fun k => { k with run := .steep { trigger := .powerUp, start := 0, locked := true } })) fun n =>
      decide (n.core.run = .steep { trigger := .powerUp, start := 0, locked := true }),
  met ((on fun n => n.modCore fun k => { k with run := .steep { trigger := .powerUp, start := 0, locked := true } })) fun n =>
      decide (n.power.vcel = true ∧ n.power.cresetn = true ∧ n.core.run = .steep { trigger := .powerUp, start := 0, locked := true } ∧
      n.core.faults.points = [] ∧ ((n.storeDamage goodGround).loadWorking goodGround).steepBits goodGround &&& steepLocking = 0)] id = true := by
  decide +kernel

/-- States and operands that meet the hypotheses of `Obligations.ClrnClearsOutputs`. -/
theorem witness_ClrnClearsOutputs : List.all [
  met (on id) fun n => decide (n.up = true ∧ (n.atT 1).parN Pid.dacClren 0 = 1),
  met (on fun n => { n.modOut 0 fun o => { o with cleared := true } with power := { n.power with clrn := false } }) fun n =>
      decide (n.up = true ∧ (n.core.outs.get 0).cleared = true)] id = true := by
  decide +kernel

/-- States and operands that meet the hypotheses of `Obligations.TapInstructions`. -/
theorem witness_TapInstructions : List.all [
  met (on id) fun n => decide (n.power.vcel = true ∧ n.power.cresetn = true),
  met (on id) fun n => decide ([0, 2, 3].contains n.power.tapIr = false),
  met (on fun n => { n.modCore (fun k => { k with run := .held }) with power := { n.power with tapIr := 2 } }) fun n =>
      decide ([0, 2, 3].contains n.power.tapIr = true ∧ n.power.vcel = true ∧ n.power.resetn = true ∧
      n.power.cresetn = true ∧ n.power.railsGood = true)] id = true := by
  decide +kernel

/-- States and operands that meet the hypotheses of `Obligations.ParamReadReturnsTheValues`. -/
theorem witness_ParamReadReturnsTheValues : List.all [
  met (on id) fun n => decide (n.runsNow (asRow .paramRead (pk [0x4801, 0x1009] 0)) = true)] id = true := by
  decide +kernel

/-- States and operands that meet the hypotheses of `Obligations.ItemWritesChangeTheWorkingSet`, part 1. -/
theorem witness_ItemWritesChangeTheWorkingSet_parta : List.all [
  met (on id) fun n => decide (n.runsNow (asRow .paramWrite (pk [0x4809, 1] 0)) = true ∧
      (n.atCommit (asRow .paramWrite (pk [0x4809, 1] 0))).judgeItems (senderOf (asRow .paramWrite (pk [0x4809, 1] 0))) (n.localItems (asRow .paramWrite (pk [0x4809, 1] 0))) = none ∧
      (n.localItems (asRow .paramWrite (pk [0x4809, 1] 0))).all (fun e => e.1 != Pid.tickRate) = true),
  met (inMode .cask id) fun n => decide (n.runsNow (asRow .soundConfig (pk [0x3C01, 1, 0x3C20, 0x1EB8] 0)) = true ∧
      (n.atCommit (asRow .soundConfig (pk [0x3C01, 1, 0x3C20, 0x1EB8] 0))).judgeItems (senderOf (asRow .soundConfig (pk [0x3C01, 1, 0x3C20, 0x1EB8] 0))) (n.localItems (asRow .soundConfig (pk [0x3C01, 1, 0x3C20, 0x1EB8] 0))) = none ∧
      (n.localItems (asRow .soundConfig (pk [0x3C01, 1, 0x3C20, 0x1EB8] 0))).all (fun e => e.1 != Pid.tickRate) = true),
  met (inMode .cask id) fun n => decide (n.runsNow (writeOf (pk [] 0) (Pid.tickOutat) 40000) = true ∧
      (n.atCommit (writeOf (pk [] 0) (Pid.tickOutat) 40000)).judgeItems (senderOf (writeOf (pk [] 0) (Pid.tickOutat) 40000)) (n.localItems (writeOf (pk [] 0) (Pid.tickOutat) 40000)) = none ∧
      (n.localItems (writeOf (pk [] 0) (Pid.tickOutat) 40000)).all (fun e => e.1 != Pid.tickRate) = true),
  met (on id) fun n => decide (n.runsNow (writeOf (pk [] 0) (Pid.nodeCaskexc) 1) = true ∧
      (n.atCommit (writeOf (pk [] 0) (Pid.nodeCaskexc) 1)).judgeItems (senderOf (writeOf (pk [] 0) (Pid.nodeCaskexc) 1)) (n.localItems (writeOf (pk [] 0) (Pid.nodeCaskexc) 1)) = none ∧
      (n.localItems (writeOf (pk [] 0) (Pid.nodeCaskexc) 1)).all (fun e => e.1 != Pid.tickRate) = true),
  met (inMode .cask id) fun n => decide (n.runsNow (writeOf (pk [] 0) (pidAt (0x04 * 1024 + 1) 3) 4000) = true ∧
      (n.atCommit (writeOf (pk [] 0) (pidAt (0x04 * 1024 + 1) 3) 4000)).judgeItems (senderOf (writeOf (pk [] 0) (pidAt (0x04 * 1024 + 1) 3) 4000)) (n.localItems (writeOf (pk [] 0) (pidAt (0x04 * 1024 + 1) 3) 4000)) = none ∧
      (n.localItems (writeOf (pk [] 0) (pidAt (0x04 * 1024 + 1) 3) 4000)).all (fun e => e.1 != Pid.tickRate) = true),
  met (on id) fun n => decide (n.runsNow (writeOf (pk [] 0) (pidAt Pid.posOffset 3) 5) = true ∧
      (n.atCommit (writeOf (pk [] 0) (pidAt Pid.posOffset 3) 5)).judgeItems (senderOf (writeOf (pk [] 0) (pidAt Pid.posOffset 3) 5)) (n.localItems (writeOf (pk [] 0) (pidAt Pid.posOffset 3) 5)) = none ∧
      (n.localItems (writeOf (pk [] 0) (pidAt Pid.posOffset 3) 5)).all (fun e => e.1 != Pid.tickRate) = true),
  met (on id) fun n => decide (n.runsNow (writeOf (pk [] 0) (pidAt Pid.dacSrc 3) 2) = true ∧
      (n.atCommit (writeOf (pk [] 0) (pidAt Pid.dacSrc 3) 2)).judgeItems (senderOf (writeOf (pk [] 0) (pidAt Pid.dacSrc 3) 2)) (n.localItems (writeOf (pk [] 0) (pidAt Pid.dacSrc 3) 2)) = none ∧
      (n.localItems (writeOf (pk [] 0) (pidAt Pid.dacSrc 3) 2)).all (fun e => e.1 != Pid.tickRate) = true),
  met (on id) fun n => decide (n.runsNow (writeOf (pk [] 0) (pidAt Pid.dacClren 3) 0) = true ∧
      (n.atCommit (writeOf (pk [] 0) (pidAt Pid.dacClren 3) 0)).judgeItems (senderOf (writeOf (pk [] 0) (pidAt Pid.dacClren 3) 0)) (n.localItems (writeOf (pk [] 0) (pidAt Pid.dacClren 3) 0)) = none ∧
      (n.localItems (writeOf (pk [] 0) (pidAt Pid.dacClren 3) 0)).all (fun e => e.1 != Pid.tickRate) = true),
  met (on id) fun n => decide (n.runsNow (writeOf (pk [] 0) (pidAt Pid.dacClrcode 3) 5) = true ∧
      (n.atCommit (writeOf (pk [] 0) (pidAt Pid.dacClrcode 3) 5)).judgeItems (senderOf (writeOf (pk [] 0) (pidAt Pid.dacClrcode 3) 5)) (n.localItems (writeOf (pk [] 0) (pidAt Pid.dacClrcode 3) 5)) = none ∧
      (n.localItems (writeOf (pk [] 0) (pidAt Pid.dacClrcode 3) 5)).all (fun e => e.1 != Pid.tickRate) = true),
  met (inMode .cask fun n => { n with power := { n.power with avddh := 15000, avss := -15000 } }) fun n =>
      decide (n.runsNow (writeOf (pk [] 0) (pidAt Pid.dacRange 3) 1) = true ∧ (n.atCommit (writeOf (pk [] 0) (pidAt Pid.dacRange 3) 1)).judgeItems (senderOf (writeOf (pk [] 0) (pidAt Pid.dacRange 3) 1)) (n.localItems (writeOf (pk [] 0) (pidAt Pid.dacRange 3) 1)) = none ∧
      (n.localItems (writeOf (pk [] 0) (pidAt Pid.dacRange 3) 1)).all (fun e => e.1 != Pid.tickRate) = true),
  met (inMode .cask id) fun n => decide (n.runsNow (writeOf (pk [] 0) (Pid.refTsel) 1) = true ∧
      (n.atCommit (writeOf (pk [] 0) (Pid.refTsel) 1)).judgeItems (senderOf (writeOf (pk [] 0) (Pid.refTsel) 1)) (n.localItems (writeOf (pk [] 0) (Pid.refTsel) 1)) = none ∧
      (n.localItems (writeOf (pk [] 0) (Pid.refTsel) 1)).all (fun e => e.1 != Pid.tickRate) = true),
  met (inMode .cask id) fun n => decide (n.runsNow (writeOf (pk [] 0) (Pid.lineCycle) 8000000) = true ∧
      (n.atCommit (writeOf (pk [] 0) (Pid.lineCycle) 8000000)).judgeItems (senderOf (writeOf (pk [] 0) (Pid.lineCycle) 8000000)) (n.localItems (writeOf (pk [] 0) (Pid.lineCycle) 8000000)) = none ∧
      (n.localItems (writeOf (pk [] 0) (Pid.lineCycle) 8000000)).all (fun e => e.1 != Pid.tickRate) = true)] id = true := by
  decide +kernel

/-- States and operands that meet the hypotheses of `Obligations.ItemWritesChangeTheWorkingSet`, part 2. -/
theorem witness_ItemWritesChangeTheWorkingSet_partb : List.all [
  met (on id) fun n => decide (n.runsNow (writeOf (pk [] 0) (recordItemId .replyq) 240) = true ∧
      (n.atCommit (writeOf (pk [] 0) (recordItemId .replyq) 240)).judgeItems (senderOf (writeOf (pk [] 0) (recordItemId .replyq) 240)) (n.localItems (writeOf (pk [] 0) (recordItemId .replyq) 240)) = none ∧
      (n.localItems (writeOf (pk [] 0) (recordItemId .replyq) 240)).all (fun e => e.1 != Pid.tickRate) = true),
  met (on id) fun n => decide (n.runsNow (asRow .setLimits (pk [1000000, 1000000, 1000000, 100000000] 8)) = true ∧
      (n.atCommit (asRow .setLimits (pk [1000000, 1000000, 1000000, 100000000] 8))).judgeItems (senderOf (asRow .setLimits (pk [1000000, 1000000, 1000000, 100000000] 8))) (n.opItemsAll .setLimits (asRow .setLimits (pk [1000000, 1000000, 1000000, 100000000] 8))) = none),
  met (on id) fun n => decide (n.runsNow (asRow .gainSet (pk [1, 2, 3, 4] 8)) = true ∧
      (n.atCommit (asRow .gainSet (pk [1, 2, 3, 4] 8))).judgeItems (senderOf (asRow .gainSet (pk [1, 2, 3, 4] 8))) (n.opItemsAll .gainSet (asRow .gainSet (pk [1, 2, 3, 4] 8))) = none),
  met (inMode .cask id) fun n => decide (n.runsNow (asRow .emuSet (pk [0x21, 1, 0x1000, 0x1000, 0] 1)) = true ∧
      (n.atCommit (asRow .emuSet (pk [0x21, 1, 0x1000, 0x1000, 0] 1))).judgeItems (senderOf (asRow .emuSet (pk [0x21, 1, 0x1000, 0x1000, 0] 1))) (n.opItemsAll .emuSet (asRow .emuSet (pk [0x21, 1, 0x1000, 0x1000, 0] 1))) = none),
  met (inMode .cask fun n => { n with power := { n.power with avddh := 15000, avss := -15000 } }) fun n =>
      decide (n.runsNow (asRow .dacConfig (pk [1, 1, 0, 0] 8)) = true ∧ (n.atCommit (asRow .dacConfig (pk [1, 1, 0, 0] 8))).judgeItems (senderOf (asRow .dacConfig (pk [1, 1, 0, 0] 8))) (n.opItemsAll .dacConfig (asRow .dacConfig (pk [1, 1, 0, 0] 8))) = none),
  met (on id) fun n => decide (n.runsNow (asRow .paramWrite (pk [0x4809, 1, 0x3401, 1] 0)) = true ∧
      ((n.atCommit (asRow .paramWrite (pk [0x4809, 1, 0x3401, 1] 0))).judgeItems (.line 7) (n.localItems (asRow .paramWrite (pk [0x4809, 1, 0x3401, 1] 0)))).isSome = true)] id = true := by
  decide +kernel

/-- States and operands that meet the hypotheses of `Obligations.RefusedWritesWriteNothing`. -/
theorem witness_RefusedWritesWriteNothing : List.all [
  met (on id) fun n => decide (n.runsNow (asRow .paramWrite (pk [0x4809, 1] 0)) = true ∧
      (n.atCommit (asRow .paramWrite (pk [0x4809, 1] 0))).judgeItems (senderOf (asRow .paramWrite (pk [0x4809, 1] 0))) (n.localItems (asRow .paramWrite (pk [0x4809, 1] 0))) = none ∧
      (n.localItems (asRow .paramWrite (pk [0x4809, 1] 0))).all (fun e => e.1 != Pid.tickRate) = true),
  met (on id) fun n => decide (n.runsNow (asRow .paramWrite (pk [0x4809, 1, 0x3401, 1] 0)) = true ∧
      ((n.atCommit (asRow .paramWrite (pk [0x4809, 1, 0x3401, 1] 0))).judgeItems (.line 7) (n.localItems (asRow .paramWrite (pk [0x4809, 1, 0x3401, 1] 0)))).isSome = true)] id = true := by
  decide +kernel

/-- States and operands that meet the hypotheses of `Obligations.TickRateChanges`. -/
theorem witness_TickRateChanges : List.all [
  met (inMode .cask id) fun n => decide (n.runsNow (writeOf (pk [] 0) Pid.tickRate 8) = true ∧
      (n.atCommit (writeOf (pk [] 0) Pid.tickRate 8)).judgeItems (.line 7) (n.localItems (writeOf (pk [] 0) Pid.tickRate 8)) = none ∧
      n.time.lt % TickRate.k8.ns = 0 ∧ n.time.lt % n.tick = 0),
  met (inMode .cask fun n => n.modTime fun t => { t with lt := 62500, k48 := 1 }) fun n => decide (n.runsNow (writeOf (pk [] 0) Pid.tickRate 8) = true ∧
      (n.atCommit (writeOf (pk [] 0) Pid.tickRate 8)).judgeItems (.line 7) (n.localItems (writeOf (pk [] 0) Pid.tickRate 8)) = none ∧
      ¬ (n.time.lt % TickRate.k8.ns = 0)),
  met (inMode .cask fun n => n.modTime fun t => { t with lt := 125000, k48 := 2, pendingRate := some (.k8, none, 0, false) }) fun n =>
      decide (n.up = true ∧ n.time.pendingRate = some (.k8, none, 0, false) ∧ n.time.lt % TickRate.k8.ns = 0 ∧
      n.time.lt % n.tick = 0 ∧ n.time.nextRate = none),
  met (inMode .cask fun n => n.modTime fun t => { t with rate := .k32, lt := 62500, k48 := 2, pendingRate := some (.k16, none, 0, true), nextRate := some (.k8, 100000) }) fun n =>
      decide (n.up = true ∧ n.time.pendingRate = some (.k16, none, 0, true) ∧ n.time.lt % TickRate.k16.ns = 0 ∧
      n.time.lt % n.tick = 0 ∧ n.time.nextRate = some (.k8, 100000) ∧ n.time.lt % TickRate.k8.ns ≠ 0),
  met (inMode .cask fun n => n.modTime fun t => { t with lt := 62500, k48 := 1, pendingRate := some (.k8, none, 0, false) }) fun n =>
      decide (n.up = true ∧ n.time.pendingRate = some (.k8, none, 0, false) ∧ ¬ (n.time.lt % TickRate.k8.ns = 0 ∧ n.time.lt % n.tick = 0)),
  met (inMode .cask id) fun n => decide (n.up = true ∧ n.time.pendingRate = none)] id = true := by
  decide +kernel

/-- States and operands that meet the hypotheses of `Obligations.ConfigurationsAreSavedAndRestored`. -/
theorem witness_ConfigurationsAreSavedAndRestored : List.all [
  met (on id) fun n => decide (n.runsNow (asRow .paramSave (pk [] 0)) = true ∧ n.store.configBusy = false),
  met (inMode .cask fun n => n.modStore fun s => { s with configs := ⟨{ generation := 2, records := [] }, { generation := 1, records := [(0x4809, 1)] }⟩ }) fun n =>
      decide (n.runsNow (asRow .paramRestore (pk [] 0)) = true ∧ n.store.configBusy = false ∧
      n.store.previous.generation ≠ 0),
  met (inMode .cask fun n => n.modCore fun k => { k with params := k.params.put Pid.tickSyncmode 1 }) fun n =>
      decide (n.runsNow (asRow .paramDefaults (pk [] 0)) = true ∧ n.time.pendingRate = none ∧
      n.time.rate = .k16 ∧ n.core.params.wf = true)] id = true := by
  decide +kernel

/-- States and operands that meet the hypotheses of `Obligations.TimeCommands`. -/
theorem witness_TimeCommands : List.all [
  met (on id) fun n => decide (n.runsNow (asRow .tickRealign (pk [] 0)) = true),
  met (on id) fun n => decide (n.runsNow (asRow .timeRead (pk [] 0)) = true),
  met (on id) fun n => decide (n.runsNow (asRow .tickStats (pk [] 0)) = true)] id = true := by
  decide +kernel

/-- States and operands that meet the hypotheses of `Obligations.SyncinRealigns`. -/
theorem witness_SyncinRealigns : List.all [
  met ((on fun n => n.modCore fun k => { k with params := k.params.put Pid.tickSyncmode 2 })) fun n =>
      decide (n.power.vcel = true ∧ n.power.cresetn = true),
  met ((on fun n => n.modCore fun k => { k with params := k.params.put Pid.tickSyncmode 0 })) fun n =>
      decide ((n.atT 5).parN Pid.tickSyncmode 0 = 0),
  met ((on fun n => n.modCore fun k => { k with params := k.params.put Pid.tickSyncmode 1 })) fun n =>
      decide ((n.atT 5).parN Pid.tickSyncmode 0 = 1),
  met ((on fun n => n.modCore fun k => { k with params := k.params.put Pid.tickSyncmode 2 })) fun n =>
      decide (2 ≤ (n.atT 5).parN Pid.tickSyncmode 0 ∧ (n.atT 5).time.mark ≠ .lineTime ∧
      (n.atT 5).alignTooSoon = false),
  met (on fun n => n.modTime fun t => { t with p0e := 62500, lt := 62500, k48 := 1, alignDue := some 70000 }) fun n =>
      decide (n.power.vcel = true ∧ n.power.cresetn = true ∧ n.time.alignDue = some 70000 ∧
      n.time.p0e < 70000 ∧ 70000 ≤ n.time.p0e + 60000 ∧ n.time.lt + (70000 - n.time.p0e) + n.tick ≤ 2 ^ 64 ∧ n.time.mark ≠ .lineTime)] id = true := by
  decide +kernel

/-- States and operands that meet the hypotheses of `Obligations.TimeCorrections`. -/
theorem witness_TimeCorrections : List.all [
  met (on fun n => n.modTime fun t => { t with slewing := true, offsetPs := -4999, returning := true, mark := .localTime }) fun n =>
      decide (n.time.slewing = true ∧ n.time.offsetPs.natAbs < 5000),
  met (on fun n => n.modTime fun t => { t with p0e := 312500, lt := 312500, k48 := 5, stepDue := some (-300000) }) fun n =>
      decide (n.time.stepDue = some (-300000) ∧ (0 : Int) ≤ n.lt + (-300000) ∧ (n.lt : Int) + (-300000) + n.tick ≤ 2 ^ 64),
  met (on fun n => n.modTime fun t => { t with p0e := 312500, lt := 312500, k48 := 5, stepDue := some (1000000) }) fun n =>
      decide (n.time.stepDue = some (1000000) ∧ (0 : Int) ≤ n.lt + (1000000) ∧ (n.lt : Int) + (1000000) + n.tick ≤ 2 ^ 64),
  met (on fun n => n.modTime fun t => { t with p0e := 100000000000, lastSync := some 0, mark := .lineTime, slewing := true }) fun n =>
      decide (n.time.lastSync = some 0 ∧ (n.atT 5).parN Pid.refThold 0 ≤ (n.atT 5).now),
  met (on fun n => n.modTime fun t => { t with fallbackDue := true, mark := .lineTime }) fun n =>
      decide (n.time.fallbackDue = true)] id = true := by
  decide +kernel

/-- States and operands that meet the hypotheses of `Obligations.DriftIsJudged`. -/
theorem witness_DriftIsJudged : List.all [
  met (on fun n => n.modTime fun t => { t with windowOpen := some (0, 0), lineAt := some (1000000100, 5) }) fun n => decide (n.time.windowOpen = some (0, 0) ∧
      n.time.lineAt = some (1000000100, (n.atT 5).now) ∧ 0 ≤ ltDiff 1000000100 0 ∧
      n.core.faults.points = [] ∧ n.time.fallback = false ∧ n.up = true),
  met (on id) fun n => decide (n.time.windowOpen = none ∧ n.up = true),
  met (on id) fun n => decide (n.time.windowOpen = none)] id = true := by
  decide +kernel

/-- States and operands that meet the hypotheses of `Obligations.FaultCommands`. -/
theorem witness_FaultCommands : List.all [
  met (onF fun f => { f with insts := [{ code := .lineCrc, scope := 0xFF, cls := 1, present := false, injected := false, raised := {}, ctx := 0 }, { code := .ferr, scope := 1, cls := 2, present := true, injected := false, raised := {}, ctx := 0 }] }) fun n =>
      decide (n.runsNow (asRow .clearFaults (pk [0x10000] 0)) = true ∧ (n.core.faults.insts.filter fun i => n.clearIncludes (asRow .clearFaults (pk [0x10000] 0)) i && n.clearable i).length = 1),
  met (onF fun f => { f with insts := [{ code := .lineCrc, scope := 0xFF, cls := 1, present := false, injected := false, raised := {}, ctx := 0 }, { code := .ferr, scope := 1, cls := 2, present := true, injected := false, raised := {}, ctx := 0 }] }) fun n =>
      decide (n.runsNow (asRow .faultRead (pk [] 0)) = true),
  met (on id) fun n => decide (n.runsNow (asRow .faultLog (pk [0x100] 0)) = true),
  met (on id) fun n => decide (n.runsNow (asRow .pitchArm (pk [0x111 + 0 * 2 ^ 24, 0 + 5 * 2 ^ 16] 0)) = true ∧
      FaultCode.ofCode 0x111 = some .los ∧ n.core.faults.points.length < 8 ∧ n.pitchApplies .los (n.localScope .los 0) = true),
  met (on id) fun n => decide (n.runsNow (asRow .pitchArm (pk [0x111 + 1 * 2 ^ 24, 3 + 5 * 2 ^ 16] 0)) = true ∧
      FaultCode.ofCode 0x111 = some .los ∧ n.core.faults.points.length < 8 ∧ n.pitchApplies .los (n.localScope .los 0) = true),
  met (on id) fun n => decide (n.runsNow (asRow .pitchArm (pk [0x111 + 2 * 2 ^ 24, 0 + 5 * 2 ^ 16] 0)) = true ∧
      FaultCode.ofCode 0x111 = some .los ∧ n.core.faults.points.length < 8 ∧ n.pitchApplies .los (n.localScope .los 0) = true),
  met (onF fun f => { f with points := [{ handle := 0, code := .los, scope := 0, left := none, count := 0, due := 0 }, { handle := 1, code := .dos, scope := 0, left := none, count := 0, due := 0 }] }) fun n =>
      decide (n.runsNow (asRow .pitchDisarm (pk [1] 0)) = true)] id = true := by
  decide +kernel

/-- States and operands that meet the hypotheses of `Obligations.VerdictsAreDelivered`. -/
theorem witness_VerdictsAreDelivered : List.all [
  met (onF fun f => { f with verdicts := [{ code := .lineCrc, cls := 1, scope := 0xFF, ctx := 5, injected := false }] }) fun n =>
      decide (n.up = true ∧ n.core.faults.verdicts.length = 1 ∧ n.core.rests = [] ∧
      n.inst .lineCrc 0xFF = none),
  met (onF fun f => { f with verdicts := [{ code := .rtdOpen, cls := 1, scope := 2, ctx := 5, injected := false }] }) fun n =>
      decide (n.up = true ∧ n.core.faults.verdicts.length = 1 ∧ n.core.rests = [] ∧
      n.inst .rtdOpen 2 = none),
  met (onF fun f => { f with verdicts := [{ code := .overtemp, cls := 3, scope := 0xFF, ctx := 5, injected := false }] }) fun n =>
      decide (n.up = true ∧ n.core.faults.verdicts.length = 1 ∧ n.core.rests = [] ∧
      n.inst .overtemp 0xFF = none),
  met (inMode .drive fun n => ((n.modSlot 1 fun s => { s with enabled := true }).modCore fun k => { k with params := k.params.put (pidAt Pid.fltAction 1) 1 }).modFaults fun f => { f with verdicts := [{ code := .ferr, cls := 2, scope := 1, ctx := 5, injected := false }] }) fun n =>
      decide (n.up = true ∧ n.core.faults.verdicts.length = 1 ∧ n.core.rests = [] ∧
      n.inst .ferr 1 = none ∧ n.slotRunning 1 = true ∧ n.fltAction 1 = .park),
  met (onF fun f => { f with windows := [{ code := .los, scope := 2, ends := 100, count := 0, ctx := 9 }] }) fun n =>
      decide (n.up = true ∧ (100 : Nat) ≤ (n.atT 100).now),
  met (onF fun f => { f with windows := [{ code := .los, scope := 2, ends := 100, count := 3, ctx := 9 }] }) fun n =>
      decide (n.up = true ∧ (100 : Nat) ≤ (n.atT 100).now),
  met (onF fun f => { f with log := [(({ entry := { code := .los, scope := 0, cls := 1, raised := false, injected := false, kind := 0, mark := .localTime, lt := 0, occurrences := 1, ctx := 0 }, formed := 0 } : PendingLog))] }) fun n =>
      decide (n.up = true ∧ n.isActive .logWrite 0xFF = false)] id = true := by
  decide +kernel

/-- States and operands that meet the hypotheses of `Obligations.TemperatureAndScrubs`. -/
theorem witness_TemperatureAndScrubs : List.all [
  met (onF fun f => { f with tjHot := 1 }) fun n => decide (n.up = true ∧ n.core.faults.points = [] ∧
      125 * 65536 < (wN (126 * 65536)).toInt),
  met (onF fun f => { f with insts := [{ code := .overtemp, scope := 0xFF, cls := 1, present := true, injected := false, raised := {}, ctx := 0 }] }) fun n =>
      decide (n.up = true ∧ (wN (20 * 65536)).toInt < n.par Pid.fltTjwarn 0 - 5 * 65536),
  met (on id) fun n => decide (n.up = true ∧ n.core.faults.points = [])] id = true := by
  decide +kernel

/-- States and operands that meet the hypotheses of `Obligations.ReferencesAreJudged`. -/
theorem witness_ReferencesAreJudged : List.all [
  met (onF fun f => { f with refs := { f.refs with fitted := true, faultWindows := 1 } }) fun n =>
      decide (n.up = true ∧ n.core.faults.points = [] ∧ n.core.faults.refs.fitted = true),
  met (onF fun f => { f with refs := { f.refs with switchTo := f.refs.switchTo.set 1 (some true) } }) fun n =>
      decide (n.up = true ∧ n.core.params.wf = true ∧ n.core.faults.refs.switchTo.get 1 = some true ∧
      n.inGroup false 1 = true ∧ n.inGroup true 1 = false),
  met (onF fun f => { f with refs := { f.refs with switchTo := f.refs.switchTo.set 1 (some true) } }) fun n =>
      decide (n.up = true ∧ n.core.params.wf = true ∧ n.core.faults.refs.switchTo.get 1 = some true ∧
      n.inGroup true 1 = false),
  met (onF fun f => { f with refs := { f.refs with fitted := true, closed := 70, hist := (List.range 70).map fun (i : Nat) => ((i : Int), 2 * (i : Int), -(i : Int)) } }) fun n =>
      decide (n.runsNow (asRow .refStatus (pk [] 0)) = true ∧ 70 ≤ n.core.faults.refs.closed),
  met (on id) fun n => decide (n.runsNow (asRow .refStatus (pk [] 0)) = true ∧ n.core.faults.refs.closed < 70)] id = true := by
  decide +kernel

/-- States and operands that meet the hypotheses of `Obligations.PositionCommands`, part 1. -/
theorem witness_PositionCommands_parta : List.all [
  met (onTrk id) fun n => decide (n.runsNow (asRow .readPosition ({ pk [] 4 with greenOk := false })) = true),
  met (onTrk id) fun n => decide (n.runsNow (asRow .readPosition ({ pk [] 4 with greenOk := true })) = true),
  met (onTrk id) fun n => decide (n.runsNow (asRow .setPosition (pk [5000] 4)) = true ∧
      n.slotRunning 2 = false ∧ n.kilned 2 = some k2 ∧ n.core.params.wf = true ∧ n.chan (asRow .setPosition (pk [5000] 4)) = 2),
  met (onTrk id) fun n => decide (n.runsNow (withBits 0 2 0 (asRow .calibrateAngle (pk [0] 4))) = true ∧
      n.mode 2 ≠ .sincos ∧ n.mode 2 ≠ .hall ∧ n.chan (withBits 0 2 0 (asRow .calibrateAngle (pk [0] 4))) = 2 ∧
      n.mayLearn 2 = true),
  met (onTrk id) fun n => decide (n.runsNow (withBits 0 2 1 (asRow .calibrateAngle (pk (1 :: (List.replicate 128 7)) 4))) = true ∧
      n.mode 2 ≠ .sincos ∧ n.mode 2 ≠ .hall ∧ n.chan (withBits 0 2 1 (asRow .calibrateAngle (pk (1 :: (List.replicate 128 7)) 4))) = 2),
  met (onTrk id) fun n => decide (n.runsNow (withBits 0 2 2 (asRow .calibrateAngle (pk [2] 4))) = true ∧
      n.mode 2 ≠ .sincos ∧ n.mode 2 ≠ .hall ∧ n.chan (withBits 0 2 2 (asRow .calibrateAngle (pk [2] 4))) = 2),
  met (onTrk id) fun n => decide (n.runsNow (withBits 0 2 3 (asRow .calibrateAngle (pk [3] 4))) = true ∧
      n.mode 2 ≠ .sincos ∧ n.mode 2 ≠ .hall ∧ n.chan (withBits 0 2 3 (asRow .calibrateAngle (pk [3] 4))) = 2),
  met (on fun n => n.modCore fun k => { k with pos := k.pos.set 2 { hist := [k2, k1, { k1 with st := { k1.st with lt := 5 } }] } }) fun n =>
      decide (n.runsNow (asRow .historyRead (pk [1, 0, 62500] 4)) = true),
  met (on fun n => n.modCore fun k => { k with pos := k.pos.set 2 { hist := [k2, k1, { k1 with st := { k1.st with lt := 5 } }] } }) fun n =>
      decide (n.runsNow (asRow .historyRead (pk [0, 0, 62500] 4)) = true),
  met (onTrk id) fun n => decide (n.runsNow (withBits 0 2 0 (asRow .extrapolate ({ pk [0, 0, 90000] 4 with greenOk := false }))) = true ∧
      bracket 90000 (n.samples 2) = some (k1, k2) ∧ (n.samples 2).head? = some k2),
  met (onTrk id) fun n => decide (n.runsNow (withBits 0 2 0 (asRow .extrapolate ({ pk [0, 0, 90000] 4 with greenOk := true }))) = true ∧
      bracket 90000 (n.samples 2) = some (k1, k2) ∧ (n.samples 2).head? = some k2),
  met (onTrk id) fun n => decide (n.runsNow (withBits 0 2 0 (asRow .extrapolate (pk [0, 0, 190000] 4))) = true ∧
      n.tooFar 190000 = false)] id = true := by
  decide +kernel

/-- States and operands that meet the hypotheses of `Obligations.PositionCommands`, part 2. -/
theorem witness_PositionCommands_partb : List.all [
  met (onTrk id) fun n => decide (n.runsNow (withBits 0 2 1 (asRow .extrapolate ({ pk [1, 0, 190000] 4 with greenOk := true }))) = true ∧
      n.tooFar 190000 = false ∧ n.kilned 2 = some k2),
  met (on id) fun n => decide (n.runsNow (withBits 0 2 2 (asRow .extrapolate (pk [2, 0, 5, 1000, 1 + 100 * 4] 4))) = true ∧
      n.samples 2 = [] ∧ n.tooFar 5 = false)] id = true := by
  decide +kernel

/-- States and operands that meet the hypotheses of `Obligations.WaitingPositionsComplete`. -/
theorem witness_WaitingPositionsComplete : List.all [
  met (onTrk fun t => { t with learn := some { op := 4, outcome := some (some (List.replicate 256 (-3))) } }) fun n =>
      decide (n.up = true ∧ n.core.params.wf = true),
  met (on fun n => (tracked n).modCore fun k => { k with pool := [opFor 0x33 [0, 0, 90000] 4], extraps := [{ op := 9, slot := 3, ch := 2, kind := .posAt 90000 }] }) fun n =>
      decide (n.up = true ∧ bracket 90000 (n.samples 2) = some (k1, k2)),
  met (on fun n => (tracked n).modCore fun k => { k with pool := [opFor 0x33 [2, 0, 5, 200, 0] 4], extraps := [{ op := 9, slot := 3, ch := 2, kind := .timeAt 200 false 5 1000000 }] }) fun n =>
      decide (n.up = true ∧ crosses 0 200 100 300 = true ∧ ltLe 5 (crossStamp k1 k2 200).lt = true),
  met (on fun n => (tracked n).modCore fun k => { k with pool := [opFor 0x33 [2, 0, 5, 200, 0] 4], extraps := [{ op := 9, slot := 3, ch := 2, kind := .timeAt 200 false 5 1000000 }] }) fun n =>
      decide (n.up = true ∧ 1000000 ≤ (n.atT 900000).now)] id = true := by
  decide +kernel

/-- States and operands that meet the hypotheses of `Obligations.MovesStart`. -/
theorem witness_MovesStart : List.all [
  met (driving true id) fun n => decide (n.runsNow (asRow .moveTo (pk [0x2000000] 4)) = true ∧
      n.chan (asRow .moveTo (pk [0x2000000] 4)) = 2 ∧ n.slotRunning 2 = true ∧ n.refusesMotion 2 = false ∧
      (n.kind 2).outer = true ∧ (match n.judgeMoveTo 2 0x2000000 with | .go segs _ _ => segs != [] | _ => false) = true),
  met (driving true fun n => n.modCore fun k => { k with params := (k.params.put (pidAt Pid.prfAxis 2) 1).put (pidAt Pid.prfModulus 2) 167772160 }) fun n =>
      decide (n.runsNow (asRow .moveTo (pk [0x2000000] 4)) = true ∧ n.chan (asRow .moveTo (pk [0x2000000] 4)) = 2 ∧
      n.slotRunning 2 = true ∧ n.refusesMotion 2 = false ∧ (n.kind 2).outer = true ∧
      n.parN Pid.prfAxis 2 = 1 ∧ (0x2000000 : Int) < n.modulus 2 ∧ (match n.judgeMoveTo 2 0x2000000 with | .go segs _ _ => segs != [] | _ => false) = true),
  met (driving true id) fun n => decide (n.runsNow (asRow .moveBy (pk [0x2000000] 4)) = true ∧
      n.chan (asRow .moveBy (pk [0x2000000] 4)) = 2 ∧ n.slotRunning 2 = true ∧ n.refusesMotion 2 = false ∧
      (n.kind 2).outer = true ∧ (match n.judgeMoveBy 2 0x2000000 with | .go segs _ _ => segs != [] | _ => false) = true),
  met (driving true fun n => n.modCore fun k => { k with params := (k.params.put (pidAt Pid.prfAxis 2) 1).put (pidAt Pid.prfModulus 2) 167772160 }) fun n =>
      decide (n.runsNow (asRow .moveBy (pk [0x2000000] 4)) = true ∧ n.chan (asRow .moveBy (pk [0x2000000] 4)) = 2 ∧
      n.slotRunning 2 = true ∧ n.refusesMotion 2 = false ∧ (n.kind 2).outer = true ∧
      (match n.judgeMoveBy 2 0x2000000 with | .go segs _ _ => segs != [] | _ => false) = true),
  met (driving true fun n => n.modCore fun k => { k with params := k.params.put (pidAt Pid.prfVmax 2) 0x4000000 }) fun n =>
      decide (n.runsNow (asRow .jog (pk [0x1000000] 4)) = true ∧ n.chan (asRow .jog (pk [0x1000000] 4)) = 2 ∧
      n.slotRunning 2 = true ∧ n.refusesMotion 2 = false ∧ n.kind 2 ≠ .follower ∧ (((0x1000000 : Word).toInt.natAbs : Int)) ≤ n.par Pid.prfVmax 2),
  met (driving false fun n => n.modCore fun k => { k with params := k.params.put (pidAt Pid.prfVmax 2) 0x4000000 }) fun n =>
      decide (n.runsNow (asRow .jog (pk [0x1000000] 4)) = true ∧ n.chan (asRow .jog (pk [0x1000000] 4)) = 2 ∧
      n.slotRunning 2 = true ∧ n.refusesMotion 2 = false ∧ n.kind 2 ≠ .follower ∧ (((0x1000000 : Word).toInt.natAbs : Int)) ≤ n.par Pid.prfVmax 2)] id = true := by
  decide +kernel

/-- States and operands that meet the hypotheses of `Obligations.MotionEnds`. -/
theorem witness_MotionEnds : List.all [
  met (driving true fun n => n.modCore fun k => { k with params := k.params.put (pidAt Pid.prfVmax 2) 0x4000000 }) fun n =>
      decide (n.runsNow (asRow .jog (pk [0x1000000] 4)) = true ∧ n.chan (asRow .jog (pk [0x1000000] 4)) = 2 ∧
      n.slotRunning 2 = true ∧ n.refusesMotion 2 = false ∧ n.kind 2 ≠ .follower ∧ (((0x1000000 : Word).toInt.natAbs : Int)) ≤ n.par Pid.prfVmax 2),
  met (driving false fun n => n.modCore fun k => { k with params := k.params.put (pidAt Pid.prfVmax 2) 0x4000000 }) fun n =>
      decide (n.runsNow (asRow .jog (pk [0x1000000] 4)) = true ∧ n.chan (asRow .jog (pk [0x1000000] 4)) = 2 ∧
      n.slotRunning 2 = true ∧ n.refusesMotion 2 = false ∧ n.kind 2 ≠ .follower ∧ (((0x1000000 : Word).toInt.natAbs : Int)) ≤ n.par Pid.prfVmax 2),
  met (driving true fun n => n.modSlot 2 fun x => { x with sp := { x.sp with v := auToFx 3000 } }) fun n =>
      decide (n.runsNow (asRow .stop (pk [] 4)) = true ∧ n.chan (asRow .stop (pk [] 4)) = 2 ∧
      n.slotRunning 2 = true ∧ n.refusesMotion 2 = false ∧ n.allRunning (asRow .stop (pk [] 4)) = true ∧
      n.core.rests = [] ∧ n.chans (asRow .stop (pk [] 4)) = [2]),
  met (driving true id) fun n => decide (n.runsNow (asRow .stop (pk [] 4)) = true ∧ n.chan (asRow .stop (pk [] 4)) = 2 ∧
      n.slotRunning 2 = true ∧ n.refusesMotion 2 = false ∧ n.allRunning (asRow .stop (pk [] 4)) = true ∧
      n.core.rests = [] ∧ n.chans (asRow .stop (pk [] 4)) = [2] ∧ ∀ c : Ch, n.kind c ≠ .follower ∧
      (n.core.slots.get c).active = none),
  met (driving true fun n => n.modSlot 2 fun x => { x with sp := { x.sp with v := auToFx 3000 } }) fun n =>
      decide (n.runsNow (asRow .park (pk [] 4)) = true ∧ n.chan (asRow .park (pk [] 4)) = 2 ∧
      n.slotRunning 2 = true ∧ n.refusesMotion 2 = false ∧ n.allRunning (asRow .park (pk [] 4)) = true),
  met (driving true fun n => (n.modSlot 2 fun x => { x with active := some (9, .move), arrived := true, target := some 5 }).modCore fun k => { k with pool := [opFor 0x40 [] 4], rests := [] }) fun n =>
      decide (n.up = true ∧ n.opOf 9 = some (opFor 0x40 [] 4) ∧ n.up = true),
  met (driving true fun n => (n.modSlot 2 fun x => { x with active := some (9, .stop) }).modCore fun k => { k with pool := [opFor 0x43 [] 4], rests := [{ op := some 9, kind := .stop, chs := [2] }] }) fun n =>
      decide (n.up = true ∧ n.opOf 9 = some (opFor 0x43 [] 4) ∧ n.atRest 2 = true),
  met (driving true fun n => (n.modSlot 2 fun x => { x with active := some (9, .jog), planEnd := .velocity 55, sp := { x.sp with v := 55 } }).modCore fun k => { k with pool := [opFor 0x42 [] 4], rests := [] }) fun n =>
      decide (n.up = true ∧ n.opOf 9 = some (opFor 0x42 [] 4) ∧ n.up = true)] id = true := by
  decide +kernel

/-- States and operands that meet the hypotheses of `Obligations.LoopsAndGroups`. -/
theorem witness_LoopsAndGroups : List.all [
  met (inMode .drive tracked) fun n => decide (n.runsNow (withBits 0 1 1 (asRow .loopEnable (pk [1] 4))) = true ∧
      n.chans (withBits 0 1 1 (asRow .loopEnable (pk [1] 4))) = [2] ∧ n.src 2 = 0 ∧
      n.refusesMotion 2 = false ∧ (n.modSlot 2 fun x => { x with enabled := true }).admissionNow = none),
  met (on tracked) fun n => decide (n.runsNow (withBits 0 1 1 (asRow .loopEnable (pk [1] 4))) = true ∧
      n.chans (withBits 0 1 1 (asRow .loopEnable (pk [1] 4))) = [2] ∧ n.src 2 = 0 ∧
      n.refusesMotion 2 = false ∧ (n.modSlot 2 fun x => { x with enabled := true }).admissionNow = none),
  met (on fun n => (tracked n).modSlot 2 fun x => { x with enabled := true, owner := some 7 }) fun n =>
      decide (n.runsNow (withBits 0 1 0 (asRow .loopEnable (pk [0] 4))) = true ∧ n.chans (withBits 0 1 0 (asRow .loopEnable (pk [0] 4))) = [2] ∧
      n.src 2 = 0 ∧ n.driving = false ∧ n.core.rests = []),
  met (driving true fun n => n.modCore fun k => { k with mode := .track }) fun n => decide (n.runsNow (asRow .cascadeSet (pk [2, 0x80000000] 4)) = true ∧
      n.driving = false ∧ leaderOf (asRow .cascadeSet (pk [2, 0x80000000] 4)) = 2 ∧
      n.ownCh 2 = some 2 ∧ followersOf (asRow .cascadeSet (pk [2, 0x80000000] 4)) = [(1, 0x80000000)] ∧
      (n.setGroup 2 (followersOf (asRow .cascadeSet (pk [2, 0x80000000] 4)))).admissionNow = none)] id = true := by
  decide +kernel

/-- States and operands that meet the hypotheses of `Obligations.PhaseBComputes`. -/
theorem witness_PhaseBComputes : List.all [
  met (driving true fun n => (n.modCore fun k => { k with phaseA := true, sampled := true }).modFront 2 fun f => { f with trk := { f.trk with fresh := true } }) fun n =>
      decide (n.up = true ∧ n.core.phaseA = true ∧ n.core.phaseB = false ∧ n.core.faults.points = [] ∧
      n.slotRunning 2 = true ∧ n.hasSample 2 = true ∧ n.kind 2 ≠ .follower ∧ n.src 2 = 0),
  met (driving true fun n => (n.modCore fun k => { k with phaseA := true, sampled := true }).modFront 2 fun f => { f with trk := { f.trk with kil := none } }) fun n =>
      decide (n.up = true ∧ n.core.phaseA = true ∧ n.core.phaseB = false ∧ n.core.faults.points = [] ∧
      n.slotRunning 2 = true ∧ n.hasSample 2 = false)] id = true := by
  decide +kernel

/-- States and operands that meet the hypotheses of `Obligations.LatchesCapture`. -/
theorem witness_LatchesCapture : List.all [
  met (onPos fun p => { p with latch := { p.latch with fifo := [le1] } }) fun n => decide (n.runsNow (asRow .latchArm (pk [8] 4)) = true ∧
      n.chan (asRow .latchArm (pk [8] 4)) = 2 ∧ armModeOf (fld 8 4 3) = some .once),
  met (onPos fun p => { p with latch := { p.latch with fifo := [le1] } }) fun n => decide (n.runsNow (asRow .latchArm (pk [176] 4)) = true ∧
      n.chan (asRow .latchArm (pk [176] 4)) = 2 ∧ armModeOf (fld 176 4 3) = some .count),
  met (onPos fun p => { p with latch := { p.latch with fifo := [le1] } }) fun n => decide (n.runsNow (asRow .latchArm (pk [27] 4)) = true ∧
      n.chan (asRow .latchArm (pk [27] 4)) = 2 ∧ armModeOf (fld 27 4 3) = some .continuous),
  met (onPos fun p => { p with latch := { p.latch with armA := some { op := 77, mode := .once, edge := .rising, n := 1, since := 0 } } }) fun n =>
      decide (n.runsNow (withBits 3 2 0 (asRow .latchArm (pk [0x18] 4))) = true ∧ n.chan (withBits 3 2 0 (asRow .latchArm (pk [0x18] 4))) = 2),
  met (onPos fun p => { p with latch := { p.latch with fifo := [le1, le2] } }) fun n => decide (n.runsNow (asRow .latchRead (pk [64] 4)) = true ∧
      n.chan (asRow .latchRead (pk [64] 4)) = 2),
  met (onPos fun p => { p with latch := { p.latch with fifo := [le1, le2] } }) fun n => decide (n.runsNow (asRow .latchRead (pk [192] 4)) = true ∧
      n.chan (asRow .latchRead (pk [192] 4)) = 2),
  met (on fun n => (tracked n).modCore fun k => { k with params := k.params.put (pidAt Pid.latFilta 2) 5 }) fun n =>
      decide (n.up = true ∧ (n.core.fronts.get 2).trk.running = true ∧ heldLong (n.parN Pid.latFilta 2) 15 = false ∧
      n.parN Pid.latFilta 2 ≠ 0),
  met (onPos fun p => { p with latch := { p.latch with seq := 9, armA := some { op := 77, mode := .once, edge := .rising, n := 1, since := 0 } } }) fun n =>
      decide (n.up = true ∧ (n.core.fronts.get 2).trk.running = true ∧ heldLong (n.parN Pid.latFilta 2) 5000000 = true),
  met (onPos fun p => { p with latch := { p.latch with seq := 9, armA := some { op := 77, mode := .continuous, edge := .rising, n := 1, since := 0 } } }) fun n =>
      decide (n.up = true ∧ (n.core.fronts.get 2).trk.running = true ∧ heldLong (n.parN Pid.latFilta 2) 5000000 = true),
  met (on fun n => (tracked n).modCore fun k => { k with params := k.params.put (pidAt Pid.inMode 2) 1 }) fun n =>
      decide (n.up = true ∧ (n.core.fronts.get 2).trk.running = true ∧ n.mode 2 = .sincos ∧
      heldLong (n.parN Pid.latFilti 2) 5000000 = true),
  met (on fun n => (tracked n).modCore fun k => { k with params := k.params.put (pidAt Pid.inMode 2) 2 }) fun n =>
      decide (n.up = true ∧ (n.core.fronts.get 2).trk.running = true ∧ n.mode 2 = .hall ∧
      heldLong (n.parN Pid.latFilti 2) 5000000 = true)] id = true := by
  decide +kernel

/-- States and operands that meet the hypotheses of `Obligations.EntriesAndWindows`. -/
theorem witness_EntriesAndWindows : List.all [
  met (onPos fun p => { p with latch := { p.latch with fifo := [{ le1 with group := .waiting }, le2] } }) fun n =>
      decide (n.up = true ∧ le1.st.e < k2.st.e),
  met (on fun n => n.modPos 1 fun p => { p with latch := { p.latch with fifo := [{ le1 with group := .waiting }, le2] } }) fun n =>
      decide (n.up = true),
  met (onPos fun p => { p with refuted := some { ends := 200000, first := {}, count := 0 } }) fun n =>
      decide (n.power.vcel = true ∧ n.power.cresetn = true ∧ n.up = true ∧ 200000 ≤ (n.atT 100000).now),
  met (onPos fun p => { p with refuted := some { ends := 200000, first := {}, count := 3 } }) fun n =>
      decide (n.power.vcel = true ∧ n.power.cresetn = true ∧ n.up = true ∧ 200000 ≤ (n.atT 100000).now),
  met (onPos fun p => { p with latchLost := some { ends := 200000, first := {}, count := 0 } }) fun n =>
      decide (n.power.vcel = true ∧ n.power.cresetn = true ∧ n.up = true ∧ 200000 ≤ (n.atT 100000).now),
  met (onPos fun p => { p with latchLost := some { ends := 200000, first := {}, count := 3 } }) fun n =>
      decide (n.power.vcel = true ∧ n.power.cresetn = true ∧ n.up = true ∧ 200000 ≤ (n.atT 100000).now),
  met (on fun n => (tracked n).modLine fun l => { l with mismatchWindow := some (200000, 0, 5, .lineTime) }) fun n =>
      decide (n.power.vcel = true ∧ n.power.cresetn = true ∧ n.up = true ∧ 200000 ≤ (n.atT 100000).now),
  met (on fun n => (tracked n).modLine fun l => { l with mismatchWindow := some (200000, 3, 5, .lineTime) }) fun n =>
      decide (n.power.vcel = true ∧ n.power.cresetn = true ∧ n.up = true ∧ 200000 ≤ (n.atT 100000).now)] id = true := by
  decide +kernel

/-- States and operands that meet the hypotheses of `Obligations.HopCommands`. -/
theorem witness_HopCommands : List.all [
  met (on tracked) fun n => decide (n.runsNow (asRow .hopAdd (pk [1000, 500, 20, 0, 200, 0, 0x800000000 + 0x200000000, 7] 4)) = true ∧
      n.chan (asRow .hopAdd (pk [1000, 500, 20, 0, 200, 0, 0x800000000 + 0x200000000, 7] 4)) = 2 ∧
      (n.resolveHop 2 1000 20 0).isSome = true ∧ (n.resolveHop 2 200 (0x800000000 + 0x200000000) 7).isSome = true),
  met (on fun n => (tracked n).modCore fun k => { k with params := (k.params.put (pidAt Pid.prfAxis 2) 1).put (pidAt Pid.prfModulus 2) 50 }) fun n =>
      decide (n.runsNow (asRow .hopAdd (pk [100, 500, 20, 0] 4)) = true ∧ n.resolveHop 2 100 20 0 = none),
  met (onHops [hop 3 400 20, hop 4 500 0x800000014]) fun n => decide (n.runsNow (withBits 0 2 0 (asRow .hopRemove (pk [0, 0x1003] 0))) = true ∧
      (hop 3 400 20).handle = 0x1003),
  met (onHops ([hop 3 400 20, hop 4 500 0x800000014] ++ [{ hop 5 6 7 with ch := 1 }])) fun n =>
      decide (n.runsNow (withBits 0 2 1 (asRow .hopRemove (pk [1] 4))) = true),
  met (onHops [hop 3 400 20, hop 4 500 0x800000014]) fun n => decide (n.runsNow (withBits 0 2 2 (asRow .hopRemove (pk [6] 4))) = true),
  met (onHops [hop 4 500 20, hop 3 400 20]) fun n => decide (n.runsNow (asRow .hopList (pk [] 4)) = true)] id = true := by
  decide +kernel

/-- States and operands that meet the hypotheses of `Obligations.HopsFire`. -/
theorem witness_HopsFire : List.all [
  met (onHops [{ hop 3 250 20 with crossed := some ({ lt := 90000, mark := .lineTime, e := 90000 }, 152500) }, hop 4 500 20]) fun n =>
      decide (n.up = true ∧ 152500 ≤ (n.atT 30000).now),
  met (onHops [hop 3 500 20, hop 4 500 20]) fun n => decide (n.up = true ∧ 300000 ≤ (n.atT 200000).now),
  met (on fun n => ((tracked n).modCore fun k => { k with hops := [hop 3 301 20, hop 4 500 20], params := k.params.put (pidAt Pid.hopGreenbnd 2) 100000 }).modFront 2 fun f => { f with trk := { f.trk with kilned := 40, basis := { u := 300, v := 100000, st := k2.st } } }) fun n =>
      decide (n.up = true ∧ (n.atT 30000).greenReady (hop 3 301 20) = true ∧ (n.atT 30000).now ≤ 300000),
  met (on fun n => (tracked n).modCore fun k => { k with cmps := k.cmps.set 3 { active := true, pulseEnd := some 150000, instant := some 5 } }) fun n =>
      decide (n.up = true ∧ 150000 ≤ (n.atT 25000).now),
  met (on fun n => (tracked n).modCore fun k => { k with fired := [{ handle := 5, ch := 2, output := 0, target := 200, fired := {}, crossing := { lt := 93750, mark := .lineTime, e := 93750 } }] }) fun n =>
      decide (n.up = true ∧ bracketAt 93750 (n.samples 2) = some (k1, k2) ∧ (interpolate 0 k1 k2 93750).1 = 200 ∧
      n.par Pid.trkRefute 2 < 90000),
  met (on fun n => (tracked n).modCore fun k => { k with fired := [{ handle := 5, ch := 2, output := 0, target := 100000, fired := {}, crossing := { lt := 93750, mark := .lineTime, e := 93750 } }] }) fun n =>
      decide (n.up = true ∧ bracketAt 93750 (n.samples 2) = some (k1, k2) ∧ (interpolate 0 k1 k2 93750).1 = 200 ∧
      n.par Pid.trkRefute 2 < 90000)] id = true := by
  decide +kernel

/-- States and operands that meet the hypotheses of `Obligations.OutputsAreWritten`. -/
theorem witness_OutputsAreWritten : List.all [
  met (onOut [(pidAt Pid.dacSrc 2, 2)] (id)) fun n => decide (n.runsNow (asRow .dacWrite (pk [0x12345] 4)) = true ∧
      n.chans (asRow .dacWrite (pk [0x12345] 4)) = [2] ∧ n.src 2 = 2),
  met (onOut [(pidAt Pid.dacSrc 2, 0)] (id)) fun n => decide (n.runsNow (asRow .dacWrite (pk [0x12345] 4)) = true ∧
      n.src 2 ≠ 2),
  met (onOut [(Pid.dacStba, 2)] fun n => n.modTime fun t => { t with outDone := false }) fun n =>
      decide (n.runsNow (asRow .dacStrobe (pk [1] 0)) = true ∧ n.strobeSource false = 2 ∧
      n.time.outDone = false ∧ n.inGroup false 2 = true ∧ n.mayLoad 2 = true),
  met (onOut [(Pid.dacStba, 2)] fun n => n.modTime fun t => { t with outDone := true }) fun n =>
      decide (n.runsNow (asRow .dacStrobe (pk [1] 0)) = true ∧ n.strobeSource false = 2 ∧
      n.time.outDone = true ∧ n.inGroup false 2 = true ∧ n.mayLoad 2 = true),
  met (onOut [] (id)) fun n => decide (n.up = true ∧ n.inGroup false 2 = true ∧ n.mayLoad 2 = true ∧
      n.strobeSource false ≠ 1),
  met (onOut [(Pid.dacStba, 1)] (id)) fun n => decide (n.up = true ∧ n.inGroup false 2 = true ∧
      n.mayLoad 2 = true ∧ n.strobeSource false = 1),
  met (onOut [(Pid.dacStba, 1)] (id)) fun n => decide (n.up = true ∧ n.inGroup false 2 = true ∧
      n.mayLoad 2 = true ∧ n.strobeSource false = 1 ∧ n.core.ldacLast.get false = none),
  met (onOut [(Pid.dacStba, 1)] fun n => n.modCore fun k => { k with ldacLast := k.ldacLast.set false (some 123005) }) fun n =>
      decide (n.up = true ∧ n.inGroup false 2 = true ∧ n.mayLoad 2 = true ∧ n.strobeSource false = 1 ∧
      (n.atT 5).now = 125005),
  met (onOut [(Pid.dacStba, 1)] fun n => n.modCore fun k => { k with ldacLast := k.ldacLast.set false (some 123010) }) fun n =>
      decide (n.up = true ∧ n.inGroup false 2 = true ∧ n.mayLoad 2 = true ∧ n.strobeSource false = 1 ∧
      (n.atT 5).now = 125005),
  met ({ node := ((driving true fun n => (n.modOut 2 fun o => { o with highZ := false, fresh := true, inreg := 5 }).modSlot 2 fun x => { x with computed := true, code := some (5, 100000), sp := { p := 1000, v := 100000000000000, a := 5 } }).node), pending := [] }) fun n =>
      decide (n.up = true ∧ n.inGroup false 2 = true ∧ n.mayLoad 2 = true ∧ n.power.vcel = true ∧
      n.power.cresetn = true ∧ n.time.outDone = false ∧ n.strobeSource false = 0 ∧ n.core.mode ≠ .cask ∧
      n.scheduleRuns 2 = false ∧ n.slotRunning 2 = true ∧ (n.kind 2).profile = true)] id = true := by
  decide +kernel

/-- States and operands that meet the hypotheses of `Obligations.OutputDetectors`. -/
theorem witness_OutputDetectors : List.all [
  met (onOut [] (id)) fun n => decide (n.up = true ∧ rangeCurrent (n.parN Pid.dacRange 2) = false),
  met (onOut [] fun n => n.modOut 2 fun o => { o with shortAt := some 8 }) fun n => decide (n.up = true ∧
      rangeCurrent (n.parN Pid.dacRange 2) = false),
  met (onOut [] fun n => n.modOut 2 fun o => { o with shortAt := some 8, currentLimit := true }) fun n =>
      decide (n.up = true ∧ rangeCurrent (n.parN Pid.dacRange 2) = false),
  met (onOut [(pidAt Pid.dacRange 2, 5)] (id)) fun n => decide (n.up = true ∧ rangeCurrent (n.parN Pid.dacRange 2) = true),
  met (onOut [(pidAt Pid.dacRange 2, 5)] fun n => n.modOut 2 fun o => { o with openAt := some 8, complianceLost := true }) fun n =>
      decide (n.up = true ∧ rangeCurrent (n.parN Pid.dacRange 2) = true),
  met (onOut [(pidAt Pid.dacShortact 2, 1)] fun n => n.modOut 2 fun o => { o with shortAt := some 125000 }) fun n =>
      decide (n.up = true ∧ 125000 ≤ (n.atT 5).now),
  met (onOut [(pidAt Pid.dacShortact 2, 1)] fun n => n.modOut 2 fun o => { o with openAt := some 125000 }) fun n =>
      decide (n.up = true ∧ 125000 ≤ (n.atT 5).now),
  met (onOut [(pidAt Pid.dacShortact 2, 1)] fun n => n.modOut 2 fun o => { o with railAt := some 125000 }) fun n =>
      decide (n.up = true ∧ 125000 ≤ (n.atT 5).now),
  met (on fun n => ((tracked n).modCore fun k => { k with params := (k.params.put (pidAt Pid.emuEn 2) 1) }).modPos 2 fun p => { p with emu := { p.emu with started := true, co := 100000000, lagSince := some 125000 } }) fun n =>
      decide (n.up = true ∧ (((n.atT 1000000).emuFollow 2).core.pos.get 2).emu.lagSince = some 125000 ∧
      125000 + 1000000 ≤ (n.atT 1000000).now),
  met (onOut [(pidAt Pid.dacRange 2, 3)] (id)) fun n => decide (n.up = true ∧ n.power.vcel = true ∧
      n.power.cresetn = true)] id = true := by
  decide +kernel

/-- States and operands that meet the hypotheses of `Obligations.WaveCommands`. -/
theorem witness_WaveCommands : List.all [
  met (onPlay (table3 .loaded) []) fun n => decide (n.runsNow (withBits 4 2 0 (asRow .waveLoad (pk [3 + 64 + 200 * 256 + 50 * 4194304] 0))) = true ∧
      n.core.waves.tables.length = 16 ∧ n.core.waves.plays = [] ∧ n.core.waves.meetsOther 3 200 50 = false),
  met (onPlay (table3 .loaded) []) fun n => decide (n.runsNow (withBits 4 2 0 (asRow .waveLoad (pk [3 + 64 + 99 * 256 + 3 * 4194304] 0))) = true ∧
      n.core.waves.tables.length = 16 ∧ n.core.waves.plays = []),
  met (onPlay (table3 .filling) []) fun n => decide (n.runsNow (withBits 4 2 1 (asRow .waveLoad (pk [3 + 16 + 1 * 256 + 2 * 4194304, 0x40003] 0))) = true ∧
      n.core.waves.tables.length = 16 ∧ n.core.waves.plays = [] ∧ n.core.waves.mem.wf = true),
  met (onPlay { table3 .filling with persist := false } []) fun n => decide (n.runsNow (withBits 4 2 2 (asRow .waveLoad (pk [3 + 32] 0))) = true ∧
      n.core.waves.tables.length = 16 ∧ n.core.waves.plays = []),
  met (onPlay { table3 .filling with persist := true } []) fun n => decide (n.runsNow (withBits 4 2 2 (asRow .waveLoad (pk [3 + 32] 0))) = true ∧
      n.core.waves.tables.length = 16 ∧ n.core.waves.plays = []),
  met (onPlay (table3 .loaded) []) fun n => decide (n.runsNow (withBits 4 2 3 (asRow .waveLoad (pk [3 + 48] 0))) = true ∧
      n.core.waves.tables.length = 16 ∧ n.core.waves.plays = []),
  met (onPlay (table3 .loaded) []) fun n => decide (n.runsNow (asRow .wavePlay (pk [3, 4] 4)) = true ∧
      n.chans (asRow .wavePlay (pk [3, 4] 4)) = [2] ∧ (n.core.waves.table 3).state = .loaded ∧
      n.src 2 = 1 ∧ n.playOn 2 = none),
  met (onPlay (table3 .loaded) []) fun n => decide (n.runsNow (asRow .wavePlay (pk [3 + 0x800000 + 2 * 2 ^ 24 + 2 ^ 26, 4] 4)) = true ∧
      (n.core.waves.table 3).state = .loaded ∧ n.src 2 = 1 ∧ n.playOn 2 = none),
  met (onPlay (table3 .loaded) []) fun n => decide (n.runsNow (asRow .wavePlay (pk [3 + 2 ^ 29, 5000, 0, 600000] 4)) = true ∧
      (n.core.waves.table 3).state = .loaded ∧ n.src 2 = 1 ∧ n.playOn 2 = none ∧ n.time.lt < ltOf 0 600000),
  met (onPlay (table3 .loaded) [play (.tick 1), { play (.tick 1) with op := 10, slot := 4, outs := [1] }]) fun n =>
      decide (n.runsNow (asRow .waveStop (pk [] 4)) = true)] id = true := by
  decide +kernel

/-- States and operands that meet the hypotheses of `Obligations.WaveRuns`. -/
theorem witness_WaveRuns : List.all [
  met (onPlay (table3 .loaded) [{ play (.schedule 5000) with start := 120000, next := 1, running := true }]) fun n =>
      decide (n.up = true ∧ n.playOf 3 = some ({ play (.schedule 5000) with start := 120000, next := 1, running := true }) ∧
      125000 ≤ (n.atT 5).now ∧ n.sampleLeft ({ play (.schedule 5000) with start := 120000, next := 1, running := true }) = true ∧
      n.mayLoad 2 = true),
  met (onPlay (table3 .loaded) [{ play (.tick 2) with k0 := 0, next := 1, running := true }]) fun n =>
      decide (n.up = true ∧ n.playOf 3 = some ({ play (.tick 2) with k0 := 0, next := 1, running := true }) ∧
      2 ≤ n.time.k48 ∧ n.sampleLeft ({ play (.tick 2) with k0 := 0, next := 1, running := true }) = true),
  met (onPlay (table3 .loaded) [{ play (.tick 2) with startDue := true, trigger := .hop }]) fun n =>
      decide (n.up = true ∧ n.playOf 3 = some ({ play (.tick 2) with startDue := true, trigger := .hop })),
  met (onPlay (table3 .loaded) [{ play (.schedule 5000) with startDue := true, trigger := .hop }]) fun n =>
      decide (n.up = true ∧ n.playOf 3 = some ({ play (.schedule 5000) with startDue := true, trigger := .hop })),
  met (onPlay (table3 .loaded) [{ play (.tick 2) with running := true, next := 3, rearm := true, trigger := .hop }]) fun n =>
      decide (n.up = true ∧ n.playOf 3 = some ({ play (.tick 2) with running := true, next := 3, rearm := true, trigger := .hop }) ∧
      n.sampleLeft ({ play (.tick 2) with running := true, next := 3, rearm := true, trigger := .hop }) = false),
  met (onPlay (table3 .loaded) [{ play (.tick 2) with running := true, next := 3, rearm := false, trigger := .hop }]) fun n =>
      decide (n.up = true ∧ n.playOf 3 = some ({ play (.tick 2) with running := true, next := 3, rearm := false, trigger := .hop }) ∧
      n.sampleLeft ({ play (.tick 2) with running := true, next := 3, rearm := false, trigger := .hop }) = false)] id = true := by
  decide +kernel

/-- States and operands that meet the hypotheses of `Obligations.SoundAndHeat`. -/
theorem witness_SoundAndHeat : List.all [
  met (onSound [] (duct 3)) fun n => decide (n.runsNow (asRow .soundRead (pk [] 0)) = true),
  met (onSound [] (duct 3)) fun n => decide (n.runsNow (asRow .rtdRead (pk [] 0)) = true),
  met (onSound [] (duct 3)) fun n => decide (n.runsNow (asRow .fanRead (pk [] 0)) = true),
  met (on fun n => n.modCore fun k => { k with params := k.params.putAll [(Pid.sndPaths, 1)] }) fun n =>
      decide (n.up = true ∧ n.roundsRun = true ∧ n.core.sound.cal = none ∧ n.core.sound.round = none ∧
      n.time.lt % (n.parN Pid.sndRound 0 * 1000000) = 0),
  met (onSound [(Pid.sndPaths, 1)] fun s => { s with round := some { start := k2.st, items := (on id).node.core.params.putAll [(Pid.sndPaths, 1)], pathA := true, pathB := false, rtds := true, cal := false }, published := false, lastSeq := 8 }) fun n =>
      decide (n.up = true ∧ n.core.faults.points = []),
  met (onSound [(Pid.sndPaths, 1)] fun s => { s with round := some { start := k2.st, items := (on id).node.core.params.putAll [(Pid.sndPaths, 1)], pathA := true, pathB := false, rtds := true, cal := false }, published := true, lastSeq := 8 }) fun n =>
      decide (n.up = true ∧ n.core.faults.points = []),
  met ({ node := (onSound [(Pid.sndPaths, 1)] (duct 3)).node.modCore fun k => { k with mode := .cask }, pending := [] }) fun n =>
      decide (n.runsNow (asRow .zeroFlowCal (pk [1] 0)) = true ∧ pathFitted n.core.params false = true ∧
      n.isActive .overtemp 0xFF = false ∧ n.core.sound.cal = none ∧ (n.fan false).engaged = false ∧
      (n.fan true).engaged = false ∧ (n.core.sound.rtds.toList.all fun r => !r.warn) = true),
  met (onSound [] fun s => { s with cal := some { op := 9, pathA := true, pathB := false, waitEnd := 125000, want := 2 } }) fun n =>
      decide (n.up = true ∧ (n.atT 5).tachPresent false = false ∧ (n.atT 5).tachPresent true = false),
  met (onSound [] fun s => { s with cal := some { op := 9, pathA := true, pathB := false, waitEnd := 125000, want := 2 }, fans := s.fans.set false { s.fans.a with edges := turning } }) fun n =>
      decide (n.up = true ∧ (n.atT 5).tachPresent false = true),
  met (onSound [(Pid.sndPaths, 1)] fun s => { s with cal := some { op := 9, pathA := true, pathB := false, waitEnd := 125000, want := 2, nextRound := some 5, rounds := 2, a := [(100 * fxOne, 3000), (102 * fxOne, 3000)] } }) fun n =>
      decide (n.up = true ∧ calJudge [(100 * fxOne, 3000), (102 * fxOne, 3000)] = some (101, (calJudge [(100 * fxOne, 3000), (102 * fxOne, 3000)]).elim 0 Prod.snd)),
  met (onSound [(Pid.sndPaths, 1)] fun s => { s with cal := some { op := 9, pathA := true, pathB := false, waitEnd := 125000, want := 2, nextRound := some 5, rounds := 2, a := [(100 * fxOne, 3000), (102 * fxOne, 3000)], bad := true } }) fun n =>
      decide (n.up = true)] id = true := by
  decide +kernel

/-- States and operands that meet the hypotheses of `Obligations.Fans`, part 1. -/
theorem witness_Fans_parta : List.all [
  met (onSound [] id) fun n => decide (n.runsNow (asRow .fanSet (pk [3 + 0 * 4 + 700 * 16] 0)) = true),
  met (onFan [] fun f => { f with edges := [124000, 100] }) fun n => decide (n.up = true ∧
      n.core.faults.points = [] ∧ isFan1 1 = true),
  met (onFan [] fun f => { f with edges := [125000, 124000, 100] }) fun n => decide (n.up = true ∧
      n.core.faults.points = [] ∧ isFan1 1 = true),
  met (onFan [] fun f => { f with present := true }) fun n => decide (n.up = true ∧ n.core.faults.points = [] ∧
      isFan1 1 = true ∧ (n.atT 5).tachPresent true = false),
  met ({ node := (onFan [(pidAt Pid.fanPath 1, 0)] fun f => { f with edges := turning, phase := .judging 0 120000 125000 }).node.modCore fun k => { k with sound := duct 3 k.sound }, pending := [] }) fun n =>
      decide (n.up = true ∧ n.core.faults.points = [] ∧ isFan1 1 = true ∧ (n.atT 5).tachPresent true = true ∧
      (n.atT 5).airRisen true 0 120000 = true),
  met ({ node := (onFan [(pidAt Pid.fanPath 1, 0)] fun f => { f with edges := turning, phase := .judging 0 120000 125000 }).node.modCore fun k => { k with sound := duct 0 k.sound }, pending := [] }) fun n =>
      decide (n.up = true ∧ n.core.faults.points = [] ∧ isFan1 1 = true ∧ (n.atT 5).tachPresent true = true ∧
      (n.atT 5).airRisen true 0 120000 = false),
  met (onFan [(pidAt Pid.fanPath 1, 2)] fun f => { f with edges := turning, phase := .judging 0 120000 125000 }) fun n =>
      decide (n.up = true ∧ n.core.faults.points = [] ∧ isFan1 1 = true ∧ (n.atT 5).tachPresent true = true ∧
      (n.atT 5).airRisen true 0 120000 = false),
  met (onFan [(pidAt Pid.fanPath 1, 0)] fun f => { f with phase := .judging 0 120000 125000 }) fun n =>
      decide (n.up = true ∧ n.core.faults.points = [] ∧ isFan1 1 = true ∧ (n.atT 5).tachPresent true = false ∧
      (n.atT 5).ductV true = none ∧ 1 ≤ n.parN Pid.fanRetries 1),
  met (onFan [(pidAt Pid.fanRetries 1, 2)] fun f => { f with phase := .kicking 1 125000 true, blocked := true }) fun n =>
      decide (n.up = true ∧ n.core.faults.points = [] ∧ isFan1 1 = true),
  met (onFan [(pidAt Pid.fanRetries 1, 2)] fun f => { f with phase := .kicking 1 125000 false, blocked := true }) fun n =>
      decide (n.up = true ∧ n.core.faults.points = [] ∧ isFan1 1 = true ∧ (n.atT 5).tachPresent true = false),
  met (onFan [(pidAt Pid.fanRetries 1, 2)] fun f => { f with phase := .kicking 2 125000 false, blocked := true }) fun n =>
      decide (n.up = true ∧ n.core.faults.points = [] ∧ isFan1 1 = true ∧ (n.atT 5).tachPresent true = false),
  met (onFan [(pidAt Pid.fanRetries 1, 2)] fun f => { f with phase := .pausing 1 125000, blocked := true }) fun n =>
      decide (n.up = true ∧ n.core.faults.points = [] ∧ isFan1 1 = true)] id = true := by
  decide +kernel

/-- States and operands that meet the hypotheses of `Obligations.Fans`, part 2. -/
theorem witness_Fans_partb : List.all [
  met (onSound [(pidAt Pid.fanPath 1, 0)] fun s => { s with probe := some { fan := true, start := 0, ends := 125000, vb := 10 * fxOne, vp := some (5 * fxOne) }, fans := ⟨{ s.fans.a with phase := .running }, { s.fans.b with phase := .probing false, silentSince := 0 }⟩ }) fun n =>
      decide (n.up = true ∧ n.core.faults.points = [] ∧ isFan1 1 = true ∧ (n.atT 5).tachPresent true = false ∧
      (decide ((10 * fxOne) * (n.atT 5).par Pid.fanAirdrop 1 ≤ 100 * (10 * fxOne - 5 * fxOne))) = true),
  met (onSound [(pidAt Pid.fanPath 1, 0)] fun s => { s with probe := some { fan := true, start := 0, ends := 125000, vb := 10 * fxOne, vp := some (10 * fxOne) }, fans := ⟨{ s.fans.a with phase := .running }, { s.fans.b with phase := .probing false, silentSince := 0 }⟩ }) fun n =>
      decide (n.up = true ∧ n.core.faults.points = [] ∧ isFan1 1 = true ∧ (n.atT 5).tachPresent true = false ∧
      (decide ((10 * fxOne) * (n.atT 5).par Pid.fanAirdrop 1 ≤ 100 * (10 * fxOne - 10 * fxOne))) = false),
  met (onFan [] fun f => { f with watch := some 125000 }) fun n => decide (n.up = true ∧
      n.core.faults.points = [] ∧ isFan1 1 = true ∧ (n.atT 5).tachPresent true = false ∧
      (n.atT 5).supervised true = true),
  met ({ node := (onFan [(pidAt Pid.fanPath 1, 0)] fun f => { f with edges := List.replicate 100 30000000000, lowSince := some 0 }).node.modCore fun k => { k with sound := duct 0 k.sound }, pending := [] }) fun n =>
      decide (n.up = true ∧ n.core.faults.points = [] ∧ isFan1 1 = true ∧ 0 + n.parN Pid.fanStoptime 1 * 1000000 ≤ (n.atT 30000000000).now ∧
      (n.atT 30000000000).tachPresent true = true ∧ (n.atT 30000000000).dutyPar Pid.fanMinduty true ≤ (n.fan true).duty ∧
      ((n.atT 30000000000).ductV true).isSome = true)] id = true := by
  decide +kernel

/-- States and operands that meet the hypotheses of `Obligations.FrontEndEvents`, part 1. -/
theorem witness_FrontEndEvents_parta : List.all [
  met (onFront 2 id) fun n => decide (n.up = true ∧ n.core.faults.points = [] ∧ n.mode 2 = .hall ∧
      5 < n.parN Pid.inHallflt 2 * 1000),
  met (onFront 2 fun f => { f with hall := { f.hall with sector := some 3, code := 6 } }) fun n =>
      decide (n.up = true ∧ n.core.faults.points = [] ∧ n.mode 2 = .hall ∧ n.parN Pid.inHallflt 2 * 1000 ≤ 5000000000 ∧
      (n.core.fronts.get 2).trk.running = true ∧ hallSector n.core.params 2 7 = none),
  met (onFront 2 fun f => { f with hall := { f.hall with sector := none, code := 1, invalidSince := some 4 } }) fun n =>
      decide (n.up = true ∧ n.core.faults.points = [] ∧ n.mode 2 = .hall ∧ n.parN Pid.inHallflt 2 * 1000 ≤ 5000000000 ∧
      (n.core.fronts.get 2).trk.running = true ∧ hallSector n.core.params 2 3 = some 1),
  met (onFront 2 fun f => { f with hall := { f.hall with sector := some 0, code := 1, invalidSince := some 4 } }) fun n =>
      decide (n.up = true ∧ n.core.faults.points = [] ∧ n.mode 2 = .hall ∧ n.parN Pid.inHallflt 2 * 1000 ≤ 5000000000 ∧
      (n.core.fronts.get 2).trk.running = true ∧ hallSector n.core.params 2 3 = some 1),
  met (onFront 2 fun f => { f with hall := { f.hall with sector := some 2, code := 1, invalidSince := some 4 } }) fun n =>
      decide (n.up = true ∧ n.core.faults.points = [] ∧ n.mode 2 = .hall ∧ n.parN Pid.inHallflt 2 * 1000 ≤ 5000000000 ∧
      (n.core.fronts.get 2).trk.running = true ∧ hallSector n.core.params 2 3 = some 1),
  met (onFront 2 fun f => { f with hall := { f.hall with sector := some 4, code := 1, invalidSince := some 4 } }) fun n =>
      decide (n.up = true ∧ n.core.faults.points = [] ∧ n.mode 2 = .hall ∧ n.parN Pid.inHallflt 2 * 1000 ≤ 5000000000 ∧
      (n.core.fronts.get 2).trk.running = true ∧ hallSector n.core.params 2 3 = some 1),
  met (onFront 2 fun f => { f with hall := { f.hall with invalidSince := some 5 } }) fun n =>
      decide (n.up = true ∧ n.core.faults.points = [] ∧ n.mode 2 = .hall ∧ 5 + n.parN Pid.inHallinv 2 * 1000 < (n.atT 100000000).now),
  met (onFront 2 fun f => { f with hall := { f.hall with stopAt := some 125000, v := 9 } }) fun n =>
      decide (n.up = true ∧ n.core.faults.points = [] ∧ n.mode 2 = .hall),
  met (onFront 3 fun f => { f with ssi := { f.ssi with reading := some k1.st } }) fun n => decide (n.up = true ∧
      n.core.faults.points = []),
  met (onFront 3 fun f => { f with ssi := { f.ssi with monoAt := some 125000, result := some { start := k1.st, lastBit := 5, word := .pass 6 } } }) fun n =>
      decide (n.up = true),
  met (onFront 0 fun f => { f with exc := { f.exc with on := true, rampEnd := some 125000 } }) fun n =>
      decide (n.up = true),
  met (onFront 0 fun f => { f with exc := { f.exc with on := true, stopAt := some 125000, startDue := true } }) fun n =>
      decide (n.up = true)] id = true := by
  decide +kernel

/-- States and operands that meet the hypotheses of `Obligations.FrontEndEvents`, part 2. -/
theorem witness_FrontEndEvents_partb : List.all [
  met (onFront 0 fun f => { f with exc := { f.exc with on := true, stopAt := some 125000, startDue := false } }) fun n =>
      decide (n.up = true),
  met (on fun n => ((tracked n).modCore fun k => { k with params := k.params.putAll [(pidAt Pid.excPhmode 2, 0), (pidAt Pid.excPhfix 2, 77)] }).modFront 2 fun f => { f with exc := { f.exc with meas := some { need := 0, num := 400, den := 1000 } }, trk := { f.trk with due := some (.carrier 1 2 3 4 true k2.st) } }) fun n =>
      decide (n.up = true),
  met (on fun n => ((tracked n).modCore fun k => { k with params := k.params.putAll [(pidAt Pid.excPhmode 2, 1), (pidAt Pid.excPhfix 2, 77)] }).modFront 2 fun f => { f with exc := { f.exc with meas := some { need := 0, num := 400, den := 1000 } }, trk := { f.trk with due := some (.carrier 1 2 3 4 true k2.st) } }) fun n =>
      decide (n.up = true),
  met (onFront 0 fun f => { f with trk := { f.trk with acq := .first, valid := false, due := some (.acquired { k2.st with e := 124000 }) } }) fun n =>
      decide (n.up = true),
  met (onFront 0 fun f => { f with trk := { f.trk with acq := .done, coast := true, due := some (.settled 0 true { k2.st with e := 187500 }) } }) fun n =>
      decide (n.up = true ∧ ((trkDiff (n.mode 2) 0 (trkPredict n.time.rate { k2.st with e := 187500 } (n.core.fronts.get 2).trk)).natAbs : Int) ≤ fxRat (n.par Pid.trkLoterr 2) 3600),
  met (onFront 0 fun f => { f with trk := { f.trk with acq := .done, due := some (.settled 0 false { k2.st with e := 187500 }) } }) fun n =>
      decide (n.up = true)] id = true := by
  decide +kernel

/-- Steps that meet the hypotheses of the tracking clauses of `Obligations.FrontEndEvents`: clean and unclean, and a shaft at constant
velocity that the exact step follows. -/
theorem witness_FrontEndEvents_step :
    (let t := { ((tracked live).core.fronts.get 2).trk with acq := .done }
     t.acq ≠ .first ∧ ((trkDiff .sincos 0 (trkPredict .k16 k2.st t)).natAbs : Int) ≤ fxRat (live.par Pid.trkLoterr 2) 3600) := by
  decide +kernel
theorem witness_FrontEndEvents_loop (k : Nat) : ((k + 1 : Rat), (1 : Rat)) = loopStep (1 / 2) (1 / 4) 1 (k + 1) k 1 := by
  simp [loopStep, Rat.sub_self, Rat.mul_zero, Rat.add_zero]

/-- States and operands that meet the hypotheses of `Obligations.TicksAdvance`. -/
theorem witness_TicksAdvance : List.all [
  met (on fun n => (tracked n).modCore fun k => { k with params := k.params.put Pid.tickSyncoutdiv 0 }) fun n =>
      decide (n.power.vcel = true ∧ n.power.cresetn = true ∧ n.time.placed = false ∧
      n.core.pool = [] ∧ n.host.rx = [] ∧ n.parN Pid.tickSyncoutdiv 0 = 0),
  met (on fun n => (tracked n).modCore fun k => { k with params := k.params.put Pid.tickSyncoutdiv 3 }) fun n =>
      decide (n.power.vcel = true ∧ n.power.cresetn = true ∧ n.time.placed = false ∧
      n.core.pool = [] ∧ n.host.rx = [] ∧ n.parN Pid.tickSyncoutdiv 0 = 3),
  met (on fun n => (tracked n).modCore fun k => { k with params := k.params.put Pid.tickSyncoutdiv 2 }) fun n =>
      decide (n.power.vcel = true ∧ n.power.cresetn = true ∧ n.time.placed = false ∧
      n.core.pool = [] ∧ n.host.rx = [] ∧ n.parN Pid.tickSyncoutdiv 0 = 2),
  met ({ node := { State.reset.node with power := { State.reset.node.power with vcel := true } }, pending := [] }) fun n =>
      decide (n.power.vcel = true ∧ n.power.cresetn = true ∧ n.time.placed = false ∧
      n.up = false),
  met (on fun n => (((tracked n).modCore fun k => { k with params := k.params.put (pidAt Pid.histDiv 2) 2 }).modFaults fun f => { f with log := [(({ entry := { code := .los, scope := 0, cls := 1, raised := false, injected := false, kind := 0, mark := .localTime, lt := 0, occurrences := 1, ctx := 0 }, formed := 0 } : PendingLog))] }).modPos 2 fun p => { p with hist := [k1] }) fun n =>
      decide (n.up = true ∧ n.core.faults.points = [] ∧ n.injecting .logWrite 0xFF = false ∧ n.time.k48 % n.parN Pid.histDiv 2 = 0)] id = true := by
  decide +kernel

/-- States and operands that meet the hypotheses of `Obligations.ScheduledCommandsCommitAtTheirTick`. -/
theorem witness_ScheduledCommandsCommitAtTheirTick : List.all [
  met (on fun n => (tracked n).modCore fun k => { k with pool := [{ slot := 3, order := 9, client := .line 7, packet := asRow .ping (pk [1, 2, 3] 0), scheduled := true, due := 3, phase := .waiting }] }) fun n =>
      decide (n.power.vcel = true ∧ n.power.cresetn = true ∧ n.time.placed = false ∧
      n.up = true ∧ n.core.running ≠ .boot ∧ n.host.rx = [] ∧ (∀ c : Ch, (n.core.slots.get c).active = none))] id = true := by
  decide +kernel

/-- States and operands that meet the hypotheses of `Obligations.HostPort`, part 1. -/
theorem witness_HostPort_parta : List.all [
  met (on heading) fun n => decide (n.power.vcel = true ∧ n.power.cresetn = true),
  met (on fun n => n.modLine fun l => { l with role := .middle }) fun n => decide (n.power.vcel = true ∧
      n.power.cresetn = true ∧ n.heading = false),
  met (on id) fun n => decide (n.power.vcel = true ∧ n.power.cresetn = true ∧ packetOfBytes .host [1, 2, 3] = none),
  met ({ node := { State.reset.node with power := { State.reset.node.power with vcel := true } }, pending := [] }) fun n =>
      decide (n.power.vcel = true ∧ n.power.cresetn = true ∧ n.core.run = .held ∧ n.restart.updating = false ∧
      n.host.rx = [] ∧ n.host.overflow = [] ∧ (packetOfBytes .host (packetBytes ({ pk [1, 2] 0 with port := .host, opcode := 0, client := 0 }))).map (·.1) = some ({ pk [1, 2] 0 with port := .host, opcode := 0, client := 0 })),
  met (on id) fun n => decide (n.power.vcel = true ∧ n.power.cresetn = true ∧ n.up = true ∧
      n.core.drain = none ∧ (match (n.atT 5).judgePacket ({ pk [1, 2] 0 with port := .host, opcode := 0, client := 0 }) true (n.time.k48 + 1) with | .accept _ due _ side => decide (due = n.time.k48 + 1 ∧ side = .here) | _ => false) = true),
  met (on heading) fun n => decide (n.power.vcel = true ∧ n.power.cresetn = true ∧ n.heading = true),
  met (on heading) fun n => decide (n.power.vcel = true ∧ n.power.cresetn = true ∧ n.heading = true ∧
      (3 : Nat) ≤ n.parN Pid.lineCmdbytes 0),
  met (on fun n => (heading n).modCore fun k => { k with params := k.params.put Pid.lineOutlen 4 }) fun n =>
      decide (n.power.vcel = true ∧ n.power.cresetn = true ∧ n.heading = true ∧ (n.line.count - 1) * n.parN Pid.lineOutlen 0 = 8),
  met (on fun n => n.modHost fun h => { h with causes := 0x7F }) fun n => decide (n.power.vcel = true ∧
      n.power.cresetn = true),
  met (on fun n => n.modHost fun h => { h with replies := [{ opcode := 1, client := 0, tag := 1, green := false, final := true, replayed := false, more := false, status := 0, tick := 5, words := [7] }] }) fun n =>
      decide (n.power.vcel = true ∧ n.power.cresetn = true),
  met (on fun n => n.modHost fun h => { h with replies := [{ opcode := 1, client := 0, tag := 1, green := false, final := true, replayed := false, more := false, status := 0, tick := 5, words := [7] }, { opcode := 1, client := 0, tag := 1, green := false, final := true, replayed := false, more := false, status := 0, tick := 5, words := [7] }] }) fun n =>
      decide (n.power.vcel = true ∧ n.power.cresetn = true),
  met (on fun n => n.modHost fun h => { h with blocks := [[1, 2, 3], [4]] }) fun n => decide (n.power.vcel = true ∧
      n.power.cresetn = true)] id = true := by
  decide +kernel

/-- States and operands that meet the hypotheses of `Obligations.HostPort`, part 2. -/
theorem witness_HostPort_partb : List.all [
  met (on id) fun n => decide (n.power.vcel = true ∧ n.power.cresetn = true),
  met (on fun n => n.modHost fun h => { h with overrun := true }) fun n => decide (n.power.vcel = true ∧
      n.power.cresetn = true ∧ (n.atT 5).statusBytes.length = 16)] id = true := by
  decide +kernel

/-- States and operands that meet the hypotheses of `Obligations.LineCommands`, part 1. -/
theorem witness_LineCommands_parta : List.all [
  met (onHead id) fun n => decide (n.runsNow (withBits 0 2 0 (asRow .rollcall (pk [0] 0))) = true ∧
      n.heading = true),
  met (onLine id) fun n => decide (n.runsNow (withBits 0 2 0 (asRow .rollcall (pk [0] 0))) = true ∧
      n.heading = false),
  met (onHead id) fun n => decide (n.runsNow (withBits 0 2 1 (asRow .rollcall (pk [1, 55] 0))) = true ∧
      n.heading = true ∧ n.line.folded = false),
  met (onLine id) fun n => decide (n.runsNow (withBits 0 2 1 (asRow .rollcall (pk [1, 55] 0))) = true ∧
      n.heading = false),
  met ({ node := (onLine fun l => { l with lock := some (9, 4), outcome := some 2, rcSig := some 88 }).node.modCore fun k => { k with mode := .cask }, pending := [] }) fun n =>
      decide (n.runsNow (asRow .relock (pk [3] 0)) = true ∧ fld (pw (asRow .relock (pk [3] 0)) 0) 9 0 = n.hopCount),
  met ({ node := (onLine fun l => { l with lock := some (9, 4), outcome := some 2, rcSig := some 88 }).node.modCore fun k => { k with mode := .cask }, pending := [] }) fun n =>
      decide (n.runsNow (asRow .relock (pk [4] 0)) = true),
  met (onHead id) fun n => decide (n.runsNow (asRow .fold (pk [] 0)) = true ∧ n.line.folded = false),
  met (onHead fun l => { l with folded := true }) fun n => decide (n.runsNow (asRow .fold (pk [] 0)) = true),
  met (onLine id) fun n => decide (n.runsNow (asRow .fold (pk [] 0)) = true),
  met (onHead fun l => { l with folded := true }) fun n => decide (n.runsNow (asRow .unfold (pk [2] 0)) = true ∧
      n.heading = true ∧ n.cycleNo = 0),
  met (onHead fun l => { l with folded := true }) fun n => decide (n.runsNow (asRow .unfold (pk [65535] 0)) = true ∧
      n.heading = true ∧ n.cycleNo = 0),
  met (onHead fun l => { l with folded := true }) fun n => decide (n.runsNow (asRow .unfold (pk [1] 0)) = true ∧
      n.heading = true ∧ n.cycleNo = 0)] id = true := by
  decide +kernel

/-- States and operands that meet the hypotheses of `Obligations.LineCommands`, part 2. -/
theorem witness_LineCommands_partb : List.all [
  met (onHead fun l => { l with folded := true }) fun n => decide (n.runsNow (asRow .unfold (pk [65536] 0)) = true ∧
      n.heading = true ∧ n.cycleNo = 0),
  met (onHead fun l => { l with folded := true }) fun n => decide (n.runsNow (asRow .unfold (pk [0] 0)) = true ∧
      n.heading = true ∧ n.cycleNo = 0),
  met (onLine fun l => { l with delay := some (86920000 * fxOne), rt := some (399740000, 4), framesOk := 3, lossUp := 5, lossDn := 6, crcDn := 9 }) fun n =>
      decide (n.runsNow (asRow .lineStats (pk [] 0)) = true)] id = true := by
  decide +kernel

/-- States and operands that meet the hypotheses of `Obligations.FramesAreCheckedAndForwarded`. -/
theorem witness_FramesAreCheckedAndForwarded : List.all [
  met (onLine id) fun n => decide (n.power.vcel = true ∧ n.power.cresetn = true ∧ n.core.faults.points = [] ∧
      (n.atT 5).frameDir (hd .dn false .good) = none),
  met (onLine id) fun n => decide (n.power.vcel = true ∧ n.power.cresetn = true ∧ n.core.faults.points = [] ∧
      (n.atT 5).frameDir (hd .up false .other) = some false),
  met (onLine id) fun n => decide (n.power.vcel = true ∧ n.power.cresetn = true ∧ n.core.faults.points = [] ∧
      (n.atT 5).frameDir (hd .up false .badCrc) = some false),
  met (onLine id) fun n => decide (n.power.vcel = true ∧ n.power.cresetn = true ∧ n.core.faults.points = [] ∧
      (n.atT 5).frameDir (hd .dn true .other) = some true),
  met (onLine id) fun n => decide (n.power.vcel = true ∧ n.power.cresetn = true ∧ n.core.faults.points = [] ∧
      (n.atT 5).frameDir (hd .dn true .badCrc) = some true),
  met (onLine id) fun n => decide (n.power.vcel = true ∧ n.power.cresetn = true ∧ n.core.faults.points = [] ∧
      (n.atT 5).frameDir (hd .up false .good) = some false)] id = true := by
  decide +kernel

/-- States and operands that meet the hypotheses of `Obligations.FramesAtANode`, part 1. -/
theorem witness_FramesAtANode_parta : List.all [
  met (onLine id) fun n => decide (n.power.vcel = true ∧ n.power.cresetn = true ∧ n.core.faults.points = [] ∧
      n.heading = false ∧ (n.atT 5).frameDir (hd .up false .good) = some false ∧ (n.atT 5).turns (hd .up false .good) = false),
  met (onLine fun l => { l with rt := some (399740000, 49) }) fun n => decide (n.power.vcel = true ∧
      n.power.cresetn = true ∧ n.core.faults.points = [] ∧ n.heading = false ∧ (n.atT 5).frameDir (hd .up false .good) = some false),
  met (onLine fun l => { l with rt := some (399740000, 4294967295) }) fun n => decide (n.power.vcel = true ∧
      n.power.cresetn = true ∧ n.core.faults.points = [] ∧ n.heading = false ∧ (n.atT 5).frameDir (hd .up false .good) = some false),
  met (onLine fun l => { l with rt := some (399740000, 49), delay := some (86820000 * fxOne) }) fun n =>
      decide (n.power.vcel = true ∧ n.power.cresetn = true ∧ n.core.faults.points = [] ∧
      n.heading = false ∧ (n.atT 5).frameDir (hd .up false .good) = some false),
  met ({ node := (onLine fun l => { l with rt := some (399740000, 49) }).node.modTime fun t => { t with mark := .lineTime, lt := 5084915 }, pending := [] }) fun n =>
      decide (n.power.vcel = true ∧ n.power.cresetn = true ∧ n.core.faults.points = [] ∧
      n.heading = false ∧ (n.atT 5).frameDir (hd .up false .good) = some false),
  met ({ node := (onLine fun l => { l with rt := some (399740000, 49) }).node.modTime fun t => { t with mark := .lineTime, lt := 5084914 }, pending := [] }) fun n =>
      decide (n.power.vcel = true ∧ n.power.cresetn = true ∧ n.core.faults.points = [] ∧
      n.heading = false ∧ (n.atT 5).frameDir (hd .up false .good) = some false),
  met ({ node := (onLine fun l => { l with rt := some (399740000, 49) }).node.modTime fun t => { t with mark := .lineTime, lt := 5088910 }, pending := [] }) fun n =>
      decide (n.power.vcel = true ∧ n.power.cresetn = true ∧ n.core.faults.points = [] ∧
      n.heading = false ∧ (n.atT 5).frameDir (hd .up false .good) = some false),
  met (onLine id) fun n => decide (n.power.vcel = true ∧ n.power.cresetn = true ∧ n.core.faults.points = [] ∧
      n.heading = false ∧ (n.atT 5).frameDir (hd .up false .good) = some false ∧ cmdEntries ((bytesBE 2 3 ++ bytesBE 2 (packetBytes ({ pk [1, 2] 0 with opcode := 0 })).length ++ packetBytes ({ pk [1, 2] 0 with opcode := 0 }))).length ((bytesBE 2 3 ++ bytesBE 2 (packetBytes ({ pk [1, 2] 0 with opcode := 0 })).length ++ packetBytes ({ pk [1, 2] 0 with opcode := 0 }))) = [(3, packetBytes ({ pk [1, 2] 0 with opcode := 0 }))] ∧
      ((((n.atT 5).checkFrame (hd .up false .good) false).2.takeHeader (hd .up false .good) false).send [{ typ := 0x03, hdr := (n.atT 5).fwdHdr (hd .up false .good) false .good, payload := ((bytesBE 2 3 ++ bytesBE 2 (packetBytes ({ pk [1, 2] 0 with opcode := 0 })).length ++ packetBytes ({ pk [1, 2] 0 with opcode := 0 }))) }]).addressed 3 = true),
  met (onLine id) fun n => decide (n.power.vcel = true ∧ n.power.cresetn = true ∧ n.core.faults.points = [] ∧
      n.heading = false ∧ (n.atT 5).frameDir (hd .up false .good) = some false ∧ cmdEntries ((bytesBE 2 4 ++ bytesBE 2 (packetBytes ({ pk [1, 2] 0 with opcode := 0 })).length ++ packetBytes ({ pk [1, 2] 0 with opcode := 0 }))).length ((bytesBE 2 4 ++ bytesBE 2 (packetBytes ({ pk [1, 2] 0 with opcode := 0 })).length ++ packetBytes ({ pk [1, 2] 0 with opcode := 0 }))) = [(4, packetBytes ({ pk [1, 2] 0 with opcode := 0 }))] ∧
      ((((n.atT 5).checkFrame (hd .up false .good) false).2.takeHeader (hd .up false .good) false).send [{ typ := 0x03, hdr := (n.atT 5).fwdHdr (hd .up false .good) false .good, payload := ((bytesBE 2 4 ++ bytesBE 2 (packetBytes ({ pk [1, 2] 0 with opcode := 0 })).length ++ packetBytes ({ pk [1, 2] 0 with opcode := 0 }))) }]).addressed 4 = false),
  met (onLine id) fun n => decide (n.power.vcel = true ∧ n.power.cresetn = true ∧ n.core.faults.points = [] ∧
      n.heading = false ∧ (n.atT 5).frameDir (hd .up false .good) = some false ∧ cmdEntries ((bytesBE 2 1027 ++ bytesBE 2 (packetBytes ({ pk [1, 2] 0 with opcode := 0 })).length ++ packetBytes ({ pk [1, 2] 0 with opcode := 0 }))).length ((bytesBE 2 1027 ++ bytesBE 2 (packetBytes ({ pk [1, 2] 0 with opcode := 0 })).length ++ packetBytes ({ pk [1, 2] 0 with opcode := 0 }))) = [(1027, packetBytes ({ pk [1, 2] 0 with opcode := 0 }))] ∧
      ((((n.atT 5).checkFrame (hd .up false .good) false).2.takeHeader (hd .up false .good) false).send [{ typ := 0x03, hdr := (n.atT 5).fwdHdr (hd .up false .good) false .good, payload := ((bytesBE 2 1027 ++ bytesBE 2 (packetBytes ({ pk [1, 2] 0 with opcode := 0 })).length ++ packetBytes ({ pk [1, 2] 0 with opcode := 0 }))) }]).addressed 1027 = true),
  met (onLine id) fun n => decide (n.power.vcel = true ∧ n.power.cresetn = true ∧ n.core.faults.points = [] ∧
      n.heading = false ∧ (n.atT 5).frameDir (hd .up false .good) = some false ∧ cmdEntries ((bytesBE 2 1028 ++ bytesBE 2 (packetBytes ({ pk [1, 2] 0 with opcode := 0 })).length ++ packetBytes ({ pk [1, 2] 0 with opcode := 0 }))).length ((bytesBE 2 1028 ++ bytesBE 2 (packetBytes ({ pk [1, 2] 0 with opcode := 0 })).length ++ packetBytes ({ pk [1, 2] 0 with opcode := 0 }))) = [(1028, packetBytes ({ pk [1, 2] 0 with opcode := 0 }))] ∧
      ((((n.atT 5).checkFrame (hd .up false .good) false).2.takeHeader (hd .up false .good) false).send [{ typ := 0x03, hdr := (n.atT 5).fwdHdr (hd .up false .good) false .good, payload := ((bytesBE 2 1028 ++ bytesBE 2 (packetBytes ({ pk [1, 2] 0 with opcode := 0 })).length ++ packetBytes ({ pk [1, 2] 0 with opcode := 0 }))) }]).addressed 1028 = false),
  met (onLine fun l => { l with cycMiss := 4 }) fun n => decide (n.power.vcel = true ∧
      n.power.cresetn = true ∧ n.core.faults.points = [] ∧ n.heading = false ∧ (n.atT 5).frameDir (hd .up false .good) = some false ∧
      (n.atT 5).turns (hd .up false .good) = false)] id = true := by
  decide +kernel

/-- States and operands that meet the hypotheses of `Obligations.FramesAtANode`, part 2. -/
theorem witness_FramesAtANode_partb : List.all [
  met (onLine fun l => { l with roleDn := false, role := .last, cycMiss := 4 }) fun n => decide (n.power.vcel = true ∧
      n.power.cresetn = true ∧ n.core.faults.points = [] ∧ n.heading = false ∧ (n.atT 5).frameDir (hd .up false .good) = some false ∧
      (n.atT 5).turns (hd .up false .good) = true),
  met ({ node := (onLine fun l => { l with lock := some (9, 5) }).node.modCore fun k => { k with mode := .cask }, pending := [] }) fun n =>
      decide (n.power.vcel = true ∧ n.power.cresetn = true ∧ n.core.faults.points = [] ∧
      n.heading = false ∧ (n.atT 5).frameDir (hd .up false .good) = some false),
  met ({ node := (onLine fun l => { l with roleDn := false, role := .last, lock := some (9, 5) }).node.modCore fun k => { k with mode := .cask }, pending := [] }) fun n =>
      decide (n.power.vcel = true ∧ n.power.cresetn = true ∧ n.core.faults.points = [] ∧
      n.heading = false ∧ (n.atT 5).frameDir (hd .up false .good) = some false),
  met ({ node := (onLine fun l => { l with lock := some (9, 5) }).node.modCore fun k => { k with mode := .track }, pending := [] }) fun n =>
      decide (n.power.vcel = true ∧ n.power.cresetn = true ∧ n.core.faults.points = [] ∧
      n.heading = false ∧ (n.atT 5).frameDir (hd .up false .good) = some false),
  met ({ node := (onLine fun l => { l with roleDn := false, role := .last, lock := some (9, 5) }).node.modCore fun k => { k with mode := .track }, pending := [] }) fun n =>
      decide (n.power.vcel = true ∧ n.power.cresetn = true ∧ n.core.faults.points = [] ∧
      n.heading = false ∧ (n.atT 5).frameDir (hd .up false .good) = some false),
  met (onLine id) fun n => decide (n.power.vcel = true ∧ n.power.cresetn = true ∧ n.core.faults.points = [] ∧
      n.heading = false ∧ (n.atT 5).frameDir (hd .up false .good) = some false),
  met ({ node := (onLine id).node.modCore fun k => { k with fw := some { client := .line 7, id := 0xC31, length := 4096, slot := true } }, pending := [] }) fun n =>
      decide (n.power.vcel = true ∧ n.power.cresetn = true ∧ n.core.faults.points = [] ∧
      n.heading = false ∧ (n.atT 5).frameDir (hd .up false .good) = some false ∧ n.core.fw.isSome = true),
  met (onLine id) fun n => decide (n.power.vcel = true ∧ n.power.cresetn = true ∧ n.core.faults.points = [] ∧
      (n.atT 5).frameDir (hd .dn true .good) = some true ∧ n.heading = false ∧ (n.atT 5).turnedHere (hd .dn true .good) = false),
  met (onLine fun l => { l with mismatch := true }) fun n => decide (n.power.vcel = true ∧
      n.power.cresetn = true ∧ n.core.faults.points = [] ∧ (n.atT 5).frameDir (hd .dn true .good) = some true ∧
      n.heading = false),
  met (onLine id) fun n => decide (n.power.vcel = true ∧ n.power.cresetn = true ∧ n.core.faults.points = [] ∧
      (n.atT 5).frameDir (hd .dn true .good) = some true ∧ n.heading = false)] id = true := by
  decide +kernel

/-- States and operands that meet the hypotheses of `Obligations.CyclesAndFolding`, part 1. -/
theorem witness_CyclesAndFolding_parta : List.all [
  met (onHead id) fun n => decide (n.runsNow (asRow .fold (pk [] 0)) = true ∧ n.line.folded = false),
  met (onHead fun l => { l with folded := true }) fun n => decide (n.runsNow (asRow .fold (pk [] 0)) = true),
  met (onLine id) fun n => decide (n.runsNow (asRow .fold (pk [] 0)) = true),
  met (onHead fun l => { l with folded := true }) fun n => decide (n.runsNow (asRow .unfold (pk [2] 0)) = true ∧
      n.heading = true ∧ n.cycleNo = 0),
  met (onHead fun l => { l with folded := true }) fun n => decide (n.runsNow (asRow .unfold (pk [65535] 0)) = true ∧
      n.heading = true ∧ n.cycleNo = 0),
  met (onHead fun l => { l with folded := true }) fun n => decide (n.runsNow (asRow .unfold (pk [1] 0)) = true ∧
      n.heading = true ∧ n.cycleNo = 0),
  met (onHead fun l => { l with folded := true }) fun n => decide (n.runsNow (asRow .unfold (pk [65536] 0)) = true ∧
      n.heading = true ∧ n.cycleNo = 0),
  met (onHead fun l => { l with folded := true }) fun n => decide (n.runsNow (asRow .unfold (pk [0] 0)) = true ∧
      n.heading = true ∧ n.cycleNo = 0),
  met (onLine fun l => { l with linkUp := false, syncs := 3, rt := some (1, 2) }) fun n => decide (n.power.vcel = true ∧
      n.power.cresetn = true ∧ n.core.faults.points = []),
  met (onLine id) fun n => decide (n.power.vcel = true ∧ n.power.cresetn = true ∧ n.core.faults.points = []),
  met (onLine fun l => { l with linkDn := false }) fun n => decide (n.power.vcel = true ∧
      n.power.cresetn = true ∧ n.core.faults.points = []),
  met (onHead fun l => { l with cyclesSent := true, retCame := false, rt0 := 99 }) fun n => decide (n.power.vcel = true ∧
      n.power.cresetn = true ∧ n.core.faults.points = [] ∧ n.heading = true ∧ (n.atT 0).lt % (n.atT 0).cycleLen = 0 ∧
      (n.atT 0).line.cycStart = none)] id = true := by
  decide +kernel

/-- States and operands that meet the hypotheses of `Obligations.CyclesAndFolding`, part 2. -/
theorem witness_CyclesAndFolding_partb : List.all [
  met (onHead fun l => { l with rolls := [{ kind := .survey }] }) fun n => decide (n.power.vcel = true ∧
      n.power.cresetn = true ∧ n.core.faults.points = [] ∧ n.heading = true ∧ (n.atT 0).lt % (n.atT 0).cycleLen = 0 ∧
      (n.atT 0).line.cycStart = none),
  met (onLine fun l => { l with cycMiss := 1000 }) fun n => decide (n.power.vcel = true ∧
      n.power.cresetn = true ∧ n.core.faults.points = [] ∧ n.up = true ∧ n.parN Pid.lineCycto 0 ≤ 1000),
  met ({ node := (onHead fun l => { l with rolls := [{ kind := .survey, ops := [9], sent := true }] }).node.modCore fun k => { k with pool := [{ opFor 0x71 [0] 0 with order := 9 }] }, pending := [] }) fun n =>
      decide (n.power.vcel = true ∧ n.power.cresetn = true ∧ n.core.faults.points = [] ∧
      (n.atT 5).frameDir (hd .dn true .good) = some true ∧ n.heading = true),
  met (onHead fun l => { l with foldOps := [9] }) fun n => decide (n.power.vcel = true ∧
      n.power.cresetn = true ∧ n.core.faults.points = [] ∧ n.up = true),
  met (onLine fun l => { l with role := .tailHead, roleDn := false, linkDn := false, foldOps := [9] }) fun n =>
      decide (n.power.vcel = true ∧ n.power.cresetn = true ∧ n.core.faults.points = [] ∧
      n.up = true ∧ n.line.role ≠ .head),
  met (onHead fun l => { l with folded := true, unfoldAt := some (0, [9]), linkUp := false }) fun n =>
      decide (n.power.vcel = true ∧ n.power.cresetn = true ∧ n.core.faults.points = [] ∧
      (n.atT 5).cycleNo = 0 ∧ n.parN Pid.lineHeaden 0 = 1)] id = true := by
  decide +kernel

set_option maxRecDepth 100000 in
/-- States and operands that meet the hypotheses of `Obligations.LanesAndAdoption`, part 1. -/
theorem witness_LanesAndAdoption_parta : List.all [
  met (onLane .track fun l => { l with upLink := false }) fun n => decide (n.power.vcel = true ∧
      n.power.cresetn = true ∧ n.up = true),
  met (onLane .track fun l => { l with refreshDn := some { port := .dn }, beaconDn := some bcn, adoption := some { op := none, port := .up, transfer := { port := .up } } }) fun n =>
      decide (n.power.vcel = true ∧ n.power.cresetn = true ∧ n.up = true),
  met (onLane .track fun l => { l with refreshDn := some { port := .dn }, beaconDn := some bcn, adoption := some { op := none, port := .dn, transfer := { port := .dn } } }) fun n =>
      decide (n.power.vcel = true ∧ n.power.cresetn = true ∧ n.up = true),
  met (onLane .tandem fun l => { l with state := .lower, isLower := true }) fun n => decide (n.power.vcel = true ∧
      n.power.cresetn = true ∧ n.up = true),
  met (onLane .track fun l => { l with sending := true, out := [{ port := l.partnerPort, seq := 1, msg := .split, tick := 0 }, { port := l.partnerPort, seq := 2, msg := .split, tick := 1 }] }) fun n =>
      decide (n.power.vcel = true ∧ n.power.cresetn = true ∧ n.up = true),
  met (onLane .track id) fun n => decide (n.power.vcel = true ∧ n.power.cresetn = true ∧
      n.up = true),
  met (onLane .track fun l => { l with refreshUp := some { port := .up, bytes := configBytes cfg4, header := some (part4 0 [] true) } }) fun n =>
      decide (n.power.vcel = true ∧ n.power.cresetn = true ∧ n.up = true ∧ ({ port := .up, bytes := configBytes cfg4, header := some (part4 0 [] true) } : Transfer).shadow = some sh4),
  met (onLane .track fun l => { l with refreshUp := some { port := .up, bytes := [1], header := some (part4 0 [] true) } }) fun n =>
      decide (n.power.vcel = true ∧ n.power.cresetn = true ∧ n.up = true ∧ ({ port := .up, bytes := [1], header := some (part4 0 [] true) } : Transfer).shadow = none),
  met ({ node := (onLane .cask fun l => { l with beaconUp := some bcn, beaconDn := some { bcn with shadowGen := 3 } }).node.modLine fun l => { l with lock := none, outcome := some 0 }, pending := [] }) fun n =>
      decide (n.power.vcel = true ∧ n.power.cresetn = true ∧ n.up = true ∧ (n.atT 5).eligible .up = some 4 ∧
      (n.atT 5).adoptSide 0 = some .up),
  met ({ node := (onLane .cask fun l => { l with beaconUp := some bcn, beaconDn := some { bcn with shadowGen := 3 } }).node.modLine fun l => { l with lock := none, outcome := some 0 }, pending := [] }) fun n =>
      decide (n.power.vcel = true ∧ n.power.cresetn = true ∧ n.up = true ∧ ((n.atT 5).eligible .dn).isSome = true ∧
      (n.atT 5).adoptSide 0 = some .up),
  met (onLane .cask fun l => { l with adoption := some { op := none, port := .up, transfer := { port := .up, bytes := configBytes cfg4, header := some (part4 0 [] true) } } }) fun n =>
      decide (n.power.vcel = true ∧ n.power.cresetn = true ∧ n.up = true ∧ n.mayRun = true ∧
      configOfBytes sh4.bytes = some cfg4),
  met (onLane .track fun l => { l with gotUp := some 5 }) fun n => decide (n.power.vcel = true ∧
      n.power.cresetn = true ∧ n.up = true)] id = true := by
  decide +kernel

set_option maxRecDepth 100000 in
/-- States and operands that meet the hypotheses of `Obligations.LanesAndAdoption`, part 2. -/
theorem witness_LanesAndAdoption_partb : List.all [
  met (onLane .track id) fun n => decide (n.power.vcel = true ∧ n.power.cresetn = true ∧
      n.up = true ∧ shadowDiffers (n.shadowOf .up) bcn = true),
  met ({ node := (onLane .track id).node.modStore fun x => { x with shadowUp := some { ownerPos := 4, ownerSig := 77, generation := 9, crc := 8, bytes := [] } }, pending := [] }) fun n =>
      decide (n.power.vcel = true ∧ n.power.cresetn = true ∧ n.up = true),
  met ({ node := (onLane .track id).node.modStore fun x => { x with shadowUp := some sh4, configs := ⟨cfg4, { cfg4 with generation := 5 }⟩ }, pending := [] }) fun n =>
      decide (n.power.vcel = true ∧ n.power.cresetn = true ∧ n.up = true ∧ (shadowParts sh4 (sh4.bytes.length + 1) 0 sh4.bytes).flatMap ShadowPart.bytes = sh4.bytes),
  met ({ node := (onLane .track id).node.modStore fun x => { x with shadowUp := some sh4, configs := ⟨cfg4, { cfg4 with generation := 5 }⟩ }, pending := [] }) fun n =>
      decide (n.power.vcel = true ∧ n.power.cresetn = true ∧ n.up = true ∧ (shadowParts n.ownShadow (n.ownShadow.bytes.length + 1) 0 n.ownShadow.bytes).flatMap ShadowPart.bytes = n.ownShadow.bytes),
  met (onLane .track fun l => { l with refreshUp := some { port := .up, bytes := [6, 7] } }) fun n =>
      decide (n.power.vcel = true ∧ n.power.cresetn = true ∧ n.up = true),
  met (onLane .cask fun l => { l with adoption := some { op := none, port := .up, transfer := { port := .up, bytes := [6, 7] } } }) fun n =>
      decide (n.power.vcel = true ∧ n.power.cresetn = true ∧ n.up = true),
  met ({ node := (onLane .cask fun l => { l with beaconUp := some bcn, beaconDn := some { bcn with shadowGen := 3 } }).node.modLine fun l => { l with lock := none, outcome := some 0 }, pending := [] }) fun n =>
      decide (n.runsNow (asRow .adopt (pk [3] 0)) = true ∧ n.lane.adoption = none ∧
      n.adoptSide 0 = some .up ∧ n.lockState ≠ 1),
  met ({ node := (onLane .cask fun l => { l with beaconUp := some bcn, beaconDn := some { bcn with shadowGen := 3 } }).node.modLine fun l => { l with lock := none, outcome := some 0 }, pending := [] }) fun n =>
      decide (n.runsNow (asRow .adopt (pk [4] 0)) = true),
  met (onLane .track id) fun n => decide (n.power.vcel = true ∧ n.power.cresetn = true ∧
      n.up = true ∧ (n.atT 5).answerForm (freqOf 2 live) (.line 7) = 0),
  met (onLane .track id) fun n => decide (n.power.vcel = true ∧ n.power.cresetn = true ∧
      n.up = true ∧ (n.atT 5).answerForm (freqOf 9 live) (.line 7) = 5),
  met (onLane .track fun l => { l with state := .forming, isLower := true, kf := 500 }) fun n =>
      decide (n.power.vcel = true ∧ n.power.cresetn = true ∧ n.up = true),
  met (onLane .tandem fun l => { l with state := .upper, isLower := false, partnerPos := 2, sending := true }) fun n =>
      decide (n.power.vcel = true ∧ n.power.cresetn = true ∧ n.up = true ∧ n.isUpper = true)] id = true := by
  decide +kernel

/-- States and operands that meet the hypotheses of `Obligations.LanesAndAdoption`, part 3. -/
theorem witness_LanesAndAdoption_partc : List.all [
  met ({ node := (onLane .tandem fun l => { l with state := .lower, isLower := true, partnerPos := 4, sending := true }).node.modCore fun k => { k with pool := [pairOp 0x30 .sent] }, pending := [] }) fun n =>
      decide (n.power.vcel = true ∧ n.power.cresetn = true ∧ n.up = true ∧ n.isLower = true),
  met (onLane .tandem fun l => { l with state := .lower, isLower := true, partnerPos := 4, sending := true, remoteHops := [(8, .line 7, 1, 0), (9, .line 7, 1, 0)] }) fun n =>
      decide (n.power.vcel = true ∧ n.power.cresetn = true ∧ n.up = true ∧ n.isLower = true),
  met (onLane .tandem fun l => { l with state := .lower, isLower := true, partnerPos := 4, sending := true }) fun n =>
      decide (n.power.vcel = true ∧ n.power.cresetn = true ∧ n.up = true ∧ n.isLower = true)] id = true := by
  decide +kernel

/-- States and operands that meet the hypotheses of `Obligations.TandemPair`, part 1. -/
theorem witness_TandemPair_parta : List.all [
  met (onLane .track id) fun n => decide (n.power.vcel = true ∧ n.power.cresetn = true ∧
      n.up = true),
  met (onLane .track fun l => { l with upLink := false }) fun n => decide (n.power.vcel = true ∧
      n.power.cresetn = true ∧ n.up = true),
  met (onLane .track fun l => { l with gotUp := some 5 }) fun n => decide (n.power.vcel = true ∧
      n.power.cresetn = true ∧ n.up = true),
  met (onLane .track id) fun n => decide (n.runsNow (asRow .tandemForm (pk [4] 0)) = true ∧
      n.lane.state ≠ .forming ∧ n.formReasonOf (.line 7) (n.lane.dnLink && 4 == n.lockPos + 1) true = 0),
  met (onLane .track id) fun n => decide (n.runsNow (asRow .tandemForm (pk [5] 0)) = true ∧
      n.formReasonOf (.line 7) (n.lane.dnLink && 5 == n.lockPos + 1) true = 5),
  met (onLane .tandem fun l => { l with state := .lower, isLower := true, partnerPos := 4, sending := true }) fun n =>
      decide (n.runsNow (asRow .tandemSplit (pk [] 0)) = true ∧ n.lane.splitting = false),
  met (onLane .tandem fun l => { l with state := .lower, isLower := true, partnerPos := 4, sending := true, splitting := true }) fun n =>
      decide (n.runsNow (asRow .tandemSplit (pk [] 0)) = true ∧ n.lane.splitting = true),
  met (onLane .tandem fun l => { l with state := .lower, isLower := true, partnerPos := 4, sending := true }) fun n =>
      decide (n.runsNow (asRow .tandemStatus (pk [] 0)) = true),
  met (onLane .track id) fun n => decide (n.power.vcel = true ∧ n.power.cresetn = true ∧
      n.up = true ∧ (n.atT 5).answerForm (freqOf 2 live) (.line 7) = 0),
  met (onLane .track id) fun n => decide (n.power.vcel = true ∧ n.power.cresetn = true ∧
      n.up = true ∧ (n.atT 5).answerForm (freqOf 9 live) (.line 7) = 5),
  met (onLane .track fun l => { l with state := .forming, isLower := true, kf := 500 }) fun n =>
      decide (n.power.vcel = true ∧ n.power.cresetn = true ∧ n.up = true),
  met (onLane .tandem fun l => { l with state := .upper, isLower := false, partnerPos := 2, sending := true }) fun n =>
      decide (n.power.vcel = true ∧ n.power.cresetn = true ∧ n.up = true ∧ n.isUpper = true)] id = true := by
  decide +kernel

/-- States and operands that meet the hypotheses of `Obligations.TandemPair`, part 2. -/
theorem witness_TandemPair_partb : List.all [
  met ({ node := (onLane .tandem fun l => { l with state := .lower, isLower := true, partnerPos := 4, sending := true }).node.modCore fun k => { k with pool := [pairOp 0x30 .sent] }, pending := [] }) fun n =>
      decide (n.power.vcel = true ∧ n.power.cresetn = true ∧ n.up = true ∧ n.isLower = true),
  met (onLane .tandem fun l => { l with state := .lower, isLower := true, partnerPos := 4, sending := true, remoteHops := [(8, .line 7, 1, 0), (9, .line 7, 1, 0)] }) fun n =>
      decide (n.power.vcel = true ∧ n.power.cresetn = true ∧ n.up = true ∧ n.isLower = true),
  met (onLane .tandem fun l => { l with state := .lower, isLower := true, partnerPos := 4, sending := true }) fun n =>
      decide (n.power.vcel = true ∧ n.power.cresetn = true ∧ n.up = true ∧ n.isLower = true),
  met ({ node := (onLane .track fun l => { l with state := .forming, isLower := true, kf := 4, formReason := some 6, formOp := some 9 }).node.modCore fun k => { k with pool := [opFor 0xB0 [4] 0] }, pending := [] }) fun n =>
      decide (n.power.vcel = true ∧ n.power.cresetn = true ∧ n.up = true ∧ n.lane.kf ≤ n.time.k48 + 4),
  met ({ node := (onLane .track fun l => { l with state := .forming, isLower := true, kf := 4, formOp := some 9 }).node.modCore fun k => { k with pool := [opFor 0xB0 [4] 0] }, pending := [] }) fun n =>
      decide (n.power.vcel = true ∧ n.power.cresetn = true ∧ n.up = true ∧ n.lane.kf ≤ n.time.k48 + 4),
  met (onLane .track fun l => { l with state := .forming, isLower := true, kf := 2, sending := true }) fun n =>
      decide (n.power.vcel = true ∧ n.power.cresetn = true ∧ n.up = true),
  met (onLane .track fun l => { l with state := .forming, isLower := true, kf := 0, sending := true, sentReady := true, gotReady := true, survivor := true }) fun n =>
      decide (n.power.vcel = true ∧ n.power.cresetn = true ∧ n.up = true),
  met (onLane .track fun l => { l with state := .forming, isLower := true, kf := 0, sending := true, sentReady := true, gotReady := false }) fun n =>
      decide (n.power.vcel = true ∧ n.power.cresetn = true ∧ n.up = true),
  met (onLane .track fun l => { l with state := .forming, isLower := false, kf := 2, sending := true }) fun n =>
      decide (n.power.vcel = true ∧ n.power.cresetn = true ∧ n.up = true),
  met (onLane .track fun l => { l with state := .forming, isLower := false, kf := 0, sending := true, sentReady := true, gotReady := true, survivor := true }) fun n =>
      decide (n.power.vcel = true ∧ n.power.cresetn = true ∧ n.up = true),
  met (onLane .track fun l => { l with state := .forming, isLower := false, kf := 0, sending := true, sentReady := true, gotReady := false }) fun n =>
      decide (n.power.vcel = true ∧ n.power.cresetn = true ∧ n.up = true),
  met (onLane .tandem fun l => { l with state := .lower, isLower := true, partnerPos := 4, sending := true }) fun n =>
      decide (n.power.vcel = true ∧ n.power.cresetn = true ∧ n.up = true)] id = true := by
  decide +kernel

/-- States and operands that meet the hypotheses of `Obligations.TandemPair`, part 3. -/
theorem witness_TandemPair_partc : List.all [
  met (onLane .tandem fun l => { l with state := .lower, isLower := true, partnerPos := 4, sending := true }) fun n =>
      decide (n.power.vcel = true ∧ n.power.cresetn = true ∧ n.up = true ∧ tickPacketOk (let b : List Byte := [1, 0, 1, 0, 0, 0, 0, 0, 0, 0, 0, 0, 0, 0]; b ++ bytesBE 2 (crc16 b)) = true),
  met (onLane .tandem fun l => { l with state := .lower, isLower := true, partnerPos := 4, sending := true }) fun n =>
      decide (n.power.vcel = true ∧ n.power.cresetn = true ∧ n.up = true ∧ tickPacketOk (let b : List Byte := [1, 0, 3, 0, 0, 0, 0, 0, 0, 0, 0, 0, 0, 0]; b ++ bytesBE 2 (crc16 b)) = true ∧
      (tickPacketOf (let b : List Byte := [1, 0, 3, 0, 0, 0, 0, 0, 0, 0, 0, 0, 0, 0]; b ++ bytesBE 2 (crc16 b))).mode = 3 ∧
      byteAt (let b : List Byte := [1, 0, 3, 0, 0, 0, 0, 0, 0, 0, 0, 0, 0, 0]; b ++ bytesBE 2 (crc16 b)) 1 = n.time.k48 % 256),
  met (onLane .tandem fun l => { l with state := .lower, isLower := true, partnerPos := 4, sending := true, missRun := 2 }) fun n =>
      decide (n.power.vcel = true ∧ n.power.cresetn = true ∧ n.up = true),
  met (onLane .tandem fun l => { l with state := .lower, isLower := true, partnerPos := 4, sending := true, missRun := 1 }) fun n =>
      decide (n.power.vcel = true ∧ n.power.cresetn = true ∧ n.up = true),
  met ({ node := (onLane .tandem fun l => { l with state := .lower, isLower := true, partnerPos := 4, sending := true, splitting := true, leavingAt := some 4 }).node.modTime fun t => { t with k48 := 7 }, pending := [] }) fun n =>
      decide (n.power.vcel = true ∧ n.power.cresetn = true ∧ n.up = true)] id = true := by
  decide +kernel

/-- States and operands that meet the hypotheses of `Obligations.FirmwareAndStore`, part 1. -/
theorem witness_FirmwareAndStore_parta : List.all [
  met ({ node := ((inMode .cask id).node.modCore fun k => { k with nextOrder := 20 }).modStore fun x => { x with log := [] }, pending := [] }) fun n =>
      decide (n.runsNow (asRow .fwBegin (pk [4096 + 0xC31 * 2 ^ 19] 0)) = true ∧ n.targetSlot = true),
  met ({ node := ((inMode .cask id).node.modCore fun k => { k with nextOrder := 20, fw := some { client := .line 9, id := 0xC31, length := 64, slot := true } }).modStore fun x => { x with log := [] }, pending := [] }) fun n =>
      decide (n.runsNow (asRow .fwBegin (pk [4096 + 0xC31 * 2 ^ 19] 0)) = true),
  met ({ node := ((inMode .cask id).node.modCore fun k => { k with nextOrder := 20 }).modStore fun x => { x with log := [], images := x.images.set false { x.images.a with state := .trial } }, pending := [] }) fun n =>
      decide (n.runsNow (asRow .fwBegin (pk [4096 + 0xC31 * 2 ^ 19] 0)) = true),
  met ({ node := ((inMode .cask id).node.modCore fun k => { k with nextOrder := 20, fw := some { client := .line 7, id := 0xC31, length := 64, slot := true } }).modStore fun x => { x with log := [] }, pending := [] }) fun n =>
      decide (n.runsNow (asRow .fwBlock (pk [16 + 8 * 2 ^ 19, 0x0102030405, 0x0607080000] 0)) = true),
  met ({ node := ((inMode .cask id).node.modCore fun k => { k with nextOrder := 20 }).modStore fun x => { x with log := [] }, pending := [] }) fun n =>
      decide (n.runsNow (asRow .fwBlock (pk [16 + 8 * 2 ^ 19, 0x0102030405, 0x0607080000] 0)) = true),
  met ({ node := ((inMode .cask id).node.modCore fun k => { k with nextOrder := 20, fw := some { client := .line 7, id := 0xC31, length := 64, slot := true } }).modStore fun x => { x with log := [] }, pending := [] }) fun n =>
      decide (n.runsNow (asRow .fwBlock (pk [64 + 8 * 2 ^ 19, 0x0102030405, 0x0607080000] 0)) = true),
  met ({ node := ((inMode .cask id).node.modCore fun k => { k with nextOrder := 20 }).modStore fun x => { x with log := [] }, pending := [] }) fun n =>
      decide (n.runsNow (asRow .fwCommit (pk [] 0)) = true),
  met ({ node := ((inMode .cask id).node.modCore fun k => { k with nextOrder := 20, fw := some { client := .line 7, id := 0xC31, length := 64, slot := true } }).modStore fun x => { x with log := [] }, pending := [] }) fun n =>
      decide (n.runsNow (asRow .fwCommit (pk [] 0)) = true),
  met ({ node := ((inMode .cask id).node.modCore fun k => { k with nextOrder := 20 }).modStore fun x => { x with log := [] }, pending := [] }) fun n =>
      decide (n.runsNow (asRow .fwActivate (pk [] 0)) = true ∧ n.pendingImage = false),
  met ({ node := ((inMode .cask id).node.modCore fun k => { k with nextOrder := 20 }).modStore fun x => { x with log := [], images := x.images.set true { x.images.b with state := .pending } }, pending := [] }) fun n =>
      decide (n.runsNow (asRow .fwActivate (pk [] 0)) = true ∧ n.pendingImage = true),
  met ({ node := ((inMode .track id).node.modCore fun k => { k with nextOrder := 20 }).modStore fun x => { x with log := [], configs := ⟨cfg4, { cfg4 with generation := 5 }⟩ }, pending := [] }) fun n =>
      decide (n.runsNow (asRow .storeRead (pk [2 + 0 * 16, 40] 0)) = true ∧ ((2 ≤ 9 ∧ 0 + 40 ≤ regionSize 2) ↔ True)),
  met ({ node := ((inMode .track id).node.modCore fun k => { k with nextOrder := 20 }).modStore fun x => { x with log := [], configs := ⟨cfg4, { cfg4 with generation := 5 }⟩ }, pending := [] }) fun n =>
      decide (n.runsNow (asRow .storeRead (pk [8 + 16 * 16, 8] 0)) = true ∧ ((8 ≤ 9 ∧ 16 + 8 ≤ regionSize 8) ↔ True))] id = true := by
  decide +kernel

set_option maxRecDepth 100000 in
/-- States and operands that meet the hypotheses of `Obligations.FirmwareAndStore`, part 2. -/
theorem witness_FirmwareAndStore_partb : List.all [
  met ({ node := ((inMode .track id).node.modCore fun k => { k with nextOrder := 20 }).modStore fun x => { x with log := [], configs := ⟨cfg4, { cfg4 with generation := 5 }⟩ }, pending := [] }) fun n =>
      decide (n.runsNow (asRow .storeRead (pk [7 + 0 * 16, 64] 0)) = true ∧ ((7 ≤ 9 ∧ 0 + 64 ≤ regionSize 7) ↔ True)),
  met ({ node := ((inMode .track id).node.modCore fun k => { k with nextOrder := 20 }).modStore fun x => { x with log := [], configs := ⟨cfg4, { cfg4 with generation := 5 }⟩ }, pending := [] }) fun n =>
      decide (n.runsNow (asRow .storeRead (pk [4 + 0 * 16, 10] 0)) = true ∧ ((4 ≤ 9 ∧ 0 + 10 ≤ regionSize 4) ↔ True)),
  met ({ node := ((inMode .track id).node.modCore fun k => { k with nextOrder := 20 }).modStore fun x => { x with log := [], configs := ⟨cfg4, { cfg4 with generation := 5 }⟩ }, pending := [] }) fun n =>
      decide (n.runsNow (asRow .storeRead (pk [5 + 0 * 16, 10] 0)) = true ∧ ((5 ≤ 9 ∧ 0 + 10 ≤ regionSize 5) ↔ True)),
  met ({ node := ((inMode .track id).node.modCore fun k => { k with nextOrder := 20 }).modStore fun x => { x with log := [], configs := ⟨cfg4, { cfg4 with generation := 5 }⟩ }, pending := [] }) fun n =>
      decide (n.runsNow (asRow .storeRead (pk [0 + 5 * 16, 10] 0)) = true ∧ ((0 ≤ 9 ∧ 5 + 10 ≤ regionSize 0) ↔ True)),
  met ({ node := ((inMode .track id).node.modCore fun k => { k with nextOrder := 20 }).modStore fun x => { x with log := [], configs := ⟨cfg4, { cfg4 with generation := 5 }⟩ }, pending := [] }) fun n =>
      decide (n.runsNow (asRow .storeRead (pk [9 + 0 * 16, 3] 0)) = true ∧ ((9 ≤ 9 ∧ 0 + 3 ≤ regionSize 9) ↔ True)),
  met ({ node := ((inMode .track id).node.modCore fun k => { k with nextOrder := 20 }).modStore fun x => { x with log := [], configs := ⟨cfg4, { cfg4 with generation := 5 }⟩ }, pending := [] }) fun n =>
      decide (n.runsNow (asRow .storeRead (pk [6 + 0 * 16, 7] 0)) = true ∧ ((6 ≤ 9 ∧ 0 + 7 ≤ regionSize 6) ↔ True)),
  met ({ node := ((inMode .track id).node.modCore fun k => { k with nextOrder := 20 }).modStore fun x => { x with log := [], configs := ⟨cfg4, { cfg4 with generation := 5 }⟩ }, pending := [] }) fun n =>
      decide (n.runsNow (asRow .storeRead (pk [10 + 0 * 16, 5] 0)) = true ∧ ((10 ≤ 9 ∧ 0 + 5 ≤ regionSize 10) ↔ False)),
  met ({ node := ((inMode .track id).node.modCore fun k => { k with nextOrder := 20 }).modStore fun x => { x with log := [], configs := ⟨cfg4, { cfg4 with generation := 5 }⟩ }, pending := [] }) fun n =>
      decide (n.runsNow (asRow .storeRead (pk [9 + 4000 * 16, 200] 0)) = true ∧ ((9 ≤ 9 ∧ 4000 + 200 ≤ regionSize 9) ↔ False)),
  met ({ node := ((inMode .cask id).node.modCore fun k => { k with nextOrder := 20 }).modStore fun x => { x with log := [], configs := ⟨cfg4, { cfg4 with generation := 5 }⟩ }, pending := [] }) fun n =>
      decide (n.storeByte 0 7 = n.store.images.a.bytes.get 7 ∧ (configBytes n.store.configs.a)[5]? = some (n.storeByte 2 5) ∧
      (configBytes n.store.configs.b)[3]? = some (n.storeByte 3 3) ∧ n.storeByte 8 20 = 0),
  met ({ node := ((inMode .cask id).node.modCore fun k => { k with nextOrder := 20, fw := some { client := .line 7, id := 0xC31, length := 64, slot := true }, fwCommit := some 9, pool := [opFor 0xA2 [] 0] }).modStore fun x => { x with log := [], images := x.images.set true { state := .receiving, length := 64 } }, pending := [] }) fun n =>
      decide ((n.store.images.get true).unwritten.isSome = true),
  met ({ node := ((inMode .cask id).node.modCore fun k => { k with nextOrder := 20, fw := some { client := .line 7, id := 0xC31, length := 64, slot := true }, fwCommit := some 9, pool := [opFor 0xA2 [] 0] }).modStore fun x => { x with log := [], images := x.images.set true { state := .receiving, length := 64, bytes := [(0, 9)], units := List.range 8 } }, pending := [] }) fun n =>
      decide ((n.store.images.get true).unwritten = none ∧ imageHeaderOk (n.store.images.get true) = false),
  met ({ node := ((inMode .track id).node.modCore fun k => { k with nextOrder := 20, drain := some { op := 9, deadline := 50 }, pool := [opFor 0xA3 [] 0, { opFor 0x30 [] 0 with order := 10 }] }).modStore fun x => { x with log := [] }, pending := [] }) fun n =>
      decide (n.time.p0e < 50)] id = true := by
  decide +kernel

/-- States and operands that meet the hypotheses of `Obligations.FirmwareAndStore`, part 3. -/
theorem witness_FirmwareAndStore_partc : List.all [
  met ({ node := ((inMode .track id).node.modCore fun k => { k with nextOrder := 20, drain := some { op := 9, deadline := 0 }, pool := [opFor 0xA3 [] 0, { opFor 0x30 [] 0 with order := 10 }] }).modStore fun x => { x with log := [] }, pending := [] }) fun n =>
      decide (n.mayRun = true),
  met ({ node := ((inMode .track id).node.modCore fun k => { k with nextOrder := 20, drain := some { op := 9, deadline := 50 }, pool := [opFor 0xA3 [] 0] }).modStore fun x => { x with log := [] }, pending := [] }) fun n =>
      decide (n.mayRun = true),
  met ({ node := ((inMode .cask id).node.modCore fun k => { k with nextOrder := 20, fw := some { client := .line 7, id := 0xC31, length := 64, slot := true } }).modStore fun x => { x with log := [], writes := [{ kind := .fwBlock 16 [1, 2, 3, 4, 5, 6, 7, 8], op := none }], images := x.images.set true { state := .receiving, length := 64 } }, pending := [] }) fun n =>
      decide ((n.store.nextWrite).isSome = true),
  met ({ node := ((inMode .cask id).node.modCore fun k => { k with nextOrder := 20 }).modStore fun x => { x with log := [], writes := [{ kind := .config true cfg4, op := none }] }, pending := [] }) fun n =>
      decide ((n.store.nextWrite).isSome = true),
  met ({ node := ((inMode .cask id).node.modCore fun k => { k with nextOrder := 20 }).modStore fun x => { x with log := [] }, pending := [] }) fun n =>
      decide (n.up = true)] id = true := by
  decide +kernel

/-- States and operands that meet the hypotheses of `Obligations.PacketsRoundTrip`. -/
theorem witness_PacketsRoundTrip : List.all [
  met (on id) fun _ => decide (({ pk (List.replicate 250 1) 255 with scheduled := true, tick := 65535, mac := some 4294967295 }).wf = true ∧
      ({ pk [] 0 with mac := none }).wf = true)] id = true := by
  decide +kernel

/-- States and operands that meet the hypotheses of `Obligations.EveryStepKeepsTheMemoriesCanonical`. -/
theorem witness_EveryStepKeepsTheMemoriesCanonical : List.all [
  met (on id) fun n => decide (State.reset.wf = true ∧ n.memWf = true)] id = true := by
  decide +kernel

/-- States and operands that meet the hypotheses of `Obligations.ReadersAndRefusedPacketsChangeOnlyTheTalk`. -/
theorem witness_ReadersAndRefusedPacketsChangeOnlyTheTalk : List.all [
  met (on id) fun n => decide ((n.arrived (asRow .stop { pk [] 1 with client := 9 })).1 = none),
  met (on id) fun n => decide ((n.arrived (asRow .paramWrite (pk [0x4809] 0))).1 = none)] id = true := by
  decide +kernel

/-- States and operands that meet the hypotheses of `Obligations.FamiliesStayInTheirPlace`. -/
theorem witness_FamiliesStayInTheirPlace : List.all [
  met (driving true id) fun n => decide (n.core.rests = [] ∧ n.runsNow (asRow .jog (pk [0x1000000] 4)) = true)] id = true := by
  decide +kernel

end Sys2Proof.Tests
end

section
/-!
PROOFS. Node and modes (01_node_and_modes.md, 03_steep_and_cask.md): the supplies and resets, the state after reset, the
transitions without a command, and SET_MODE.
-/
namespace Sys2Proof.Machine

/-! ### When a row acts, and what a list of changes keeps -/

theorem whenUp_of_up (f : Node → Node) (n : Node) (h : n.up = true) : n.whenUp f = f n := if_pos h

theorem whenCellar_of_on (f : Node → Node) (n : Node) (hv : n.power.vcel = true) (hc : n.power.cresetn = true) :
    n.whenCellar f = f n := by simp [Node.whenCellar, hv, hc]

theorem run_of_up (n : Node) (h : n.up = true) : n.core.run = .up := by
  unfold Node.up at h
  split at h
  · assumption
  · exact nomatch h

/-- What holds of a node holds after a list of changes each of which keeps it. -/
theorem eachOf_keeps {α : Type} (P : Node → Prop) (f : α → Node → Node) (xs : List α)
    (hf : ∀ x ∈ xs, ∀ m, P m → P (f x m)) (n : Node) (h : P n) : P (eachOf xs f n) := by
  induction xs generalizing n with
  | nil => exact h
  | cons x xs ih => exact ih (fun y hy => hf y (List.mem_cons_of_mem _ hy)) _ (hf x List.mem_cons_self n h)

/-- A part of the node that no change of a list touches is untouched by all of them. -/
theorem eachOf_part {α β : Type} (g : Node → β) (f : α → Node → Node) (hf : ∀ x m, g (f x m) = g m) (xs : List α) (n : Node) :
    g (eachOf xs f n) = g n :=
  eachOf_keeps (fun m => g m = g n) f xs (fun x _ m h => (hf x m).trans h) n rfl

/-- A part of the node that no channel's change touches is untouched by all four. -/
theorem eachCh_part {β : Type} (g : Node → β) (f : Ch → Node → Node) (hf : ∀ c m, g (f c m) = g m) (n : Node) :
    g (eachCh f n) = g n := by simp only [eachCh, hf]

/-! ### Events -/

theorem eventTo_sameBut (ev : EventCode) (scope : Nat) (st : Stamp) (ws : List Word) (r : ClientRec) (n : Node) :
    (n.eventTo ev scope st ws r).SameBut n := by
  unfold Node.eventTo
  dsimp only
  split
  · exact (emit_sameBut _ _ _ _).trans (setClient_sameBut _ _)
  · exact setClient_sameBut _ _

theorem event_sameBut (ev : EventCode) (scope : Nat) (st : Stamp) (ws : List Word) (n : Node) : (n.event ev scope st ws).SameBut n := by
  unfold Node.event
  split
  · exact ⟨rfl, rfl, rfl, rfl, rfl, rfl, rfl, rfl, rfl, rfl, rfl, rfl⟩
  · exact eachOf_keeps (fun m => m.SameBut n) _ _ (fun r _ m h => (eventTo_sameBut _ _ _ _ r m).trans h) n (.refl n)

@[simp] theorem eventTo_core (ev : EventCode) (scope : Nat) (st : Stamp) (ws : List Word) (r : ClientRec) (n : Node) :
    (n.eventTo ev scope st ws r).core = n.core := by
  unfold Node.eventTo
  dsimp only
  split
  · rw [(emit_fields _ _ _ _).1, setClient_core]
  · exact setClient_core _ _

@[simp] theorem event_core (ev : EventCode) (scope : Nat) (st : Stamp) (ws : List Word) (n : Node) :
    (n.event ev scope st ws).core = n.core := by
  unfold Node.event
  split
  · rfl
  · exact eachOf_part Node.core _ (fun r m => eventTo_core _ _ _ _ r m) _ n

@[simp] theorem event_power (ev : EventCode) (scope : Nat) (st : Stamp) (ws : List Word) (n : Node) :
    (n.event ev scope st ws).power = n.power := (event_sameBut ev scope st ws n).power

@[simp] theorem formFault_power (w : FaultWindow) (k : Nat) (n : Node) : (n.formFault w k).power = n.power :=
  event_power _ _ _ _ n

/-! ### What a reset leaves -/

@[simp] theorem closeWindows_power (n : Node) : n.closeWindows.power = n.power :=
  eachOf_part Node.power (fun w m => m.formFault w w.count) (fun w m => formFault_power w w.count m) _ n

@[simp] theorem dropPool_power (cause : DropCause) (n : Node) : (n.dropPool cause).power = n.power := by
  unfold Node.dropPool
  dsimp only
  refine (eachOf_part Node.power _ ?hops _ _).trans ((eachOf_part Node.power _ ?ops _ _).trans (eachOf_part Node.power _ ?plays _ n))
  case hops => exact fun _ _ => rfl
  case plays => exact fun p m => event_power _ _ _ _ m
  case ops =>
    intro o m
    split
    · rfl
    · exact setClient_power _ _

theorem dropTransfer_fields (n : Node) : n.dropTransfer.power = n.power ∧ n.dropTransfer.line.lock = n.line.lock ∧
    n.dropTransfer.store.configs = n.store.configs ∧ n.dropTransfer.store.key = n.store.key ∧
    n.dropTransfer.store.log = n.store.log := by
  unfold Node.dropTransfer
  split <;> exact ⟨rfl, rfl, rfl, rfl, rfl⟩

/-- A reset core is held, in CASK and without an operation. -/
theorem coreReset_core (t : SteepTrigger) (d : DropCause) (wd : Option Bool) (n : Node) :
    (n.coreReset t d wd).core.run = .held ∧ (n.coreReset t d wd).core.mode = .cask ∧ (n.coreReset t d wd).core.pool = [] := by
  unfold Node.coreReset
  simp only [modLine_core, modLane_core, modStore_core, setClient_core, and_self]

@[simp] theorem coreReset_power (t : SteepTrigger) (d : DropCause) (wd : Option Bool) (n : Node) :
    (n.coreReset t d wd).power = n.power := by
  unfold Node.coreReset
  simp only [modLine_power, modLane_power, modStore_power, setClient_power, dropTransfer_fields, dropPool_power, closeWindows_power]

theorem holdCore_power (o : Option SteepTrigger) (n : Node) : (n.holdCore o).power = n.power := by
  unfold Node.holdCore
  split
  · split
    · rfl
    · split <;> rfl
  · exact coreReset_power _ _ _ n
  · cases o <;> rfl

/-- However the core stood, it is held from now on. -/
theorem holdCore_run (o : Option SteepTrigger) (n : Node) : (n.holdCore o).core.run = .held := by
  unfold Node.holdCore
  split
  next hheld =>
    split
    · exact hheld
    · split <;> exact hheld
  next => exact (coreReset_core _ _ _ n).1
  next => cases o <;> rfl

theorem holdCore_of_up (o : Option SteepTrigger) (n : Node) (h : n.up = true) :
    (n.holdCore o).core.pool = [] ∧ (n.holdCore o).core.mode = .cask := by
  obtain ⟨_, hm, hp⟩ := coreReset_core .coreReset .coreReset none n
  simp [Node.holdCore, run_of_up n h, hm, hp]

/-- What a reset of the cellar keeps and what it starts anew (R90, R555). -/
theorem cellarReset_spec (n : Node) : n.cellarReset.core = {} ∧ n.cellarReset.clients = [] ∧ n.cellarReset.sessions = [] ∧
    n.cellarReset.stream = [] ∧ n.cellarReset.time = {} ∧ n.cellarReset.line.lock = n.line.lock ∧
    n.cellarReset.store.configs = n.store.configs ∧ n.cellarReset.store.key = n.store.key ∧
    n.cellarReset.store.log = n.store.log ∧ n.cellarReset.store.writes = [] := by
  obtain ⟨_, hl, hc, hk, hg⟩ := dropTransfer_fields n
  exact ⟨rfl, rfl, rfl, rfl, rfl, hl, hc, hk, hg, rfl⟩

/-- Where the core may run, a Steep begins with the trigger that waits. -/
theorem beginSteep_of_mayRun (n : Node) (h : n.mayRun = true) :
    n.beginSteep.power = n.power ∧ n.beginSteep.core.run = .steep { trigger := n.restart.trigger, start := n.now } := by
  rw [Node.beginSteep, if_pos h]
  exact ⟨rfl, rfl⟩

/-! ### The rows of the supplies and resets -/

theorem effect_pwrgood (s : State) (a b : Int) (t : Nat) (hv : s.node.power.vcel = true) (hc : s.node.power.cresetn = true)
    (hr : s.node.power.resetn = true) (hg : s.node.power.railsGood = false) (hh : s.node.core.run = .held)
    (ht : [0, 2, 3].contains s.node.power.tapIr = false) :
    Effect (.pwrgood a b t) s fun m => m.power.railsGood = true ∧ m.power.avddh = a ∧ m.power.avss = b ∧
      m.core.run = .steep { trigger := s.node.restart.trigger, start := (s.node.atT t).now } := by
  refine ⟨_, rfl, ?_⟩
  dsimp only
  rw [whenCellar_of_on _ _ hv hc]
  simp only [atT_power, hg, hr, atT_core, modPower_core, hh, Bool.not_true, Bool.or_self, Bool.false_eq_true, if_false]
  obtain ⟨hp, hrun⟩ := beginSteep_of_mayRun
    ((s.node.atT t).modPower fun p => { p with railsGood := true, avddh := a, avss := b })
    (by simp only [Node.mayRun, modPower_power, atT_power, hv, hc, hr, ht]; rfl)
  rw [hp, hrun]
  exact ⟨rfl, rfl, rfl, rfl⟩

theorem effect_pwrgoodDrop (s : State) (t : Nat) (hv : s.node.power.vcel = true) (hc : s.node.power.cresetn = true)
    (hg : s.node.power.railsGood = true) :
    Effect (.pwrgoodDrop t) s fun m => m.core.run = .held ∧ m.power.railsGood = false ∧
      (s.node.up = true → m.core.pool = [] ∧ m.core.mode = .cask) := by
  refine ⟨_, rfl, ?_⟩
  dsimp only
  rw [whenCellar_of_on _ _ hv hc]
  simp only [atT_power, hg, if_true, modPower_core, modPower_power]
  exact ⟨holdCore_run _ _, trivial, holdCore_of_up none (s.node.atT t)⟩

theorem effect_resetnFall (s : State) (t : Nat) (hv : s.node.power.vcel = true) (hc : s.node.power.cresetn = true) :
    Effect (.resetnFall t) s fun m => m.core.run = .held ∧ m.power.resetn = false ∧ m.power.railsGood = false ∧
      (s.node.up = true → m.core.pool = [] ∧ m.core.mode = .cask) := by
  refine ⟨_, rfl, ?_⟩
  dsimp only
  rw [whenCellar_of_on _ (s.node.modPower fun p => { p with resetn := false }) hv hc]
  simp only [modPower_core, modPower_power, holdCore_power, atT_power]
  exact ⟨holdCore_run _ _, trivial, trivial,
    holdCore_of_up (some .coreReset) ((s.node.modPower fun p => { p with resetn := false }).atT t)⟩

/-- Settles O12: each row is its supply or pin change, and what a reset of core or cellar leaves. That CRESETN restarts the time base is
log entry 73. -/
theorem suppliesAndResets : Obligations.SuppliesAndResets := by
  refine ⟨fun s h => ?vcelValid, fun s h => ?vcelLost, effect_pwrgood, effect_pwrgoodDrop, effect_resetnFall, fun s t => ?resetnRise,
    fun s t h => ?cresetnFall, fun s t => ⟨_, rfl, rfl⟩⟩
  case vcelValid =>
    refine ⟨_, rfl, ?_⟩
    simp only [h]
    rfl
  case vcelLost =>
    refine ⟨_, rfl, ?_⟩
    dsimp only
    rw [if_pos h]
    exact ⟨rfl, cellarReset_spec s.node⟩
  case resetnRise =>
    refine ⟨_, rfl, ?_⟩
    dsimp only [Node.whenCellar]
    split <;> exact ⟨rfl, rfl⟩
  case cresetnFall =>
    refine ⟨_, rfl, ?_⟩
    dsimp only
    rw [if_pos h]
    obtain ⟨hcore, hcl, hses, _, hrest⟩ := cellarReset_spec s.node
    exact ⟨rfl, hcore, hcl, hses, hrest⟩

/-! ### The state after reset -/

/-- Settles O57: the reset state is the factory store under a node whose fields stand at their defaults, so each part is what its
definition gives there; the memories read their ground values since nothing is listed. -/
theorem resetLeavesAWellFormedNode : Obligations.ResetLeavesAWellFormedNode := by
  refine ⟨rfl, rfl, ParamMem.get_nil, WaveMem.get_nil, rfl, rfl, rfl, rfl, rfl, rfl, rfl, rfl, rfl, rfl, rfl, rfl, rfl, ?pins⟩
  case pins =>
    refine ⟨rfl, rfl, rfl, rfl, fun c => ⟨rfl, ?_⟩⟩
    exact congrArg (fun f : Front => f.trk.running) (Quad.get_all {} c)

/-! ### What a change of mode leaves alone: the mode, the wait for P3 of a CASK entry, and the waits for rest -/

/-- Where the node stands between its modes: the mode, whether the output states of a CASK entry are due, and the waits for rest. -/
def Node.stand (n : Node) : Mode × Bool × List RestWait := (n.core.mode, n.core.caskDue, n.core.rests)

theorem stand_of_body {m n : Node} (h : m.core.body = n.core.body) : m.stand = n.stand := by
  have := congrArg (fun k : Core => (k.mode, k.caskDue, k.rests)) h
  exact this

theorem stand_of_core {m n : Node} (h : m.core = n.core) : m.stand = n.stand := stand_of_body (congrArg Core.body h)

theorem mode_of_stand {m n : Node} (h : m.stand = n.stand) : m.core.mode = n.core.mode := congrArg Prod.fst h
theorem caskDue_of_stand {m n : Node} (h : m.stand = n.stand) : m.core.caskDue = n.core.caskDue := congrArg (fun x => x.2.1) h
theorem rests_of_stand {m n : Node} (h : m.stand = n.stand) : m.core.rests = n.core.rests := congrArg (fun x => x.2.2) h

theorem eachOf_stand {α : Type} (f : α → Node → Node) (hf : ∀ x m, (f x m).stand = m.stand) (xs : List α) (n : Node) :
    (eachOf xs f n).stand = n.stand := eachOf_part Node.stand f hf xs n

theorem eachCh_stand (f : Ch → Node → Node) (hf : ∀ c m, (f c m).stand = m.stand) (n : Node) :
    (eachCh f n).stand = n.stand := eachCh_part Node.stand f hf n

/-! Commands that end -/

theorem endOrder_sameBut (o : Nat) (s : Status) (ws : List Word) (n : Node) : (n.endOrder o s ws).SameBut n := by
  unfold Node.endOrder
  split
  · exact endOp_sameBut _ _ _ _ _
  · exact .refl n

theorem endOpt_sameBut (o : Option Nat) (s : Status) (ws : List Word) (n : Node) : (n.endOpt o s ws).SameBut n := by
  cases o with
  | none => exact .refl n
  | some o => exact endOrder_sameBut o s ws n

@[simp] theorem endOp_stand (op : PoolOp) (s : Status) (ch : List (List Word)) (g : Bool) (n : Node) :
    (n.endOp op s ch g).stand = n.stand := stand_of_body (endOp_sameBut op s ch g n).core
@[simp] theorem endOrder_stand (o : Nat) (s : Status) (ws : List Word) (n : Node) :
    (n.endOrder o s ws).stand = n.stand := stand_of_body (endOrder_sameBut o s ws n).core
@[simp] theorem endOpt_stand (o : Option Nat) (s : Status) (ws : List Word) (n : Node) :
    (n.endOpt o s ws).stand = n.stand := stand_of_body (endOpt_sameBut o s ws n).core
@[simp] theorem deliver_stand (op : PoolOp) (a : Ans) (n : Node) : (n.deliver op a).stand = n.stand :=
  stand_of_body (deliver_sameBut op a n).core

@[simp] theorem event_stand (ev : EventCode) (sc : Nat) (st : Stamp) (ws : List Word) (n : Node) :
    (n.event ev sc st ws).stand = n.stand := stand_of_core (event_core ev sc st ws n)

/-! Faults that cease -/

@[simp] theorem modFaults_stand (f : Faults → Faults) (n : Node) : (n.modFaults f).stand = n.stand := rfl
@[simp] theorem modFront_stand (c : Ch) (f : Front → Front) (n : Node) : (n.modFront c f).stand = n.stand := rfl
@[simp] theorem modPos_stand (c : Ch) (f : Pos → Pos) (n : Node) : (n.modPos c f).stand = n.stand := rfl
@[simp] theorem modSlot_stand (c : Ch) (f : Slot → Slot) (n : Node) : (n.modSlot c f).stand = n.stand := rfl
@[simp] theorem modSound_stand (f : Sound → Sound) (n : Node) : (n.modSound f).stand = n.stand := rfl

@[simp] theorem formFault_stand (w : FaultWindow) (k : Nat) (n : Node) : (n.formFault w k).stand = n.stand := by
  simp [Node.formFault]

@[simp] theorem occur_stand (f : FaultCode) (sc : Nat) (k : OccKind) (cls : Nat) (r i : Bool) (x : Word) (n : Node) :
    (n.occur f sc k cls r i x).stand = n.stand := by
  unfold Node.occur
  split <;> simp

@[simp] theorem cease_stand (f : FaultCode) (sc : Nat) (n : Node) : (n.cease f sc).stand = n.stand := by
  unfold Node.cease
  dsimp only
  split
  · rfl
  · split
    · rfl
    · split <;> simp

@[simp] theorem ceaseAll_stand (fs : List FaultCode) (sc : Nat) (n : Node) : (n.ceaseAll fs sc).stand = n.stand :=
  eachOf_stand _ (fun f m => cease_stand f sc m) fs n

/-! Position services of a channel that stops tracking -/

@[simp] theorem endExtrap_stand (w : ExtrapWait) (ws : List Word) (n : Node) : (n.endExtrap w ws).stand = n.stand := by
  unfold Node.endExtrap
  dsimp only
  split
  · exact deliver_stand _ _ _
  · exact deliver_stand _ _ _
  · rfl

@[simp] theorem valueReady_stand (w : ExtrapWait) (n : Node) : (n.valueReady w).stand = n.stand := by
  unfold Node.valueReady
  split
  · dsimp only
    split
    · rfl
    · exact endExtrap_stand _ _ n
  · rfl

@[simp] theorem stopWait_stand (w : ExtrapWait) (n : Node) : (n.stopWait w).stand = n.stand := by
  unfold Node.stopWait
  dsimp only
  split <;> simp

@[simp] theorem refutedEvent_stand (c : Ch) (w : EvWindow) (k : Nat) (n : Node) : (n.refutedEvent c w k).stand = n.stand :=
  event_stand .refuted c.val w.first _ _

@[simp] theorem refute_stand (c : Ch) (r : Int) (o : Nat) (st : Stamp) (u : Int) (n : Node) :
    (n.refute c r o st u).stand = n.stand := by
  unfold Node.refute
  split <;> simp

@[simp] theorem judgeFired_stand (h : Nat) (n : Node) : (n.judgeFired h).stand = n.stand := by
  unfold Node.judgeFired
  split
  · rfl
  · split
    · rfl
    · dsimp only
      split
      · rw [event_stand, refute_stand]; rfl
      · rfl

@[simp] theorem unconfirmedEvent_stand (f : FiredEntry) (n : Node) : (n.unconfirmedEvent f).stand = n.stand := by
  unfold Node.unconfirmedEvent
  rw [event_stand]
  rfl

@[simp] theorem unconfirmed_stand (c : Ch) (n : Node) : (n.unconfirmed c).stand = n.stand := by
  refine eachOf_stand _ (fun f m => ?_) _ n
  dsimp only
  split <;> simp

@[simp] theorem readyLatches_stand (c : Ch) (n : Node) : (n.readyLatches c).stand = n.stand :=
  eachOf_stand _ (fun _ m => event_stand _ _ _ _ m) _ _

@[simp] theorem posStop_stand (c : Ch) (n : Node) : (n.posStop c).stand = n.stand := by
  unfold Node.posStop Node.extrapolateStop
  rw [readyLatches_stand, unconfirmed_stand, eachOf_stand _ stopWait_stand]

@[simp] theorem stopTracking_stand (c : Ch) (n : Node) : (n.stopTracking c).stand = n.stand := by
  unfold Node.stopTracking
  dsimp only
  split
  · rfl
  · split <;> simp

@[simp] theorem stopChannel_stand (c : Ch) (n : Node) : (n.stopChannel c).stand = n.stand := by
  unfold Node.stopChannel
  split <;> simp

/-! Fans -/

/-- A supervised fan is part of the sound-and-heat unit: the rest of the core stays. -/
theorem supervise_core (b : Bool) (n : Node) : ∃ x, (n.supervise b).core = { n.core with sound := x } := by
  unfold Node.supervise
  dsimp only
  split
  case h_5 => exact ⟨_, rfl⟩
  all_goals split <;> exact ⟨_, rfl⟩

theorem fanRefresh_core (b : Bool) (n : Node) : ∃ x, (n.fanRefresh b).core = { n.core with sound := x } := by
  unfold Node.fanRefresh
  dsimp only
  refine (supervise_core b _).imp fun _ hx => hx.trans ?_
  simp only [Node.modFan, modSound_core]

theorem fansRefresh_core (n : Node) : ∃ x, n.fansRefresh.core = { n.core with sound := x } := by
  obtain ⟨x, hx⟩ := fanRefresh_core false n
  obtain ⟨y, hy⟩ := fanRefresh_core true (n.fanRefresh false)
  exact ⟨y, by rw [Node.fansRefresh, eachFan, hy, hx]⟩

@[simp] theorem fansRefresh_stand (n : Node) : n.fansRefresh.stand = n.stand := by
  obtain ⟨x, hx⟩ := fansRefresh_core n
  unfold Node.stand
  rw [hx]

@[simp] theorem calAbort_stand (n : Node) : n.calAbort.stand = n.stand := by
  unfold Node.calAbort Node.calEnd
  split <;> simp

/-! Loops -/

@[simp] theorem loopsOff_stand (n : Node) : n.loopsOff.stand = n.stand :=
  eachCh_stand _ (fun c m => by simp [Node.slotOff]) n

@[simp] theorem leaveGroup_stand (c : Ch) (n : Node) : (n.leaveGroup c).stand = n.stand := by
  unfold Node.leaveGroup
  dsimp only
  split <;> rfl

@[simp] theorem disable_stand (c : Ch) (n : Node) : (n.disable c).stand = n.stand := by
  simp [Node.disable, Node.slotOff]

/-! A pair that ends with CASK entry -/

@[simp] theorem modLane_stand (f : Lane → Lane) (n : Node) : (n.modLane f).stand = n.stand := rfl

@[simp] theorem endForming_stand (s : Status) (n : Node) : (n.endForming s).stand = n.stand := by
  unfold Node.endForming
  split <;> simp

@[simp] theorem dissolveSpanning_stand (n : Node) : n.dissolveSpanning.stand = n.stand := by
  refine eachCh_stand _ (fun c m => ?_) n
  dsimp only
  split
  · split <;> rfl
  · rfl

@[simp] theorem endPairOps_stand (n : Node) : n.endPairOps.stand = n.stand := by
  unfold Node.endPairOps
  dsimp only
  rw [eachOf_stand _ (fun h m => event_stand _ _ _ _ m), modFaults_stand, modLane_stand, eachOf_stand, eachOf_stand]
  · rfl
  · exact fun o m => endOp_stand _ _ _ _ m
  · intro o m
    split
    · exact endOp_stand _ _ _ _ m
    · rfl

@[simp] theorem caskPair_stand (n : Node) : n.caskPair.stand = n.stand := by
  unfold Node.caskPair
  split <;> simp

/-! ### CASK entry -/

theorem restDone_disable_stand (w : RestWait) (n : Node) (h : w.kind = .disable) : (n.restDone w).stand = n.stand := by
  simp [Node.restDone, h]

/-- Waits for the end of a loop leave the mode alone as they are judged (R302, R323). -/
theorem settleRests_keeps_mode (n : Node) (h : ∀ w ∈ n.core.rests, w.kind = .disable) :
    n.settleRests.core.mode = n.core.mode ∧ n.settleRests.core.caskDue = n.core.caskDue := by
  unfold Node.settleRests
  refine eachOf_keeps (fun m => m.core.mode = n.core.mode ∧ m.core.caskDue = n.core.caskDue) _ _ (fun w hw m hm => ?_) _ ⟨rfl, rfl⟩
  have hd := eachOf_stand Node.disable disable_stand (w.chs.filter m.atRest) m
  have hm : (eachOf (w.chs.filter m.atRest) Node.disable m).core.mode = n.core.mode ∧
      (eachOf (w.chs.filter m.atRest) Node.disable m).core.caskDue = n.core.caskDue :=
    ⟨(mode_of_stand hd).trans hm.1, (caskDue_of_stand hd).trans hm.2⟩
  dsimp only
  rw [if_pos (h w hw)]
  split
  · have hs := restDone_disable_stand w (eachOf (w.chs.filter m.atRest) Node.disable m) (h w hw)
    exact ⟨(mode_of_stand hs).trans hm.1, (caskDue_of_stand hs).trans hm.2⟩
  · exact hm

/-- After CASK entry has ended the motion, only the ends of loops are waited for (R41). -/
theorem abandonMotion_rests (n : Node) : ∀ w ∈ n.abandonMotion.core.rests, w.kind = .disable := by
  unfold Node.abandonMotion
  dsimp only
  intro w hw
  rw [rests_of_stand (loopsOff_stand _)] at hw
  split at hw
  all_goals
    simp only [modCore_core, rests_of_stand (endOpt_stand _ _ _ _), List.mem_filter, beq_iff_eq] at hw
    exact hw.2

/-- R40: a node outside CASK that enters it is in CASK, with its output states due at the next P3. -/
theorem caskEntry_enters (n : Node) (h : n.core.mode ≠ .cask) :
    n.caskEntry.core.mode = .cask ∧ n.caskEntry.core.caskDue = true := by
  unfold Node.caskEntry
  rw [if_neg (by simpa using h)]
  dsimp only
  generalize ha : ((n.clearArmed.abandonMotion.endForming .aborted).caskPair) = a
  have hrests : ∀ w ∈ a.core.rests, w.kind = .disable := by
    rw [← ha, rests_of_stand (caskPair_stand _), rests_of_stand (endForming_stand _ _)]
    exact abandonMotion_rests _
  generalize hb : (a.modCore fun k => { k with mode := .cask, caskDue := true, auto := .none, cmps := List.replicate 8 {} }) = b
  have hsettle := settleRests_keeps_mode b (by rw [← hb]; exact hrests)
  have hstop := eachCh_stand Node.stopChannel stopChannel_stand
  have hcease := eachCh_stand (fun c m => m.cease .partnerLost c.val) fun c m => cease_stand _ c.val m
  have hlast : ∀ m : Node, m.stand = b.settleRests.stand → m.core.mode = .cask ∧ m.core.caskDue = true := fun m hm => by
    rw [mode_of_stand hm, caskDue_of_stand hm, hsettle.1, hsettle.2, ← hb]
    exact ⟨rfl, rfl⟩
  refine hlast _ ?_
  split <;> split <;> simp only [modLane_stand, hcease, hstop, calAbort_stand]

/-! ### Entry into TRACK -/

theorem eachCh_keeps (P : Node → Prop) (f : Ch → Node → Node) (hf : ∀ c m, P m → P (f c m)) (n : Node) (h : P n) : P (eachCh f n) :=
  hf 3 _ (hf 2 _ (hf 1 _ (hf 0 _ h)))

/-- What each channel's change reaches for its channel, and the others keep, holds of all four channels. -/
theorem eachCh_reaches (I : Node → Prop) (P : Ch → Node → Prop) (f : Ch → Node → Node) (hI : ∀ c m, I m → I (f c m))
    (hreach : ∀ c m, I m → P c (f c m)) (hkeep : ∀ c d m, P c m → P c (f d m)) (n : Node) (h : I n) : ∀ c, P c (eachCh f n) := by
  have h1 := hI 0 _ h
  have h2 := hI 1 _ h1
  have h3 := hI 2 _ h2
  intro c
  match c with
  | 0 => exact hkeep _ _ _ (hkeep _ _ _ (hkeep _ _ _ (hreach 0 _ h)))
  | 1 => exact hkeep _ _ _ (hkeep _ _ _ (hreach 1 _ h1))
  | 2 => exact hkeep _ _ _ (hreach 2 _ h2)
  | 3 => exact hreach 3 _ h3

/-- A part of the way into TRACK: the working set, the mode and the wait of a CASK entry stay, each channel is as available as it was,
and none stops tracking. -/
structure Node.Starts (m n : Node) : Prop where
  params : m.core.params = n.core.params
  mode : m.core.mode = n.core.mode
  caskDue : m.core.caskDue = n.core.caskDue
  auto : m.core.auto = n.core.auto
  unavailable : ∀ c, (m.core.fronts.get c).unavailable = (n.core.fronts.get c).unavailable
  running : ∀ c, (n.core.fronts.get c).trk.running = true → (m.core.fronts.get c).trk.running = true

theorem Node.Starts.refl (n : Node) : n.Starts n := ⟨rfl, rfl, rfl, rfl, fun _ => rfl, fun _ h => h⟩

theorem Node.Starts.trans {a b c : Node} (h : a.Starts b) (g : b.Starts c) : a.Starts c :=
  ⟨h.params.trans g.params, h.mode.trans g.mode, h.caskDue.trans g.caskDue, h.auto.trans g.auto,
    fun d => (h.unavailable d).trans (g.unavailable d), fun d hd => h.running d (g.running d hd)⟩

theorem eachCh_starts (f : Ch → Node → Node) (hf : ∀ c m, (f c m).Starts m) (n : Node) : (eachCh f n).Starts n :=
  eachCh_keeps (fun m => m.Starts n) f (fun c m h => (hf c m).trans h) n (.refl n)

theorem emuLeave_starts (c : Ch) (n : Node) : (n.emuLeave c).Starts n := by
  unfold Node.emuLeave
  split
  · exact ⟨rfl, rfl, rfl, rfl, fun _ => rfl, fun _ h => h⟩
  · exact .refl n

theorem modOut_starts (c : Ch) (f : AOut → AOut) (n : Node) : (n.modOut c f).Starts n :=
  ⟨rfl, rfl, rfl, rfl, fun _ => rfl, fun _ h => h⟩

theorem leaveCask_starts (n : Node) : n.leaveCask.Starts n := by
  unfold Node.leaveCask
  exact eachCh_starts _ (fun c m => (emuLeave_starts c _).trans (modOut_starts c _ m)) n

theorem fansRefresh_starts (n : Node) : n.fansRefresh.Starts n := by
  obtain ⟨x, hx⟩ := fansRefresh_core n
  exact ⟨by rw [hx], by rw [hx], by rw [hx], by rw [hx], fun c => by rw [hx], fun c h => by rw [hx]; exact h⟩

theorem modFront_starts (c : Ch) (f : Front → Front) (n : Node)
    (hu : (f (n.core.fronts.get c)).unavailable = (n.core.fronts.get c).unavailable)
    (hr : (n.core.fronts.get c).trk.running = true → (f (n.core.fronts.get c)).trk.running = true) : (n.modFront c f).Starts n := by
  refine ⟨rfl, rfl, rfl, rfl, fun d => ?_, fun d hd => ?_⟩ <;> rw [modFront_core] <;> dsimp only <;> by_cases h : d = c
  · rw [h, Quad.get_set_same, hu]
  · rw [Quad.get_set_other _ _ _ _ h]
  · rw [h, Quad.get_set_same]
    exact hr (h ▸ hd)
  · rwa [Quad.get_set_other _ _ _ _ h]

theorem trkStart_running (t : Trk) : (trkStart t).running = true := by
  unfold trkStart
  split
  · assumption
  · rfl

/-- Whether a channel takes part rests on its input kind and its availability (R28). -/
theorem Node.Starts.takesPart {m n : Node} (h : m.Starts n) (c : Ch) : m.takesPart c = n.takesPart c := by
  simp only [Node.takesPart, Node.noChannel, Node.mode, h.params, h.unavailable c]

theorem measureEntry_starts (c : Ch) (n : Node) : (n.measureEntry c).Starts n := by
  unfold Node.measureEntry
  split
  · exact modFront_starts c _ n rfl fun h => h
  · exact .refl n

/-- What starting a channel makes of its front end (R36, R163). -/
theorem startChannel_eq (c : Ch) (n : Node) (h : n.takesPart c = true) : ∃ f : Front → Front, n.startChannel c = n.modFront c f ∧
    ∀ x, (f x).unavailable = x.unavailable ∧ (f x).trk.running = true := by
  unfold Node.startChannel
  rw [h, if_neg (by decide)]
  refine ⟨_, rfl, fun x => ?_⟩
  dsimp only
  split <;> exact ⟨rfl, trkStart_running _⟩

theorem startChannel_starts (c : Ch) (n : Node) : (n.startChannel c).Starts n := by
  by_cases h : n.takesPart c = true
  · obtain ⟨f, hf, hx⟩ := startChannel_eq c n h
    rw [hf]
    exact modFront_starts c f n (hx _).1 fun _ => (hx _).2
  · rw [Node.startChannel, if_pos (by simpa using h)]
    exact .refl n

theorem startChannel_running (c : Ch) (n : Node) (h : n.takesPart c = true) :
    ((n.startChannel c).core.fronts.get c).trk.running = true := by
  obtain ⟨f, hf, hx⟩ := startChannel_eq c n h
  rw [hf, modFront_core, Quad.get_set_same]
  exact (hx _).2

theorem entryStart_starts (c : Ch) (n : Node) : ((n.measureEntry c).startChannel c).Starts n :=
  (startChannel_starts c _).trans (measureEntry_starts c n)

/-- What TRACK entry does channel by channel leaves every channel that takes part tracking. -/
theorem entryStart_running (n : Node) : ∀ c, n.takesPart c = true →
    ((eachCh (fun c m => (m.measureEntry c).startChannel c) n).core.fronts.get c).trk.running = true :=
  eachCh_reaches (fun m => m.Starts n) (fun c m => n.takesPart c = true → (m.core.fronts.get c).trk.running = true) _
    (fun c m h => (entryStart_starts c m).trans h)
    (fun c m h hc => startChannel_running c _ ((((measureEntry_starts c m).trans h).takesPart c).trans hc))
    (fun c d m h hc => (entryStart_starts d m).running c (h hc)) n (.refl n)

/-- The way into TRACK: CASK is left, the mode changes, each channel starts, and the entry is noted. -/
theorem enterTrack_eq (op : Option Nat) (n : Node) : ∃ x, n.enterTrack op =
    (eachCh (fun c m => (m.measureEntry c).startChannel c)
        (n.leaveCask.modCore fun k => { k with mode := .track, auto := .none, caskDue := false }).fansRefresh).modCore
      fun k => { k with trackEntry := some x } := by
  unfold Node.enterTrack
  dsimp only
  exact ⟨_, rfl⟩

/-- R36: TRACK entry leaves CASK, and every channel that takes part tracks. -/
theorem enterTrack_spec (op : Option Nat) (n : Node) :
    (n.enterTrack op).core.mode = .track ∧ (n.enterTrack op).core.caskDue = false ∧ (n.enterTrack op).core.auto = .none ∧
      ∀ c, n.takesPart c = true → ((n.enterTrack op).core.fronts.get c).trk.running = true := by
  obtain ⟨x, hx⟩ := enterTrack_eq op n
  have hleave := leaveCask_starts n
  generalize n.leaveCask = a at hx hleave
  have hfans := fansRefresh_starts (a.modCore fun k => { k with mode := .track, auto := .none, caskDue := false })
  generalize (a.modCore fun k => { k with mode := .track, auto := .none, caskDue := false }).fansRefresh = b at hx hfans
  have hstart := (eachCh_starts (fun c m => (m.measureEntry c).startChannel c) entryStart_starts b).trans hfans
  have hruns := entryStart_running b
  generalize eachCh (fun c m => (m.measureEntry c).startChannel c) b = e at hx hstart hruns
  rw [hx, modCore_core]
  exact ⟨hstart.mode, hstart.caskDue, hstart.auto,
    fun c hc => hruns c ((hfans.takesPart c).trans ((hleave.takesPart c).trans hc))⟩

/-! ### Transitions without a command -/

theorem reported_of_waiting {f : FaultCode} {sc cls : Nat} {n : Node}
    (h : (n.core.faults.verdicts.any fun x => x.code == f && x.scope == sc && decide (cls ≤ x.cls) && !x.ceased) = true) :
    n.reported f sc := by
  obtain ⟨v, hv, hx⟩ := List.any_eq_true.mp h
  simp only [Bool.and_eq_true] at hx
  exact .inl (List.any_eq_true.mpr ⟨v, hv, Bool.and_eq_true _ _ ▸ hx.1.1⟩)

theorem reported_of_inst {f : FaultCode} {sc : Nat} {n : Node} {i : FaultInst} (hi : n.inst f sc = some i) (hp : i.present = true) :
    n.reported f sc :=
  .inr (List.any_eq_true.mpr ⟨i, List.mem_of_find?_eq_some hi, by rw [List.find?_some hi, hp]; rfl⟩)

/-- A detector's verdict waits for the fault manager, or its condition is known already (R502). -/
theorem trip_cases (f : FaultCode) (cls sc : Nat) (x : Word) (i : Bool) (n : Node) :
    (∃ v : Verdict, v.code = f ∧ v.scope = sc ∧
      n.trip f cls sc x i = n.modFaults fun y => { y with verdicts := y.verdicts ++ [v] }) ∨
    (n.trip f cls sc x i = n ∧ n.reported f sc) := by
  unfold Node.trip
  cases hi : n.inst f sc with
  | none =>
    dsimp only
    split
    · rename_i h
      simp only [Bool.false_or, Bool.and_eq_true] at h
      exact .inr ⟨rfl, reported_of_waiting h.2⟩
    · exact .inl ⟨_, rfl, rfl, rfl⟩
  | some j =>
    dsimp only
    split
    · rename_i h
      simp only [Bool.or_eq_true, Bool.and_eq_true] at h
      exact .inr ⟨rfl, h.2.elim (fun hk => reported_of_inst hi hk.1) reported_of_waiting⟩
    · exact .inl ⟨_, rfl, rfl, rfl⟩

theorem trip_reported (f : FaultCode) (cls sc : Nat) (x : Word) (i : Bool) (n : Node) : (n.trip f cls sc x i).reported f sc := by
  rcases trip_cases f cls sc x i n with ⟨v, hc, hs, he⟩ | ⟨he, hr⟩ <;> rw [he]
  · exact .inl (by simp [hc, hs])
  · exact hr

/-- A later report of a detector takes none back. -/
theorem reported_trip {f : FaultCode} {sc : Nat} (g : FaultCode) (cls sd : Nat) (x : Word) (i : Bool) {n : Node} (h : n.reported f sc) :
    (n.trip g cls sd x i).reported f sc := by
  rcases trip_cases g cls sd x i n with ⟨v, _, _, he⟩ | ⟨he, _⟩ <;> rw [he]
  · refine h.imp (fun hv => ?_) id
    rw [modFaults_core]
    simp [hv]
  · exact h

/-- The end of a command leaves what the fault manager knows. -/
theorem reported_of_body {m n : Node} (h : m.core.body = n.core.body) {f : FaultCode} {sc : Nat} (hr : n.reported f sc) :
    m.reported f sc := by
  have hf : m.core.faults = n.core.faults := by
    have := congrArg Core.faults h
    exact this
  unfold Node.reported
  rw [hf]
  exact hr

/-- The report of a channel that still waits for its first kilned sample (R37). -/
def Node.tripEntry (c : Ch) (n : Node) : Node := n.trip (n.entryFault c) (n.entryFault c).dfltClass c.val 0 false

theorem tripEntry_entryFault (c d : Ch) (n : Node) : (n.tripEntry c).entryFault d = n.entryFault d := by
  rcases trip_cases (n.entryFault c) (n.entryFault c).dfltClass c.val 0 false n with ⟨v, _, _, he⟩ | ⟨he, _⟩ <;> rw [Node.tripEntry, he]
  rfl

theorem tripEntry_mode (c : Ch) (n : Node) : (n.tripEntry c).core.mode = n.core.mode := by
  rcases trip_cases (n.entryFault c) (n.entryFault c).dfltClass c.val 0 false n with ⟨v, _, _, he⟩ | ⟨he, _⟩ <;> rw [Node.tripEntry, he]
  rfl

/-- Each channel of a list has its fault reported at the end, whatever is reported after it. -/
theorem eachOf_tripEntry (cs : List Ch) (n : Node) : ∀ c ∈ cs, (eachOf cs Node.tripEntry n).reported (n.entryFault c) c.val := by
  induction cs generalizing n with
  | nil => exact fun c hc => absurd hc List.not_mem_nil
  | cons d ds ih =>
    intro c hc
    rcases List.mem_cons.mp hc with rfl | hc
    · exact eachOf_keeps (fun m => m.reported (n.entryFault c) c.val) _ ds (fun _ _ _ h => reported_trip _ _ _ _ _ h) _
        (trip_reported _ _ _ _ _ n)
    · rw [← tripEntry_entryFault d c n]
      exact ih _ c hc

theorem effect_autotrack (s : State) (hup : s.node.up = true) (ha : s.node.core.auto = .due) (hm : s.node.core.mode = .cask)
    (hf : s.node.core.faults.topClass ≠ 3) :
    Effect .autotrack s fun m => m.core.mode = .track ∧ m.core.auto = .none ∧
      ∀ c, s.node.takesPart c = true → (m.core.fronts.get c).trk.running = true := by
  refine ⟨_, rfl, ?_⟩
  obtain ⟨hmode, _, hauto, hrun⟩ := enterTrack_spec none s.node
  dsimp only
  rw [whenUp_of_up _ _ hup, if_pos ⟨ha, hm⟩, if_neg hf, event_core]
  exact ⟨hmode, hauto, hrun⟩

theorem effect_trackEntryTimeout (s : State) (t : Nat) (e : TrackEntry) (hup : s.node.up = true)
    (he : s.node.core.trackEntry = some e) (ht : e.ends ≤ (s.node.atT t).now) :
    Effect (.trackEntryTimeout t) s fun m => m.core.trackEntry = none ∧ m.core.mode = s.node.core.mode ∧
      ∀ c ∈ e.waiting, m.reported ((s.node.atT t).entryFault c) c.val := by
  refine ⟨_, rfl, ?_⟩
  dsimp only
  rw [whenUp_of_up _ _ hup]
  simp only [atT_core, he, if_neg (Nat.not_lt.mpr ht)]
  have hrep := eachOf_tripEntry e.waiting (s.node.atT t)
  have hmode := eachOf_part (fun m => m.core.mode) Node.tripEntry tripEntry_mode e.waiting (s.node.atT t)
  have hend := (endOpt_sameBut e.op .done [] (eachOf e.waiting Node.tripEntry (s.node.atT t))).core
  exact ⟨rfl, (mode_of_stand (stand_of_body hend)).trans hmode, fun c hc => reported_of_body hend (hrep c hc)⟩

/-- Settles O11: TRACK entry starts each channel that takes part, and what the end of its wait reports is not taken back. -/
theorem transitionsWithoutACommand : Obligations.TransitionsWithoutACommand := ⟨effect_autotrack, effect_trackEntryTimeout⟩

/-! ### A packet that runs now fits its length -/

theorem judgeOp_wordsFit {n : Node} {op oc : Opcode} {p : Packet} {first due : Nat} {sch : Bool} {side : RelaySide}
    (h : n.judgeOp op p first = .accept oc due sch side) : wordsFit op p = true := by
  unfold Node.judgeOp at h
  dsimp only at h
  simpa using not_of_accept (accept_of_ite (accept_of_ite (accept_of_ite (accept_of_ite h))))

theorem judgePacket_wordsFit {n : Node} {op oc : Opcode} {p : Packet} {ok : Bool} {first due : Nat} {sch : Bool} {side : RelaySide}
    (ho : opcodeOf p = some op) (h : n.judgePacket p ok first = .accept oc due sch side) : wordsFit op p = true := by
  unfold Node.judgePacket at h
  dsimp only at h
  have h := accept_of_ite (accept_of_ite (accept_of_ite h))
  cases ht : n.tagCheck p with
  | some a => simp only [ht] at h; subst h; exact (tagCheck_accept _ _ _ _ _ _ ht).elim
  | none =>
    simp only [ht, ho] at h
    exact judgeOp_wordsFit (accept_of_ite h)

/-- A packet that runs now has the number of words that its opcode asks for (R58 check 7). -/
theorem runsNow_wordsFit (p : Packet) (n : Node) (op : Opcode) (h : n.runsNow p = true) (ho : opcodeOf p = some op) :
    wordsFit op p = true := by
  obtain ⟨_, hr⟩ := runsNow_spec p n h
  have ha := hr.arrived
  unfold Node.arrived Node.arrive at ha
  dsimp only at ha
  cases hd : (n.touchSession p).downStatus with
  | some s => simp [hd] at ha
  | none =>
    cases hj : (n.touchSession p).judgePacket p (decide (p.words.length ≤ 250)) n.firstTick with
    | refuse s ws cache => simp [hd, hj] at ha
    | resend ps => simp [hd, hj] at ha
    | accept oc due sch side => exact judgePacket_wordsFit ho hj

/-! ### SET_MODE -/

theorem opcodeOf_setMode (k : Nat) (p : Packet) : opcodeOf (withBits 0 2 k (asRow .setMode p)) = some .setMode := by
  rw [opcodeOf_withBits, opcodeOf_asRow]

/-- The word of a SET_MODE that runs now names the mode of its row (R568). -/
theorem setMode_fld (k : Nat) (hk : k < 4) (p : Packet) (n : Node) (h : n.runsNow (withBits 0 2 k (asRow .setMode p)) = true) :
    fld (pw (withBits 0 2 k (asRow .setMode p)) 0) 1 0 = k := by
  have hfit := runsNow_wordsFit _ n .setMode h (opcodeOf_setMode k p)
  have hne : p.words ≠ [] := fun he => by simp [wordsFit, withBits, he] at hfit
  exact withBits_fld 0 1 k (asRow .setMode p) hne hk (by decide)

theorem cmdSetMode_toCask (q : Packet) (n m : Node) (h : n.runsNow q = true) (hk : fld (pw q 0) 1 0 = 0) :
    cmdSetMode (n.opFrom q) m = cmdToCask (n.opFrom q) m := by
  obtain ⟨_, hr⟩ := runsNow_spec q n h
  simp only [cmdSetMode, hr.packet, hk]

theorem cmdSetMode_toTrack (q : Packet) (n m : Node) (h : n.runsNow q = true) (hk : fld (pw q 0) 1 0 = 1) :
    cmdSetMode (n.opFrom q) m = cmdToTrack (n.opFrom q) m := by
  obtain ⟨_, hr⟩ := runsNow_spec q n h
  simp only [cmdSetMode, hr.packet, hk]

theorem cmdSetMode_toDrive (q : Packet) (n m : Node) (h : n.runsNow q = true) (hk : fld (pw q 0) 1 0 = 2) :
    cmdSetMode (n.opFrom q) m = cmdToDrive (n.opFrom q) m := by
  obtain ⟨_, hr⟩ := runsNow_spec q n h
  simp only [cmdSetMode, hr.packet, hk]

/-- What does not read the talk reads the same at the commit as before the packet. -/
theorem atCommit_reads {β : Type} (g : Node → β) (hg : ∀ n, g n.body = g n) (p : Packet) (n : Node) (h : n.runsNow p = true) :
    g (n.atCommit p) = g n := by
  rw [← hg, (atCommit_spec p n h).1, hg]

/-! To CASK -/

theorem setMode_toCask (q : Packet) (n : Node) (h : n.runsNow q = true) (hk : fld (pw q 0) 1 0 = 0) (hm : n.core.mode ≠ .cask) :
    (n.packetRow cmdSetMode q).core.mode = .cask ∧ (n.packetRow cmdSetMode q).core.caskDue = true := by
  have hrow := stand_of_body (packetRow_sameBut cmdSetMode q n h).core
  rw [cmdSetMode_toCask q n _ h hk] at hrow
  have hmode := atCommit_reads (fun n => n.endAuto.core.mode) (fun _ => rfl) q n h
  obtain ⟨hcask, hdue⟩ := caskEntry_enters (n.atCommit q).endAuto fun he => hm (hmode.symm.trans he)
  exact ⟨(mode_of_stand hrow).trans hcask, (caskDue_of_stand hrow).trans hdue⟩

/-! To TRACK -/

/-- R32: where nothing refuses it, CASK to TRACK is a TRACK entry, and what is noted of it. -/
theorem caskToTrack_core (op : PoolOp) (n : Node) (hl : n.lockState ≠ 2) (hf : n.core.faults.topClass ≠ 3) :
    ∃ x, (caskToTrack op n).2.core = { (n.enterTrack (some op.order)).core with trackEntry := x } := by
  unfold caskToTrack
  rw [if_neg (by simp [hl, hf])]
  generalize n.enterTrack (some op.order) = m
  dsimp only
  split
  · split <;> exact ⟨_, rfl⟩
  · exact ⟨_, rfl⟩

theorem fronts_of_body {m n : Node} (h : m.core.body = n.core.body) : m.core.fronts = n.core.fronts := by
  have := congrArg Core.fronts h
  exact this

theorem setMode_toTrack_of_cask (q : Packet) (n : Node) (h : n.runsNow q = true) (hk : fld (pw q 0) 1 0 = 1)
    (hm : n.core.mode = .cask) (hl : n.lockState ≠ 2) (hf : n.core.faults.topClass ≠ 3) :
    (n.packetRow cmdSetMode q).core.mode = .track ∧ (n.packetRow cmdSetMode q).core.caskDue = false ∧
      ∀ c, n.takesPart c = true → ((n.packetRow cmdSetMode q).core.fronts.get c).trk.running = true := by
  have hrow := (packetRow_sameBut cmdSetMode q n h).core
  have hmode := atCommit_reads (fun n => n.endAuto.core.mode) (fun _ => rfl) q n h
  have hlock := atCommit_reads (fun n => n.endAuto.lockState) (fun _ => rfl) q n h
  have htop := atCommit_reads (fun n => n.endAuto.core.faults.topClass) (fun _ => rfl) q n h
  have hpart := atCommit_reads (fun n => n.endAuto.takesPart) (fun _ => rfl) q n h
  rw [cmdSetMode_toTrack q n _ h hk] at hrow
  simp only [cmdToTrack, hmode.trans hm] at hrow
  obtain ⟨x, hx⟩ := caskToTrack_core (n.opFrom q) (n.atCommit q).endAuto
    (fun he => hl (hlock.symm.trans he)) (fun he => hf (htop.symm.trans he))
  obtain ⟨htrack, hdue, _, hrun⟩ := enterTrack_spec (some (n.opFrom q).order) (n.atCommit q).endAuto
  rw [mode_of_stand (stand_of_body hrow), caskDue_of_stand (stand_of_body hrow), fronts_of_body hrow, hx]
  dsimp only
  exact ⟨htrack, hdue, fun c hc => hrun c ((congrFun hpart c).trans hc)⟩

theorem slotRunning_of_none_enabled (n : Node) (h : n.enabledChs = []) (c : Ch) : n.slotRunning c = false := by
  have hc : (n.core.slots.get c).enabled = false := by
    have hin : c ∈ ([0, 1, 2, 3] : List Ch) := by match c with | 0 | 1 | 2 | 3 => decide
    exact Bool.eq_false_iff.mpr (List.filter_eq_nil_iff.mp h c hin)
  simp [Node.slotRunning, hc]

theorem restDone_toTrack_mode (w : RestWait) (n : Node) (h : w.kind = .toTrack) : (n.restDone w).core.mode = .track := by
  simp only [Node.restDone, h]
  exact mode_of_stand (endOpt_stand _ _ _ _)

/-- A wait with no channel to wait for is over as it is judged. -/
theorem settleRests_toTrack_mode (w : RestWait) (n : Node) (hr : n.core.rests = [w]) (hk : w.kind = .toTrack) (hc : w.chs = []) :
    n.settleRests.core.mode = .track := by
  unfold Node.settleRests
  rw [hr]
  simp only [eachOf, List.foldl_cons, List.foldl_nil, hk, hc]
  exact restDone_toTrack_mode w _ hk

/-- R39: with no loop enabled and nothing that waits for rest, DRIVE to TRACK changes the mode at once. -/
theorem driveToTrack_mode (op : PoolOp) (n : Node) (hr : n.core.rests = []) (he : n.enabledChs = []) :
    (driveToTrack op n).2.core.mode = .track := by
  have hown : n.ownsAll op.client = true := by simp [Node.ownsAll, he]
  have hstay : eachCh (fun c m => if m.slotRunning c then m.stopBy c else m) n = n := by
    simp [eachCh, slotRunning_of_none_enabled n he]
  unfold driveToTrack
  rw [hown, if_neg (by decide), hstay]
  exact settleRests_toTrack_mode { op := some op.order, kind := .toTrack, chs := n.enabledChs } _
    (by rw [modCore_core, hr]; rfl) rfl he

theorem setMode_toTrack_of_drive (q : Packet) (n : Node) (h : n.runsNow q = true) (hk : fld (pw q 0) 1 0 = 1)
    (hm : n.core.mode = .drive) (hr : n.core.rests = []) (he : n.enabledChs = []) :
    (n.packetRow cmdSetMode q).core.mode = .track := by
  have hrow := mode_of_stand (stand_of_body (packetRow_sameBut cmdSetMode q n h).core)
  have hmode := atCommit_reads (fun n => n.endAuto.core.mode) (fun _ => rfl) q n h
  have hrests := atCommit_reads (fun n => n.endAuto.core.rests) (fun _ => rfl) q n h
  have henabled := atCommit_reads (fun n => n.endAuto.enabledChs) (fun _ => rfl) q n h
  rw [cmdSetMode_toTrack q n _ h hk] at hrow
  simp only [cmdToTrack, hmode.trans hm] at hrow
  exact hrow.trans (driveToTrack_mode _ _ (hrests.trans hr) (henabled.trans he))

/-! To DRIVE -/

/-- What the reply to a command rests on: the pool, the time, and what is on its way to each receiver. -/
def Node.replyGround (n : Node) : List PoolOp × TimeBase × (Client → List ReplyPkt) := (n.core.pool, n.time, fun c => n.sentTo c)

theorem modSlot_replyGround (c : Ch) (f : Slot → Slot) (n : Node) : (n.modSlot c f).replyGround = n.replyGround := rfl
theorem modOut_replyGround (c : Ch) (f : AOut → AOut) (n : Node) : (n.modOut c f).replyGround = n.replyGround := rfl

theorem startSlot_replyGround (c : Ch) (n : Node) : (n.startSlot c).replyGround = n.replyGround := by
  unfold Node.startSlot
  dsimp only
  rw [modSlot_replyGround]
  split
  · exact modOut_replyGround c _ n
  · rfl

theorem disarmAtDrive_stays (n : Node) : n.disarmAtDrive.core.mode = n.core.mode ∧ n.disarmAtDrive.replyGround = n.replyGround := by
  unfold Node.disarmAtDrive
  split <;> exact ⟨rfl, rfl⟩

/-- R32, R38: with every condition met, TRACK to DRIVE answers DONE in DRIVE. -/
theorem trackToDrive_done (op : PoolOp) (n : Node) (ho : n.ownsAll op.client = true) (hc : n.enabledChs.any n.hasClass2 = false)
    (ha : n.admissionNow = none) :
    ∃ m, trackToDrive op n = (.ok [], m) ∧ m.core.mode = .drive ∧ m.replyGround = n.replyGround := by
  obtain ⟨hmode, hground⟩ := disarmAtDrive_stays ((eachOf n.enabledChs Node.startSlot n).modCore fun k => { k with mode := .drive })
  refine ⟨_, ?_, hmode, hground.trans (eachOf_part Node.replyGround Node.startSlot startSlot_replyGround _ n)⟩
  simp [trackToDrive, ho, hc, ha]

theorem setMode_toDrive (q : Packet) (n : Node) (h : n.runsNow q = true) (ho : opcodeOf q = some .setMode)
    (hk : fld (pw q 0) 1 0 = 2) (hm : n.core.mode = .track) (hown : n.ownsAll (senderOf q) = true)
    (hc : n.enabledChs.any n.hasClass2 = false) (ha : n.admissionNow = none) :
    (n.packetRow cmdSetMode q).core.mode = .drive ∧
      (n.packetRow cmdSetMode q).sentTo (senderOf q) = n.sentTo (senderOf q) ++ n.finalReply q .done [[]] false := by
  obtain ⟨_, hr⟩ := runsNow_spec q n h
  have hmode := atCommit_reads (fun n => n.endAuto.core.mode) (fun _ => rfl) q n h
  have howns := atCommit_reads (fun n => n.endAuto.ownsAll (senderOf q)) (fun _ => rfl) q n h
  have hclass := atCommit_reads (fun n => n.endAuto.enabledChs.any n.endAuto.hasClass2) (fun _ => rfl) q n h
  have hadm := atCommit_reads (fun n => n.endAuto.admissionNow) (fun _ => rfl) q n h
  obtain ⟨m, hdone, hdrive, hground⟩ := trackToDrive_done (n.opFrom q) (n.atCommit q).endAuto
    (by rw [hr.client]; exact howns.trans hown) (hclass.trans hc) (hadm.trans ha)
  have hcmd : cmdSetMode (n.opFrom q) (n.atCommit q) = (.final .done [[]] false, m) := by
    rw [cmdSetMode_toDrive q n _ h hk]
    simp only [cmdToDrive, hmode.trans hm]
    exact hdone
  have hpool : m.core.pool = (n.atCommit q).core.pool := congrArg Prod.fst hground
  have htime : m.time = (n.atCommit q).time := congrArg (fun g => g.2.1) hground
  have hsent : m.sentTo (senderOf q) = (n.atCommit q).sentTo (senderOf q) := congrArg (fun g => g.2.2 (senderOf q)) hground
  obtain ⟨_, hsameTime, _, _, hsentYet⟩ := atCommit_spec q n h
  have hacc := notAccepted q n .setMode h ho rfl
  rw [packetRow_final cmdSetMode q n m h .done [[]] false hcmd hpool, finish_core]
  refine ⟨hdrive, ?_⟩
  rw [finish_sentTo, if_pos rfl, dropOp_sentTo, hsent, hsentYet, if_neg (by simp [hacc]), Node.finalReply, Node.tick16, Node.tick16,
    htime, hsameTime]

/-- Settles O8: the row names its mode in word 0, the conditions of R32 read the same at the commit as before the packet, and the change
itself is CASK entry, TRACK entry, a wait for rest with nothing to wait for, or the start of the slots. -/
theorem setModeChangesTheMode : Obligations.SetModeChangesTheMode := by
  refine ⟨fun s p h hm => ⟨_, rfl, ?cask⟩, fun s p h hm hl hf => ⟨_, rfl, ?track⟩, fun s p h hm hr he => ⟨_, rfl, ?rest⟩,
    fun s p h hm ho hc ha => ⟨_, rfl, ?drive⟩⟩
  case cask => exact setMode_toCask _ s.node h (setMode_fld 0 (by decide) p s.node h) hm
  case track => exact setMode_toTrack_of_cask _ s.node h (setMode_fld 1 (by decide) p s.node h) hm hl hf
  case rest => exact setMode_toTrack_of_drive _ s.node h (setMode_fld 1 (by decide) p s.node h) hm hr he
  case drive =>
    have hsender : senderOf (withBits 0 2 2 (asRow .setMode p)) = senderOf p := by rw [withBits_sender, asRow_sender]
    have hrow := setMode_toDrive _ s.node h (opcodeOf_setMode 2 p) (setMode_fld 2 (by decide) p s.node h) hm (by rwa [hsender]) hc ha
    rwa [hsender] at hrow

end Sys2Proof.Machine
end

section
/-!
PROOFS. The host port (18_pins_and_host_port.md R587 to R599): what each transaction does at its CSN rise.
-/
namespace Sys2Proof.Machine

/-! ### What an answer leaves of the host port -/

@[simp] theorem emitAll_rx (d : Client) (ps : List ReplyPkt) (n : Node) : (n.emitAll d ps).host.rx = n.host.rx := by
  refine eachOf_part (fun m => m.host.rx) _ (fun p m => ?_) ps n
  cases d with
  | line i => rfl
  | ctxL =>
    simp only [Node.emit, Client.isL, if_true, modHost_host]
    split <;> rfl

@[simp] theorem accepted_rx (p : Packet) (k : Nat) (n : Node) : (n.accepted p k).host.rx = n.host.rx := by
  unfold Node.accepted
  split
  · rfl
  · exact emitAll_rx _ _ n

theorem packetOfBytes_port {port : PacketPort} {bs : List Byte} {p : Packet} {ok : Bool}
    (h : packetOfBytes port bs = some (p, ok)) : p.port = port := by
  simp only [packetOfBytes, Option.ite_none_left_eq_some, Option.some.injEq, Prod.mk.injEq] at h
  obtain ⟨_, _, hp, _⟩ := h
  rw [← hp]

/-! ### Writes as the node judges them -/

theorem hostWrite_of_discarded (w : HostWrite) (t : Nat) (suits : Node → Bool) (f : Node → Node) (n : Node)
    (hv : n.power.vcel = true) (hc : n.power.cresetn = true)
    (h : w.cutInByte = true ∨ w.bytes.length ≠ w.len.toNat ∨ suits (n.atT t) = false) :
    n.hostWrite w t suits f = (n.atT t).hostErrors 1 := by
  rw [Node.hostWrite, whenCellar_of_on _ _ hv hc]
  exact if_pos (by simpa [or_assoc] using h)

theorem hostWrite_of_good (w : HostWrite) (t : Nat) (suits : Node → Bool) (f : Node → Node) (n : Node)
    (hv : n.power.vcel = true) (hc : n.power.cresetn = true)
    (hcut : w.cutInByte = false) (hlen : w.bytes.length = w.len.toNat) (hs : suits (n.atT t) = true) :
    n.hostWrite w t suits f = f (n.atT t) := by
  rw [Node.hostWrite, whenCellar_of_on _ _ hv hc]
  exact if_neg (by simp [hcut, hlen, hs])


/-! ### The receive buffer -/

theorem refill_of_none_waiting (n : Node) (h : n.host.overflow = []) :
    (n.modHost fun h => refillReplies h.overflow.length h) = n := by
  simp only [Node.modHost, h, List.length_nil, refillReplies]

/-- With nothing waiting on either side, the flow of R589 moves nothing. -/
theorem hostFlow_of_idle (n : Node) (ho : n.host.overflow = []) (hr : n.host.rx = []) : n.hostFlow = n := by
  simp only [Node.hostFlow, refill_of_none_waiting n ho, hr, List.length_nil, Node.takeRx]

/-- A packet that comes into an empty receive buffer, with room for replies, is taken at once (R589). -/
theorem hostFlow_of_one (b : List Byte) (n : Node) (ho : n.host.overflow = []) (hr : n.host.rx = []) :
    (n.modHost fun h => { h with rx := h.rx ++ [b] }).hostFlow = n.hostArrive b := by
  have hback : (n.modHost fun h => { h with rx := h.rx ++ [b] }).modHost (fun h => { h with rx := [] }) = n := by
    simp only [Node.modHost, ← hr]
  unfold Node.hostFlow
  rw [refill_of_none_waiting _ (by simpa using ho)]
  simp only [modHost_host, hr, List.nil_append, List.length_singleton, Node.takeRx, ho, List.isEmpty_nil, Bool.not_true,
    Bool.false_eq_true, if_false]
  exact congrArg (Node.hostArrive b) hback

/-! ### The arrival of a packet of context L -/

theorem touchSession_of_host (p : Packet) (n : Node) (h : p.port = .host) : n.touchSession p = n := by
  unfold Node.touchSession
  rw [h]

theorem senderOf_of_host (p : Packet) (h : p.port = .host) : senderOf p = .ctxL := by
  unfold senderOf
  rw [h]

theorem hostArrive_of_packet (bs : List Byte) (p : Packet) (ok : Bool) (n : Node) (h : packetOfBytes .host bs = some (p, ok)) :
    n.hostArrive bs = (n.arrive p ok (wrapK (n.time.k48 + 1))).2 := by
  unfold Node.hostArrive
  rw [h]

/-- R60, R91: while the core is down, the cellar answers each packet with one status. -/
theorem arrive_of_down (p : Packet) (ok : Bool) (first : Nat) (st : Status) (n : Node) (hp : p.port = .host)
    (h : n.downStatus = some st) : (n.arrive p ok first).2 = n.answer p st [] := by
  simp only [Node.arrive, touchSession_of_host p n hp, h]

theorem arrive_of_accept (p : Packet) (ok : Bool) (first due : Nat) (oc : Opcode) (sch : Bool) (side : RelaySide) (n : Node)
    (hp : p.port = .host) (h : n.downStatus = none) (hj : n.judgePacket p ok first = .accept oc due sch side) :
    (n.arrive p ok first).2 = (n.poolIn p due sch side).2 := by
  simp only [Node.arrive, touchSession_of_host p n hp, h, hj]

theorem downStatus_of_held (n : Node) (hr : n.core.run = .held) (hu : n.restart.updating = false) :
    n.downStatus = some .coreReset := by
  simp [Node.downStatus, hr, hu]

theorem downStatus_of_up (n : Node) (hup : n.up = true) (hd : n.core.drain = none) : n.downStatus = none := by
  simp [Node.downStatus, run_of_up n hup, hd]

/-- R59, R78: what enters the pool is the accepted packet as a waiting operation of its sender. -/
theorem poolIn_enters (p : Packet) (due : Nat) (sch : Bool) (side : RelaySide) (n : Node) :
    (n.poolIn p due sch side).2.host.rx = n.host.rx ∧ ∃ op : PoolOp,
      (n.poolIn p due sch side).2.core.pool = op.enter n.core.pool ∧ op.packet = p ∧ op.due = due ∧ op.phase = .waiting ∧
        op.side = side ∧ op.client = senderOf p := by
  unfold Node.poolIn
  dsimp only
  refine ⟨?rx, { slot := n.nextSlot, order := n.core.nextOrder, client := senderOf p, packet := p, scheduled := sch, due := due
                 phase := .waiting, side := side, arrivedAt := n.now }, ?pool, rfl, rfl, rfl, rfl, rfl⟩
  case rx => split <;> split <;> simp only [Node.laneSend, modLane_host, accepted_rx, modCore_host]
  case pool => split <;> split <;> simp only [Node.laneSend, modLane_core, accepted_core, modCore_core]

/-! ### The rows of the writes -/

theorem effect_of_discarded {c : Instr} {s : State} {w : HostWrite} {t : Nat} {suits : Node → Bool} {f : Node → Node}
    (hrow : exec c s = s.upd (Node.hostWrite w t suits f)) (hv : s.node.power.vcel = true) (hc : s.node.power.cresetn = true)
    (h : w.cutInByte = true ∨ w.bytes.length ≠ w.len.toNat ∨ suits (s.node.atT t) = false) :
    Effect c s fun m => m = (s.node.atT t).hostErrors 1 :=
  ⟨_, hrow, hostWrite_of_discarded w t suits f s.node hv hc h⟩

theorem effect_of_write {c : Instr} {s : State} {w : HostWrite} {t : Nat} {suits : Node → Bool} {f : Node → Node} {P : Node → Prop}
    (hrow : exec c s = s.upd (Node.hostWrite w t suits f)) (hv : s.node.power.vcel = true) (hc : s.node.power.cresetn = true)
    (hcut : w.cutInByte = false) (hlen : w.bytes.length = w.len.toNat) (hs : suits (s.node.atT t) = true)
    (h : P (f (s.node.atT t))) : Effect c s P :=
  ⟨_, hrow, (hostWrite_of_good w t suits f s.node hv hc hcut hlen hs).symm ▸ h⟩

/-- R587: a write cut within a byte, or not of its length, is counted, whatever its kind. -/
theorem effect_badWrite (s : State) (w : HostWrite) (t : Nat) (hv : s.node.power.vcel = true) (hc : s.node.power.cresetn = true)
    (h : w.cutInByte = true ∨ w.bytes.length ≠ w.len.toNat) :
    ∀ c ∈ [Instr.packetWrite w t, .lineWrite w t, .mntWrite w t, .slotsWrite w t, .controlWrite w t],
      Effect c s fun m => m = (s.node.atT t).hostErrors 1 := by
  have hd {suits : Bool} : w.cutInByte = true ∨ w.bytes.length ≠ w.len.toNat ∨ suits = false := h.imp id .inl
  simp only [List.forall_mem_cons]
  exact ⟨effect_of_discarded rfl hv hc hd, effect_of_discarded rfl hv hc hd, effect_of_discarded rfl hv hc hd,
    effect_of_discarded rfl hv hc hd, effect_of_discarded rfl hv hc hd, fun _ h => absurd h List.not_mem_nil⟩

/-- R591 to R593: line traffic is counted at a node that does not head. -/
theorem effect_lineTraffic_of_notHeading (s : State) (w : HostWrite) (t : Nat) (hv : s.node.power.vcel = true)
    (hc : s.node.power.cresetn = true) (h : s.node.heading = false) :
    ∀ c ∈ [Instr.lineWrite w t, .mntWrite w t, .slotsWrite w t], Effect c s fun m => m = (s.node.atT t).hostErrors 1 := by
  have hn : (s.node.atT t).heading = false := h
  simp only [List.forall_mem_cons]
  exact ⟨effect_of_discarded rfl hv hc (.inr (.inr hn)), effect_of_discarded rfl hv hc (.inr (.inr hn)),
    effect_of_discarded rfl hv hc (.inr (.inr (by simp [hn]))), fun _ h => absurd h List.not_mem_nil⟩

/-- R588: a packet that does not fit or fails its check is counted. -/
theorem effect_badPacket (s : State) (w : HostWrite) (t : Nat) (hv : s.node.power.vcel = true) (hc : s.node.power.cresetn = true)
    (h : (s.node.atT t).host.rxFree < w.bytes.length ∨ packetOfBytes .host w.bytes = none) :
    Effect (.packetWrite w t) s fun m => m = (s.node.atT t).hostErrors 1 := by
  by_cases hbad : w.cutInByte = true ∨ w.bytes.length ≠ w.len.toNat
  · exact effect_badWrite s w t hv hc hbad _ List.mem_cons_self
  · obtain ⟨hcut, hlen⟩ := not_or.mp hbad
    exact effect_of_write rfl hv hc (Bool.eq_false_iff.mpr hcut) (Classical.not_not.mp hlen) rfl (if_pos h)

/-- R588, R589: a good packet is taken out of an empty receive buffer at once. -/
theorem effect_goodPacket {s : State} {w : HostWrite} {t : Nat} {p : Packet} {ok : Bool} {P : Node → Prop}
    (hv : s.node.power.vcel = true) (hc : s.node.power.cresetn = true) (hcut : w.cutInByte = false)
    (hlen : w.bytes.length = w.len.toNat) (hp : packetOfBytes .host w.bytes = some (p, ok))
    (hfit : w.bytes.length ≤ (s.node.atT t).host.rxFree) (hr : s.node.host.rx = []) (ho : s.node.host.overflow = [])
    (h : P ((s.node.atT t).arrive p ok (wrapK (s.node.time.k48 + 1))).2) : Effect (.packetWrite w t) s P := by
  refine effect_of_write rfl hv hc hcut hlen rfl ?_
  have hgood : ¬ ((s.node.atT t).host.rxFree < w.bytes.length ∨ packetOfBytes .host w.bytes = none) :=
    not_or.mpr ⟨Nat.not_lt.mpr hfit, by simp [hp]⟩
  rw [if_neg hgood, hostFlow_of_one w.bytes (s.node.atT t) ho hr, hostArrive_of_packet w.bytes p ok _ hp]
  exact h

theorem effect_packetWrite_held (s : State) (w : HostWrite) (t : Nat) (p : Packet) (ok : Bool) (hv : s.node.power.vcel = true)
    (hc : s.node.power.cresetn = true) (hcut : w.cutInByte = false) (hlen : w.bytes.length = w.len.toNat)
    (hp : packetOfBytes .host w.bytes = some (p, ok)) (hfit : w.bytes.length ≤ (s.node.atT t).host.rxFree)
    (hr : s.node.host.rx = []) (ho : s.node.host.overflow = []) (hheld : s.node.core.run = .held)
    (hu : s.node.restart.updating = false) :
    Effect (.packetWrite w t) s fun m => m.core = s.node.core ∧ m.host.rx = [] ∧
      m.sentTo .ctxL = s.node.sentTo .ctxL ++ replyPackets p .coreReset false true s.node.tick16 [[]] := by
  have hport := packetOfBytes_port hp
  refine effect_goodPacket hv hc hcut hlen hp hfit hr ho ?_
  rw [arrive_of_down p ok _ .coreReset _ hport (downStatus_of_held (s.node.atT t) hheld hu)]
  refine ⟨answer_core _ _ _ _, (emitAll_rx _ _ _).trans hr, ?_⟩
  rw [answer_sentTo, if_pos (senderOf_of_host p hport).symm]
  rfl

theorem effect_packetWrite_accepted (s : State) (w : HostWrite) (t : Nat) (p : Packet) (ok : Bool) (oc : Opcode) (due : Nat)
    (sch : Bool) (side : RelaySide) (hv : s.node.power.vcel = true)
    (hc : s.node.power.cresetn = true) (hcut : w.cutInByte = false) (hlen : w.bytes.length = w.len.toNat)
    (hp : packetOfBytes .host w.bytes = some (p, ok)) (hfit : w.bytes.length ≤ (s.node.atT t).host.rxFree)
    (hr : s.node.host.rx = []) (ho : s.node.host.overflow = []) (hup : s.node.up = true) (hd : s.node.core.drain = none)
    (hj : (s.node.atT t).judgePacket p ok (wrapK (s.node.time.k48 + 1)) = .accept oc due sch side) :
    Effect (.packetWrite w t) s fun m => m.host.rx = [] ∧ ∃ op : PoolOp, m.core.pool = op.enter s.node.core.pool ∧
      op.packet = p ∧ op.due = due ∧ op.phase = .waiting ∧ op.side = side ∧ op.client = .ctxL := by
  have hport := packetOfBytes_port hp
  refine effect_goodPacket hv hc hcut hlen hp hfit hr ho ?_
  rw [arrive_of_accept p ok _ due oc sch side _ hport (downStatus_of_up (s.node.atT t) hup hd) hj, ← senderOf_of_host p hport]
  obtain ⟨hrx, hop⟩ := poolIn_enters p due sch side (s.node.atT t)
  exact ⟨hrx.trans hr, hop⟩

/-! ### The rows of the reads -/

theorem effect_read {c : Instr} {s : State} {f : Node → Node} {P : Node → Prop} (hrow : exec c s = s.upd fun n => n.whenCellar f)
    (hv : s.node.power.vcel = true) (hc : s.node.power.cresetn = true) (h : P (f s.node)) : Effect c s P :=
  ⟨s.node.whenCellar f, hrow, (whenCellar_of_on f s.node hv hc).symm ▸ h⟩

theorem drivenBytes_nil (k : Nat) : drivenBytes k [] = List.replicate k 0#8 := by
  simp [drivenBytes, padTo]

theorem length_bytesBE (k x : Nat) : (bytesBE k x).length = k := by
  induction k with
  | zero => rfl
  | succ k ih => rw [bytesBE, List.length_cons, ih]

theorem length_statusBytes (n : Node) : n.statusBytes.length = 16 := by
  simp only [Node.statusBytes, List.length_append, length_bytesBE]

/-- R590: a reply packet clocked in part stays the oldest. -/
theorem effect_replyRead_part (s : State) (k t : Nat) (r : ReplyPkt) (rs : List ReplyPkt) (hv : s.node.power.vcel = true)
    (hc : s.node.power.cresetn = true) (h : s.node.host.replies = r :: rs) (hk : k < (bytesBE 2 r.size ++ r.bytes).length) :
    Effect (.replyRead k t) s fun m =>
      m = (s.node.atT t).modHost fun h => { h with driven := drivenBytes k (bytesBE 2 r.size ++ r.bytes) } := by
  refine effect_read rfl hv hc ?_
  simp only [atT_host, h, if_pos hk]

/-- R589, R590: a reply packet clocked whole leaves the buffer. -/
theorem effect_replyRead_whole (s : State) (k t : Nat) (r : ReplyPkt) (rs : List ReplyPkt) (hv : s.node.power.vcel = true)
    (hc : s.node.power.cresetn = true) (h : s.node.host.replies = r :: rs) (hk : (bytesBE 2 r.size ++ r.bytes).length ≤ k)
    (ho : s.node.host.overflow = []) (hr : s.node.host.rx = []) :
    Effect (.replyRead k t) s fun m =>
      m = (s.node.atT t).modHost fun h => { h with driven := drivenBytes k (bytesBE 2 r.size ++ r.bytes), replies := rs } := by
  refine effect_read rfl hv hc ?_
  simp only [atT_host, h, if_neg (Nat.not_lt.mpr hk)]
  exact hostFlow_of_idle _ ho hr

theorem effect_replyRead_none (s : State) (k t : Nat) (hv : s.node.power.vcel = true) (hc : s.node.power.cresetn = true)
    (h : s.node.host.replies = []) :
    Effect (.replyRead k t) s fun m => m.host.driven = List.replicate k 0#8 ∧ m.core = s.node.core := by
  refine effect_read rfl hv hc ?_
  simp only [atT_host, h]
  exact ⟨drivenBytes_nil k, rfl⟩

/-- R594, R595: the oldest block is driven, and leaves when it was clocked whole. -/
theorem effect_cyclicRead (s : State) (k t : Nat) (b : List Byte) (bs : List (List Byte)) (hv : s.node.power.vcel = true)
    (hc : s.node.power.cresetn = true) (h : s.node.host.blocks = b :: bs) :
    Effect (.cyclicRead k t) s fun m => m = (s.node.atT t).modHost fun h =>
      { h with driven := drivenBytes k (bytesBE 4 b.length ++ b),
               blocks := if (bytesBE 4 b.length ++ b).length ≤ k then bs else b :: bs } := by
  refine effect_read rfl hv hc ?_
  simp only [atT_host, h, ← Nat.not_le, ite_not]

/-- Settles O48: a write does what its row does once its length and the node's role suit, and is counted otherwise; the arrival of a good
packet is that of any packet of context L; a read drives the oldest entry, and the flow behind it moves nothing. -/
theorem hostPort : Obligations.HostPort := by
  refine ⟨fun s w t hv hc => ⟨effect_badWrite s w t hv hc, effect_lineTraffic_of_notHeading s w t hv hc,
    effect_badPacket s w t hv hc, fun hcut hlen => ⟨?packet, ?line, ?mnt, ?slots, ?control⟩⟩,
    fun s k t hv hc => ⟨?reply, ?cyclic, effect_replyRead_none s k t hv hc, ?status, length_statusBytes _⟩⟩
  case packet =>
    exact fun p ok hp hfit hr ho => ⟨effect_packetWrite_held s w t p ok hv hc hcut hlen hp hfit hr ho,
      fun oc due sch side => effect_packetWrite_accepted s w t p ok oc due sch side hv hc hcut hlen hp hfit hr ho⟩
  case line =>
    intro hh h2 hroom
    refine effect_of_write rfl hv hc hcut hlen hh ?_
    have hgood : ¬ (w.bytes.length < 2 ∨ 16384 < (s.node.atT t).host.lineUsed + w.bytes.length) :=
      not_or.mpr ⟨Nat.not_lt.mpr h2, Nat.not_lt.mpr hroom⟩
    rw [if_neg hgood]
    rfl
  case mnt =>
    intro hh hkind hbytes hwait
    refine effect_of_write rfl hv hc hcut hlen hh ?_
    have hgood : ¬ (w.bytes.headD 0 ≠ 0x20 ∨ (s.node.atT t).parN Pid.lineCmdbytes 0 < w.bytes.length ∨
        4 ≤ (s.node.atT t).host.mntQueue.length) :=
      not_or.mpr ⟨not_not_intro hkind, not_or.mpr ⟨Nat.not_lt.mpr hbytes, Nat.not_le.mpr hwait⟩⟩
    rw [if_neg hgood]
    rfl
  case slots =>
    intro hh hbytes
    have hsuits : ((s.node.atT t).heading &&
        w.bytes.length == ((s.node.atT t).line.count - 1) * (s.node.atT t).parN Pid.lineOutlen 0) = true :=
      Bool.and_eq_true_iff.mpr ⟨hh, beq_iff_eq.mpr hbytes⟩
    exact effect_of_write rfl hv hc hcut hlen hsuits rfl
  case control =>
    exact fun h4 => effect_of_write rfl hv hc hcut hlen (beq_iff_eq.mpr h4) ⟨rfl, rfl⟩
  case reply =>
    exact fun r rs h => ⟨effect_replyRead_part s k t r rs hv hc h, effect_replyRead_whole s k t r rs hv hc h⟩
  case cyclic => exact fun b bs h => effect_cyclicRead s k t b bs hv hc h
  case status => exact effect_read rfl hv hc rfl

end Sys2Proof.Machine
end

section
/-!
PROOFS. Steep (03_steep_and_cask.md R89 to R119): what starts it, its steps, and that it ends in CASK with the core up.
-/
namespace Sys2Proof.Machine

/-! ### What a core reset and the start of Steep leave -/

@[simp] theorem formFault_held (w : FaultWindow) (k : Nat) (n : Node) : (n.formFault w k).held = n.held :=
  (event_sameBut _ _ _ _ n).held

@[simp] theorem closeWindows_held (n : Node) : n.closeWindows.held = n.held :=
  eachOf_part Node.held (fun w m => m.formFault w w.count) (fun w m => formFault_held w w.count m) _ n

@[simp] theorem dropPool_held (cause : DropCause) (n : Node) : (n.dropPool cause).held = n.held := by
  unfold Node.dropPool
  dsimp only
  refine (eachOf_part Node.held _ ?hops _ _).trans ((eachOf_part Node.held _ ?ops _ _).trans (eachOf_part Node.held _ ?plays _ n))
  case hops => exact fun _ _ => rfl
  case plays => exact fun p m => (event_sameBut _ _ _ _ m).held
  case ops =>
    intro o m
    split
    · rfl
    · exact (setClient_sameBut _ _).held

@[simp] theorem dropTransfer_held (n : Node) : n.dropTransfer.held = n.held := by
  unfold Node.dropTransfer
  split <;> rfl

/-- R116: the tag that the cellar holds outlasts the reset. -/
@[simp] theorem coreReset_held (t : SteepTrigger) (d : DropCause) (wd : Option Bool) (n : Node) :
    (n.coreReset t d wd).held = n.held := by
  unfold Node.coreReset
  simp only [modLine_held, modLane_held, modStore_held, (setClient_sameBut _ _).held, dropTransfer_held, dropPool_held,
    closeWindows_held]

theorem coreReset_hops (t : SteepTrigger) (d : DropCause) (wd : Option Bool) (n : Node) :
    (n.coreReset t d wd).core.hops = [] := by
  unfold Node.coreReset
  simp only [modLine_core, modLane_core, modStore_core, setClient_core]

@[simp] theorem coreReset_trigger (t : SteepTrigger) (d : DropCause) (wd : Option Bool) (n : Node) :
    (n.coreReset t d wd).restart.trigger = t := rfl

@[simp] theorem coreReset_watchdog (t : SteepTrigger) (d : DropCause) (wd : Option Bool) (n : Node) :
    (n.coreReset t d wd).restart.watchdog = wd := rfl

theorem mayRun_of_power {m n : Node} (h : m.power = n.power) : m.mayRun = n.mayRun := by
  unfold Node.mayRun
  rw [h]

/-- A Steep that begins leaves the pool, the hop entries and what the cellar holds as they are. -/
theorem beginSteep_keeps (n : Node) (h : n.mayRun = true) :
    n.beginSteep.core.pool = n.core.pool ∧ n.beginSteep.core.hops = n.core.hops ∧ n.beginSteep.held = n.held ∧
      n.beginSteep.restart = n.restart := by
  rw [Node.beginSteep, if_pos h]
  exact ⟨rfl, rfl, rfl, rfl⟩

/-- What the reset of a core that may run, and the Steep that follows, leave of the pool, the hop entries and the cellar's notes. -/
theorem steep_after_coreReset (t : SteepTrigger) (d : DropCause) (wd : Option Bool) (n : Node) (h : n.mayRun = true) :
    let m := (n.coreReset t d wd).beginSteep
    m.core.pool = [] ∧ m.core.hops = [] ∧ (∃ r, m.core.run = .steep r ∧ r.trigger = t) ∧ m.held = n.held ∧
      m.restart.watchdog = wd := by
  have hrun : (n.coreReset t d wd).mayRun = true := (mayRun_of_power (coreReset_power t d wd n)).trans h
  obtain ⟨_, hsteep⟩ := beginSteep_of_mayRun _ hrun
  obtain ⟨hpool, hhops, hheld, hrestart⟩ := beginSteep_keeps _ hrun
  rw [coreReset_trigger] at hsteep
  dsimp only
  rw [hpool, hhops, hheld, hrestart]
  exact ⟨(coreReset_core t d wd n).2.2, coreReset_hops t d wd n, ⟨_, hsteep, rfl⟩, coreReset_held t d wd n,
    coreReset_watchdog t d wd n⟩

/-! ### STEEP_RUN -/

/-- A command that leaves no operation in the pool has nothing to deliver its answer to. -/
theorem packetRow_of_emptied (f : PoolOp → Node → Ans × Node) (p : Packet) (n : Node) (h : n.runsNow p = true)
    (hp : (f (n.opFrom p) (n.atCommit p)).2.core.pool = []) : n.packetRow f p = (f (n.opFrom p) (n.atCommit p)).2 := by
  rw [packetRow_runsNow f p n h]
  simp only [Node.opOf, hp, List.find?_nil]

/-- R114 to R116: what STEEP_RUN leaves of the core, and the packet that the cellar holds for its reply. -/
theorem cmdSteepRun_spec (op : PoolOp) (n : Node) (h : n.mayRun = true) :
    let m := (cmdSteepRun op n).2
    m.core.pool = [] ∧ m.core.hops = [] ∧ (∃ r, m.core.run = .steep r ∧ r.trigger = .steepRun) ∧
      m.held.map HeldTag.packet = some op.packet := by
  obtain ⟨hpool, hhops, hrun, hheld, _⟩ := steep_after_coreReset .steepRun .steepRun none
    { n with held := some { client := op.client, packet := op.packet, order := op.order } } h
  unfold cmdSteepRun
  dsimp only
  exact ⟨hpool, hhops, hrun, congrArg (Option.map HeldTag.packet) hheld⟩

/-- Settles O9: the command's effect is a core reset with its tag held, then the start of Steep; no operation is left for its answer. -/
theorem steepRunStartsSteep : Obligations.SteepRunStartsSteep := by
  intro s p h hmay
  refine ⟨_, rfl, ?_⟩
  obtain ⟨_, hr⟩ := runsNow_spec _ s.node h
  have hpower : (s.node.atCommit (asRow .steepRun p)).power = s.node.power := atCommit_reads Node.power (fun _ => rfl) _ s.node h
  obtain ⟨hpool, hspec⟩ := cmdSteepRun_spec (s.node.opFrom (asRow .steepRun p)) _ ((mayRun_of_power hpower).trans hmay)
  rw [hr.packet] at hspec
  rw [packetRow_of_emptied cmdSteepRun _ s.node h hpool]
  exact ⟨hpool, hspec⟩

/-! ### The core's footing: what Steep's end decides and what follows leaves -/

/-- Where the core stands: how it runs, which image, in which mode, and whether the output states of a CASK entry are due. -/
def Node.footing (n : Node) : CoreRun × Running × Mode × Bool := (n.core.run, n.core.running, n.core.mode, n.core.caskDue)

theorem footing_of_core {m n : Node} (h : m.core = n.core) : m.footing = n.footing := by
  unfold Node.footing
  rw [h]

theorem footing_of_body {m n : Node} (h : m.core.body = n.core.body) : m.footing = n.footing := by
  have := congrArg (fun k : Core => (k.run, k.running, k.mode, k.caskDue)) h
  exact this

theorem mode_of_footing {m n : Node} (h : m.footing = n.footing) : m.core.mode = n.core.mode := congrArg (fun x => x.2.2.1) h

theorem eachOf_footing {α : Type} (f : α → Node → Node) (hf : ∀ x m, (f x m).footing = m.footing) (xs : List α) (n : Node) :
    (eachOf xs f n).footing = n.footing := eachOf_part Node.footing f hf xs n

theorem eachCh_footing (f : Ch → Node → Node) (hf : ∀ c m, (f c m).footing = m.footing) (n : Node) :
    (eachCh f n).footing = n.footing := eachCh_part Node.footing f hf n

@[simp] theorem modFaults_footing (f : Faults → Faults) (n : Node) : (n.modFaults f).footing = n.footing := rfl
@[simp] theorem modFront_footing (c : Ch) (f : Front → Front) (n : Node) : (n.modFront c f).footing = n.footing := rfl
@[simp] theorem modOut_footing (c : Ch) (f : AOut → AOut) (n : Node) : (n.modOut c f).footing = n.footing := rfl
@[simp] theorem modWaves_footing (f : Waves → Waves) (n : Node) : (n.modWaves f).footing = n.footing := rfl
@[simp] theorem modStore_footing (f : Store → Store) (n : Node) : (n.modStore f).footing = n.footing := rfl
@[simp] theorem modTime_footing (f : TimeBase → TimeBase) (n : Node) : (n.modTime f).footing = n.footing := rfl
@[simp] theorem modHost_footing (f : HostPort → HostPort) (n : Node) : (n.modHost f).footing = n.footing := rfl
@[simp] theorem modLine_footing (f : Line → Line) (n : Node) : (n.modLine f).footing = n.footing := rfl
@[simp] theorem modLane_footing (f : Lane → Lane) (n : Node) : (n.modLane f).footing = n.footing := rfl

@[simp] theorem event_footing (ev : EventCode) (sc : Nat) (st : Stamp) (ws : List Word) (n : Node) :
    (n.event ev sc st ws).footing = n.footing := footing_of_core (event_core ev sc st ws n)

/-! Faults -/

@[simp] theorem formFault_footing (w : FaultWindow) (k : Nat) (n : Node) : (n.formFault w k).footing = n.footing := by
  simp [Node.formFault]

@[simp] theorem occur_footing (f : FaultCode) (sc : Nat) (k : OccKind) (cls : Nat) (r i : Bool) (x : Word) (n : Node) :
    (n.occur f sc k cls r i x).footing = n.footing := by
  unfold Node.occur
  split <;> simp

@[simp] theorem cease_footing (f : FaultCode) (sc : Nat) (n : Node) : (n.cease f sc).footing = n.footing := by
  unfold Node.cease
  dsimp only
  split
  · rfl
  · split
    · rfl
    · split <;> simp

@[simp] theorem trip_footing (f : FaultCode) (cls sc : Nat) (x : Word) (i : Bool) (n : Node) :
    (n.trip f cls sc x i).footing = n.footing := by
  rcases trip_cases f cls sc x i n with ⟨v, _, _, he⟩ | ⟨he, _⟩ <;> rw [he]
  rfl

@[simp] theorem raise_footing (v : Verdict) (n : Node) : (n.raise v).2.footing = n.footing := by
  unfold Node.raise
  dsimp only
  split
  · split <;> simp
  · simp [Node.modInst]

@[simp] theorem calAbort_footing (n : Node) : n.calAbort.footing = n.footing := by
  unfold Node.calAbort Node.calEnd
  split
  · rfl
  · obtain ⟨x, hx⟩ := fansRefresh_core (n.modSound fun s => { s with cal := none })
    refine (footing_of_body (endOrder_sameBut _ _ _ _).core).trans ?_
    unfold Node.footing
    rw [hx]
    rfl

/-- In CASK no slot runs, so no class action has anything to act on (R293, R504). -/
theorem runAction_of_cask (c : Ch) (a : ClassAction) (n : Node) (h : n.core.mode = .cask) : n.runAction c a = n := by
  have hrun : n.slotRunning c = false := by simp [Node.slotRunning, Node.driving, h]
  unfold Node.runAction
  rw [hrun]
  rfl

/-- In CASK the delivery of verdicts leaves the footing alone: CASK entry is over and no class action has a running slot. -/
theorem deliverVerdicts_footing (n : Node) (h : n.core.mode = .cask) : n.deliverVerdicts.footing = n.footing := by
  have hraise : ∀ (vs : List Verdict) (a : List Verdict × Node),
      (vs.foldl (fun (a : List Verdict × Node) v => let x := a.2.raise v; (if x.1 then a.1 ++ [v] else a.1, x.2)) a).2.footing =
        a.2.footing := by
    intro vs
    induction vs with
    | nil => exact fun _ => rfl
    | cons v vs ih => exact fun a => (ih _).trans (raise_footing v a.2)
  unfold Node.deliverVerdicts
  extract_lets vs n1 r n2 acts n3 n4
  have h2 : n2.footing = n.footing := hraise vs ([], n1)
  have h3 : n3.footing = n.footing := by
    refine Eq.trans ?_ h2
    simp only [n3]
    split
    · exact calAbort_footing n2
    · rfl
  have h4 : n4.footing = n.footing := by
    refine Eq.trans ?_ h3
    have hcask : n3.core.mode = .cask := (mode_of_footing h3).trans h
    simp only [n4]
    split
    · simp only [Node.caskEntry, hcask]
      rfl
    · refine eachCh_keeps (fun m => m.footing = n3.footing) _ (fun c m hm => ?_) n3 rfl
      split
      · rwa [runAction_of_cask _ _ _ ((mode_of_footing hm).trans hcask)]
      · exact hm
  exact (eachOf_footing _ (fun (v : Verdict) m => cease_footing v.code v.scope m) _ n4).trans h4

/-! Time, the line and the role -/

@[simp] theorem setMark_footing (m : TimeMark) (n : Node) : (n.setMark m).footing = n.footing := by
  unfold Node.setMark
  split
  · rfl
  · exact event_footing _ _ _ _ _

@[simp] theorem tselWritten_footing (n : Node) : n.tselWritten.footing = n.footing := by
  unfold Node.tselWritten
  split
  · dsimp only
    split
    · exact setMark_footing _ _
    · rfl
  · rfl

theorem endWhole_footing (op : PoolOp) (s : Status) (n : Node) : (n.endWhole op s).footing = n.footing :=
  footing_of_body (endOp_sameBut _ s _ _ n).core

theorem rateEffect_footing (r : TickRate) (o : Option Nat) (n : Node) : (n.rateEffect r o).footing = n.footing := by
  unfold Node.rateEffect
  dsimp only
  rw [event_footing, eachOf_footing _ fun x m => endWhole_footing x .aborted m]
  rfl

theorem acceptRate_footing (r : TickRate) (o : Option Nat) (op : Nat) (d : Bool) (n : Node) :
    (n.acceptRate r o op d).2.footing = n.footing := by
  unfold Node.acceptRate
  split
  · exact rateEffect_footing r o n
  · rfl

@[simp] theorem loadRate_footing (n : Node) : n.loadRate.footing = n.footing := by
  have hnext : ∀ m : Node, (m.modCore fun k => { k with nextOrder := k.nextOrder + 1 }).footing = m.footing := fun _ => rfl
  unfold Node.loadRate
  extract_lets r o
  split
  · rfl
  · exact (hnext _).trans (acceptRate_footing r (some o) _ false n)

theorem hostErrors_core (k : Nat) (n : Node) : (n.hostErrors k).core = n.core := by
  unfold Node.hostErrors
  split <;> rfl

@[simp] theorem takeRole_footing (n : Node) : n.takeRole.footing = n.footing := by
  unfold Node.takeRole
  extract_lets r was n1 n2 n3
  split
  · rfl
  · have h3 : n3.footing = n.footing := by
      simp only [n3]
      split
      · exact setMark_footing _ _
      · rfl
    split
    · exact (footing_of_core (hostErrors_core _ _)).trans h3
    · exact h3

@[simp] theorem headFits_footing (n : Node) : n.headFits.footing = n.footing := by
  unfold Node.headFits
  dsimp only
  split
  · rfl
  · split
    · exact cease_footing _ _ _
    · split <;> rfl

@[simp] theorem headJudged_footing (n : Node) : n.headJudged.footing = n.footing := by
  unfold Node.headJudged
  dsimp only
  split
  · exact (trip_footing _ _ _ _ _ _).trans (headFits_footing n)
  · exact headFits_footing n

@[simp] theorem roleInForce_footing (n : Node) : n.roleInForce.footing = n.footing := by
  unfold Node.roleInForce
  dsimp only
  split
  · exact (headJudged_footing _).trans (takeRole_footing n)
  · exact takeRole_footing n

@[simp] theorem layoutInForce_footing (n : Node) : n.layoutInForce.footing = n.footing := by
  unfold Node.layoutInForce
  split <;> rfl

/-! Tables, channels, outputs and fans -/

@[simp] theorem restoreTables_footing (n : Node) : n.restoreTables.footing = n.footing :=
  eachOf_footing _ (fun _ m => modWaves_footing _ m) _ n

@[simp] theorem plug_footing (c : Ch) (n : Node) : (n.plug c).footing = n.footing := by
  have hstart : (n.startChannel c).footing = n.footing := by
    unfold Node.startChannel
    split <;> rfl
  unfold Node.plug
  split
  case h_1 => rfl
  case h_2 | h_3 => exact hstart
  case h_4 =>
    split
    · exact hstart
    · rfl

@[simp] theorem judgeRail_footing (c : Ch) (n : Node) : (n.judgeRail c).footing = n.footing := by
  unfold Node.judgeRail
  split
  · exact cease_footing _ _ _
  · rfl

@[simp] theorem supervise_footing (b : Bool) (n : Node) : (n.supervise b).footing = n.footing := by
  obtain ⟨x, hx⟩ := supervise_core b n
  unfold Node.footing
  rw [hx]

@[simp] theorem clearsLow_footing (n : Node) : n.clearsLow.footing = n.footing := by
  refine eachCh_footing _ (fun c m => ?_) n
  split
  · unfold Node.startClear
    split <;> rfl
  · rfl

/-! What Steep reports at its end -/

@[simp] theorem sendDropped_footing (n : Node) : n.sendDropped.footing = n.footing :=
  (eachOf_footing _ (fun _ m => footing_of_core (emit_fields _ _ _ m).1) _ _).trans rfl

@[simp] theorem coreUp_footing (w : Word) (n : Node) : (n.coreUp w).footing = n.footing := by
  unfold Node.coreUp
  split
  · rfl
  · exact eachOf_footing _ (fun _ m => footing_of_core (eventTo_core _ _ _ _ _ m)) _ n

@[simp] theorem raiseSteep_footing (bits own unavail : Nat) (w : Word) (silent : Option (BitVec 16 × BitVec 8)) (n : Node) :
    (n.raiseSteep bits own unavail w silent).footing = n.footing :=
  eachOf_footing _ (fun _ m => trip_footing _ _ _ _ _ m) _ n

@[simp] theorem refRespond_footing (v : RefVerdict) (d : Devs) (n : Node) : (n.refRespond v d).footing = n.footing := by
  unfold Node.refRespond
  extract_lets other
  split
  · refine eachCh_footing _ (fun c m => ?_) n
    split <;> rfl
  · rfl

@[simp] theorem steepRefs_footing (r : SteepResults) (inj : Bool) (n : Node) : (n.steepRefs r inj).footing = n.footing :=
  (refRespond_footing _ _ _).trans (trip_footing _ _ _ _ _ n)

@[simp] theorem writeLog_footing (k : Nat) (n : Node) : (n.writeLog k).footing = n.footing :=
  (modFaults_footing _ _).trans (eachOf_footing _ (fun _ m => modStore_footing _ m) _ n)

@[simp] theorem failureFirst_footing (n : Node) : n.failureFirst.footing = n.footing := rfl

@[simp] theorem sendHeld_footing (w : Word) (n : Node) : (n.sendHeld w).footing = n.footing := by
  unfold Node.sendHeld
  split
  · rfl
  · exact footing_of_core (finish_core _ _ _ _ _ _)

@[simp] theorem raiseAdopted_footing (n : Node) : n.raiseAdopted.footing = n.footing := by
  unfold Node.raiseAdopted
  split
  · dsimp only
    split
    · exact event_footing _ _ _ _ _
    · rfl
  · rfl

/-! ### The rows of Steep's steps -/

theorem modSteep_of_steep (f : SteepRun → SteepRun) (r : SteepRun) (n : Node) (h : n.core.run = .steep r) :
    (n.modSteep f).core.run = .steep (f r) := by
  simp only [Node.modSteep, h, modCore_core]

theorem effect_watchdogExpiry (s : State) (t : Nat) (hup : s.node.up = true) (hmay : s.node.mayRun = true) :
    Effect (.watchdogExpiry t) s fun m => (∃ r, m.core.run = .steep r ∧ r.trigger = .coreReset) ∧ m.core.pool = [] ∧
      m.restart.watchdog.isSome = true := by
  have hmayT : (s.node.atT t).mayRun = true := (mayRun_of_power (atT_power t s.node)).trans hmay
  obtain ⟨hpool, _, hrun, _, hdog⟩ := steep_after_coreReset .coreReset .coreReset
    (some ((s.node.atT t).injecting .watchdog 0xFF)) _ hmayT
  have hon : s.node.power.vcel = true ∧ s.node.power.cresetn = true := by
    simp only [Node.mayRun, Bool.and_eq_true] at hmay
    obtain ⟨⟨⟨⟨hv, _⟩, hc⟩, _⟩, _⟩ := hmay
    exact ⟨hv, hc⟩
  refine ⟨_, rfl, ?_⟩
  dsimp only
  rw [whenCellar_of_on _ _ hon.1 hon.2]
  simp only [atT_core, run_of_up s.node hup]
  exact ⟨hrun, hpool, by rw [hdog]; rfl⟩

theorem effect_steepStepLimit (s : State) (x : StepCut) (t : Nat) (r : SteepRun) (hv : s.node.power.vcel = true)
    (hc : s.node.power.cresetn = true) (hr : s.node.core.run = .steep r) :
    Effect (.steepStepLimit x t) s fun m => m.core.run = .steep (match x with
      | .pll => { r with locked := false }
      | .checks i => { r with abandoned := r.abandoned ||| 2 ^ i.val }) := by
  refine ⟨_, rfl, ?_⟩
  dsimp only
  rw [whenCellar_of_on _ _ hv hc]
  exact (modSteep_of_steep _ r (s.node.atT t) hr).trans (by cases x <;> rfl)

theorem effect_pllRetry (s : State) (l : Bool) (t : Nat) (r : SteepRun) (hv : s.node.power.vcel = true)
    (hc : s.node.power.cresetn = true) (hr : s.node.core.run = .steep r) :
    Effect (.pllRetry l t) s fun m => m.core.run = .steep { r with locked := r.locked || l } := by
  refine ⟨_, rfl, ?_⟩
  dsimp only
  rw [whenCellar_of_on _ _ hv hc, modSteep_of_steep _ r (s.node.atT t) hr]
  obtain ⟨_, _, locked, _⟩ := r
  cases locked <;> rfl

/-! ### The end of Steep -/

theorem loadWorking_store (g : SteepGround) (n : Node) : (n.loadWorking g).store = n.store := by
  unfold Node.loadWorking
  extract_lets c
  clear_value c
  cases c
  · rfl
  · exact eachCh_part Node.store _ (fun _ m => modFront_store _ _ m) _

/-- The choice of an image rests on the store alone. -/
theorem chooseImage_of_store (g : SteepGround) {m n : Node} (h : m.store = n.store) : m.chooseImage g = n.chooseImage g := by
  have hsigned : ∀ b, m.signed g b = n.signed g b := fun b => by simp only [Node.signed, h]
  have hvalid : ∀ b, m.imageValid g b = n.imageValid g b := fun b => by simp only [Node.imageValid, hsigned, h]
  simp only [Node.chooseImage, hvalid, h]

theorem pitchedSteep_of_none (n : Node) (h : n.core.faults.points = []) : n.pitchedSteep = 0 := by
  rw [Node.pitchedSteep, h]
  rfl

theorem footing_ite {b : Prop} [Decidable b] {m n : Node} {x : CoreRun × Running × Mode × Bool} (hm : m.footing = x)
    (hn : n.footing = x) : (if b then m else n).footing = x := by
  split
  · exact hm
  · exact hn

/-- R117: a Steep in which no locking bit is set, and no pitch point is armed, ends with the core up in CASK: it does not revert (R106), and
what follows the CASK entry leaves the footing alone. -/
theorem steepDone_footing (x : SteepResults) (run : SteepRun) (n : Node) (hp : n.core.faults.points = [])
    (g : SteepGround) (hg : g = { r := x, abandoned := run.abandoned, pitched := 0 })
    (hb : ((n.storeDamage g).loadWorking g).steepBits g &&& steepLocking = 0) :
    (n.steepDone x run).footing = (.up, ((n.storeDamage g).loadWorking g).chooseImage g, .cask, true) := by
  rw [chooseImage_of_store g (loadWorking_store g (n.storeDamage g))]
  unfold Node.steepDone
  rw [pitchedSteep_of_none n hp, ← hg]
  extract_lets +onlyGivenNames g0 clean damaged img loaded bits own skipped passed failed trial cuts counted second unavail silent cleared
    locked w used kept tdcFailed src judged corrected
  have hsecond : ¬ second = true := by
    have hfailed : failed = false := by
      have hown : own &&& steepLocking = 0 := by rw [Nat.and_assoc, hb, Nat.and_zero]
      simp only [failed, hown, ne_eq, not_true_eq_false, decide_false]
    simp only [second, hfailed, Bool.false_and]
    cases img <;> exact Bool.false_ne_true
  rw [if_neg hsecond]
  extract_lets +onlyGivenNames noted entered channels role layout fans clears held dropped told steep refs dog logs delivered written
    sent restarted auto
  have hentered : entered.footing = (.up, img, .cask, true) := rfl
  have hchannels : channels.footing = (.up, img, .cask, true) :=
    (eachCh_footing _ (fun c m => modFront_footing c _ m) entered).trans hentered
  have hrole : role.footing = (.up, img, .cask, true) := by simp [role, Node.cause, hchannels]
  have hlayout : layout.footing = (.up, img, .cask, true) := footing_ite ((layoutInForce_footing role).trans hrole) hrole
  have hfans : fans.footing = (.up, img, .cask, true) := by
    simp [fans, eachFan, eachCh_footing _ judgeRail_footing, eachCh_footing _ plug_footing, hlayout]
  have hclears : clears.footing = (.up, img, .cask, true) := footing_ite hfans ((clearsLow_footing fans).trans hfans)
  have hsteep : steep.footing = (.up, img, .cask, true) := by simp [steep, told, dropped, hclears]
  have hrefs : refs.footing = (.up, img, .cask, true) := footing_ite ((steepRefs_footing _ _ steep).trans hsteep) hsteep
  have hdog : dog.footing = (.up, img, .cask, true) := by
    simp only [dog]
    split
    · exact (trip_footing _ _ _ _ _ refs).trans hrefs
    · exact hrefs
  have hlogs : logs.footing = (.up, img, .cask, true) := footing_ite ((trip_footing _ _ _ _ _ dog).trans hdog) hdog
  have hdelivered : delivered.footing = (.up, img, .cask, true) :=
    (deliverVerdicts_footing logs (congrArg (fun y => y.2.2.1) hlogs)).trans hlogs
  have hwritten : written.footing = (.up, img, .cask, true) :=
    footing_ite ((writeLog_footing _ _).trans ((failureFirst_footing delivered).trans hdelivered))
      ((writeLog_footing _ delivered).trans hdelivered)
  exact ((raiseAdopted_footing _).trans (sendHeld_footing w written)).trans hwritten

theorem effect_steepEnd (s : State) (x : SteepResults) (t : Nat) (r : SteepRun) (hv : s.node.power.vcel = true)
    (hc : s.node.power.cresetn = true) (hr : s.node.core.run = .steep r) (hl : r.locked = true)
    (hp : s.node.core.faults.points = []) :
    let g : SteepGround := { r := x, abandoned := r.abandoned, pitched := 0 }
    let n := ((s.node.atT t).storeDamage g).loadWorking g
    n.steepBits g &&& steepLocking = 0 →
    Effect (.steepEnd x t) s fun m => m.up = true ∧ m.core.mode = .cask ∧ m.core.caskDue = true ∧ m.core.running = n.chooseImage g := by
  intro g n hb
  refine ⟨_, rfl, ?_⟩
  have hfoot := steepDone_footing x r (s.node.atT t) hp g rfl hb
  simp only [Node.footing, Prod.mk.injEq] at hfoot
  obtain ⟨hrun, himg, hmode, hdue⟩ := hfoot
  dsimp only
  rw [whenCellar_of_on _ _ hv hc]
  simp only [atT_core, hr, hl, if_true]
  exact ⟨by rw [Node.up, hrun], hmode, hdue, himg⟩

/-- Settles O13: the expiry is a core reset and a new Steep; a limit and the lock change the record of the running Steep; and what Steep
does after its CASK entry leaves the core up there. -/
theorem steepSteps : Obligations.SteepSteps :=
  ⟨effect_watchdogExpiry, effect_steepStepLimit, effect_pllRetry, effect_steepEnd⟩

end Sys2Proof.Machine
end

section
/-!
PROOFS. The front end (05_resolver_front_end.md R163 to R191; 06_tracking_converter.md R195 to R207, R219 to R221): Hall edges, SSI
words, the excitation, and the steps that have rows of their own.
-/
namespace Sys2Proof.Machine

/-- An event of the core, while the core is up, is what its row does. -/
theorem effect_of_up {c : Instr} {s : State} {f : Node → Node} {P : Node → Prop} (hrow : exec c s = s.upd fun n => n.whenUp f)
    (hup : s.node.up = true) (h : P (f s.node)) : Effect c s P :=
  ⟨s.node.whenUp f, hrow, (whenUp_of_up f s.node hup).symm ▸ h⟩

/-! ### What a channel's step leaves alone: the front end but for its index registers -/

/-- The converter without its index registers and the index edges that wait (R223, R224). -/
def Trk.sansIndex (t : Trk) : Trk :=
  { t with idxCnt := 0, idxU := none, idxNum := 0, idxErr := 0, idxPrev := none, idxDirChanged := false, idxDue := [] }

/-- The front end without them. -/
def Front.sansIndex (f : Front) : Front := { f with trk := f.trk.sansIndex }

/-- A channel's front end without its index registers. -/
def Node.frontOf (c : Ch) (n : Node) : Front := (n.core.fronts.get c).sansIndex

theorem frontOf_of_fronts {m n : Node} (c : Ch) (h : m.core.fronts = n.core.fronts) : m.frontOf c = n.frontOf c := by
  unfold Node.frontOf
  rw [h]

theorem frontOf_modFront (c : Ch) (f : Front → Front) (n : Node) :
    (n.modFront c f).frontOf c = (f (n.core.fronts.get c)).sansIndex := by
  simp [Node.frontOf]

/-- Where the front end but for its index registers agrees, its inputs do. -/
theorem inputs_of_frontOf {m : Node} {c : Ch} {f : Front} (h : m.frontOf c = f.sansIndex) :
    (m.core.fronts.get c).hall = f.hall ∧ (m.core.fronts.get c).ssi = f.ssi ∧ (m.core.fronts.get c).exc = f.exc :=
  have hhall := congrArg Front.hall h
  have hssi := congrArg Front.ssi h
  have hexc := congrArg Front.exc h
  ⟨hhall, hssi, hexc⟩

/-- Where the front end but for its index registers agrees, its kilned value and the state of its loop do. -/
theorem loop_of_frontOf {m : Node} {c : Ch} {f : Front} (h : m.frontOf c = f.sansIndex) :
    (m.core.fronts.get c).trk.kil = f.trk.kil ∧ (m.core.fronts.get c).trk.acq = f.trk.acq ∧
      (m.core.fronts.get c).trk.valid = f.trk.valid ∧ (m.core.fronts.get c).trk.due = f.trk.due ∧
      (m.core.fronts.get c).trk.coast = f.trk.coast :=
  have hkil := congrArg (fun x : Front => x.trk.kil) h
  have hacq := congrArg (fun x : Front => x.trk.acq) h
  have hvalid := congrArg (fun x : Front => x.trk.valid) h
  have hdue := congrArg (fun x : Front => x.trk.due) h
  have hcoast := congrArg (fun x : Front => x.trk.coast) h
  ⟨hkil, hacq, hvalid, hdue, hcoast⟩

/-! Encoder emulation -/

/-- Only the position services differ. -/
def Node.PosOf (m n : Node) : Prop := ∃ p : Quad Pos, m = n.modCore fun k => { k with pos := p }

theorem Node.PosOf.refl (n : Node) : n.PosOf n := ⟨n.core.pos, rfl⟩

theorem Node.PosOf.trans {a b c : Node} (h : a.PosOf b) (g : b.PosOf c) : a.PosOf c := by
  obtain ⟨p, rfl⟩ := h
  obtain ⟨q, rfl⟩ := g
  exact ⟨p, rfl⟩

theorem modPos_posOf (c : Ch) (f : Pos → Pos) (n : Node) : (n.modPos c f).PosOf n := ⟨_, rfl⟩

theorem eachCh_posOf (f : Ch → Node → Node) (hf : ∀ c m, (f c m).PosOf m) (n : Node) : (eachCh f n).PosOf n :=
  eachCh_keeps (fun m => m.PosOf n) f (fun c m h => (hf c m).trans h) n (.refl n)

theorem emuFollow_posOf (c : Ch) (n : Node) : (n.emuFollow c).PosOf n := by
  unfold Node.emuFollow
  dsimp only
  split
  · exact .refl n
  · exact modPos_posOf c _ n

theorem emuBasis_posOf (c : Ch) (n : Node) : (n.emuBasis c).PosOf n := by
  refine eachCh_posOf _ (fun i m => ?_) n
  split
  · exact emuFollow_posOf i m
  · exact .refl m

theorem emuAnchor_posOf (c : Ch) (n : Node) : (n.emuAnchor c).PosOf n := by
  unfold Node.emuAnchor
  exact modPos_posOf c _ n

theorem emuReseed_posOf (f : Emu → Bool) (c : Ch) (n : Node) : (n.emuReseed f c).PosOf n := by
  refine eachCh_posOf _ (fun i m => ?_) n
  dsimp only
  split
  · exact (modPos_posOf i _ (m.emuAnchor i)).trans (emuAnchor_posOf i m)
  · exact .refl m

theorem emuSeeded_posOf (c : Ch) (n : Node) : (n.emuSeeded c).PosOf n := by
  refine eachCh_posOf _ (fun i m => ?_) n
  split
  · exact modPos_posOf i _ m
  · exact .refl m

theorem Node.PosOf.fronts {m n : Node} (h : m.PosOf n) : m.core.fronts = n.core.fronts := by
  obtain ⟨p, rfl⟩ := h
  rfl

theorem Node.PosOf.stamp {m n : Node} (h : m.PosOf n) : m.stamp = n.stamp := by
  obtain ⟨p, rfl⟩ := h
  rfl

theorem Node.PosOf.frontOf {m n : Node} (h : m.PosOf n) (c : Ch) : m.frontOf c = n.frontOf c := frontOf_of_fronts c h.fronts

/-! The fault manager -/

@[simp] theorem formFault_fronts (w : FaultWindow) (k : Nat) (n : Node) : (n.formFault w k).core.fronts = n.core.fronts := by
  simp [Node.formFault]

@[simp] theorem occur_fronts (f : FaultCode) (sc : Nat) (k : OccKind) (cls : Nat) (r i : Bool) (x : Word) (n : Node) :
    (n.occur f sc k cls r i x).core.fronts = n.core.fronts := by
  unfold Node.occur
  split <;> simp

@[simp] theorem cease_fronts (f : FaultCode) (sc : Nat) (n : Node) : (n.cease f sc).core.fronts = n.core.fronts := by
  unfold Node.cease
  dsimp only
  split
  · rfl
  · split
    · rfl
    · split <;> simp

@[simp] theorem trip_fronts (f : FaultCode) (cls sc : Nat) (x : Word) (i : Bool) (n : Node) :
    (n.trip f cls sc x i).core.fronts = n.core.fronts := by
  rcases trip_cases f cls sc x i n with ⟨v, _, _, he⟩ | ⟨he, _⟩ <;> rw [he]
  rfl

@[simp] theorem useInjection_fronts (f : FaultCode) (sc k : Nat) (n : Node) : (n.useInjection f sc k).core.fronts = n.core.fronts := by
  unfold Node.useInjection
  split <;> rfl

@[simp] theorem useInjections_fronts (fs : List FaultCode) (c : Ch) (n : Node) :
    (n.useInjections fs c).core.fronts = n.core.fronts :=
  eachOf_part (fun m => m.core.fronts) _ (fun f m => useInjection_fronts f c.val 1 m) fs n

@[simp] theorem faultEvent_fronts (c : Ch) (e : ChanEvent) (n : Node) : (n.faultEvent c e).core.fronts = n.core.fronts := by
  cases e <;> simp [Node.faultEvent]

theorem injecting_of_none (n : Node) (f : FaultCode) (sc : Nat) (h : n.core.faults.points = []) : n.injecting f sc = false := by
  simp [Node.injecting, Node.point, h]

theorem useInjection_of_none (n : Node) (f : FaultCode) (sc k : Nat) (h : n.core.faults.points = []) : n.useInjection f sc k = n := by
  simp [Node.useInjection, Node.point, h]

/-! What a step asks of the node -/

@[simp] theorem latchLost_fronts (c : Ch) (st : Stamp) (n : Node) : (n.latchLost c st).core.fronts = n.core.fronts := by
  unfold Node.latchLost
  split <;> simp [Node.modPos]

@[simp] theorem indexFifo_fronts (c : Ch) (b : Bool) (st : Stamp) (n : Node) : (n.indexFifo c b st).core.fronts = n.core.fronts := by
  unfold Node.indexFifo Node.capture
  dsimp only
  split
  · split
    · exact latchLost_fronts c st _
    · rfl
  · rfl

@[simp] theorem refute_fronts (c : Ch) (r : Int) (o : Nat) (st : Stamp) (u : Int) (n : Node) :
    (n.refute c r o st u).core.fronts = n.core.fronts := by
  unfold Node.refute
  split
  · simp [Node.refutedEvent, Node.modPos]
  · rfl

@[simp] theorem lapStep_fronts (c : Ch) (n : Node) : (n.lapStep c).core.fronts = n.core.fronts := by
  unfold Node.lapStep Node.lapSet
  dsimp only
  split
  · split <;> rfl
  · split <;> rfl
  · rfl

@[simp] theorem entryKilned_fronts (c : Ch) (n : Node) : (n.entryKilned c).core.fronts = n.core.fronts := by
  unfold Node.entryKilned
  split
  · rfl
  · next e _ =>
    dsimp only
    split
    · rfl
    · split
      · rw [modCore_core]
        exact fronts_of_body (endOpt_sameBut e.op .done [] n).core
      · rfl

theorem frontOf_takeIndexAt (c : Ch) (cnt u : Int) (n : Node) : (n.takeIndexAt c cnt u).frontOf c = n.frontOf c := by
  unfold Node.takeIndexAt
  extract_lets +onlyGivenNames ps mode judged inj cnt' t dev taken used
  have htaken : taken.frontOf c = n.frontOf c := frontOf_modFront c _ n
  have hused : used.frontOf c = n.frontOf c := (frontOf_of_fronts c (useInjection_fronts _ _ _ _)).trans htaken
  split
  · exact htaken
  · split
    · exact (frontOf_of_fronts c (trip_fronts _ _ _ _ _ _)).trans hused
    · exact (frontOf_of_fronts c (cease_fronts _ _ _)).trans hused

theorem frontOf_kilnedStep (c : Ch) (n : Node) : (n.kilnedStep c).frontOf c = n.frontOf c := by
  unfold Node.kilnedStep
  extract_lets +onlyGivenNames t
  split
  · rfl
  · extract_lets +onlyGivenNames lapped confirmed late left indexed
    have hlapped : lapped.frontOf c = n.frontOf c := frontOf_of_fronts c (lapStep_fronts c n)
    have hconfirmed : confirmed.frontOf c = n.frontOf c := by
      refine Eq.trans ?_ hlapped
      simp only [confirmed]
      split <;> rfl
    have hleft : left.frontOf c = n.frontOf c := (frontOf_modFront c _ confirmed).trans hconfirmed
    have hindexed : indexed.frontOf c = n.frontOf c :=
      (eachOf_part (Node.frontOf c) _ (fun _ m => frontOf_takeIndexAt c _ _ m) _ left).trans hleft
    exact (frontOf_of_fronts c (entryKilned_fronts c _)).trans (((emuSeeded_posOf c indexed).frontOf c).trans hindexed)

theorem frontOf_virtualIndexAt (c : Ch) (cnt u : Int) (n : Node) : (n.virtualIndexAt c cnt u).frontOf c = n.frontOf c := by
  unfold Node.virtualIndexAt
  dsimp only
  split
  · exact (frontOf_of_fronts c (indexFifo_fronts _ _ _ _)).trans (frontOf_takeIndexAt c cnt u n)
  · exact frontOf_takeIndexAt c cnt u n

/-- What a step asks of the rest of the node changes nothing of its own front end but the index registers. -/
theorem frontOf_chanEvent (c : Ch) (e : ChanEvent) (n : Node) : (n.chanEvent c e).frontOf c = n.frontOf c := by
  cases e with
  | refuted r o st => exact frontOf_of_fronts c (refute_fronts c r o st _ n)
  | basis => exact (emuBasis_posOf c n).frontOf c
  | anchor => exact (emuReseed_posOf Emu.reseed c n).frontOf c
  | kilned => exact frontOf_kilnedStep c n
  | index cnt u st => exact frontOf_virtualIndexAt c cnt u n
  | trip f x i => exact frontOf_of_fronts c (faultEvent_fronts c (.trip f x i) n)
  | cease f => exact frontOf_of_fronts c (faultEvent_fronts c (.cease f) n)

theorem frontOf_chanEvents (c : Ch) (es : List ChanEvent) (n : Node) : (eachOf es (Node.chanEvent c) n).frontOf c = n.frontOf c :=
  eachOf_part (Node.frontOf c) _ (fun e m => frontOf_chanEvent c e m) es n

/-- A channel takes the front end of its step's outcome. -/
theorem frontOf_takeTick (c : Ch) (o : TickOut) (n : Node) : (n.takeTick c o).frontOf c = o.front.sansIndex := by
  unfold Node.takeTick
  dsimp only
  rw [frontOf_of_fronts c (useInjections_fronts _ _ _), frontOf_chanEvents, frontOf_modFront]

/-! ### A kilned value -/

theorem updateDir_eq (pos : Int × Int) (t : Trk) :
    ∃ d x i, updateDir pos t = { t with dir := d, extreme := x, idxDirChanged := i } := by
  unfold updateDir
  split
  · exact ⟨_, _, _, rfl⟩
  · extract_lets moved
    split
    · exact ⟨_, _, _, rfl⟩
    · split
      · exact ⟨_, _, _, rfl⟩
      · exact ⟨_, _, _, rfl⟩

/-- R206: the value that taking a value as kilned gives. -/
theorem trkKiln_kil (ps : ParamMem) (c : Nat) (mode : InMode) (k : Kil) (t : Trk) :
    (trkKiln ps c mode k t).kil = some { k with coasts := t.coasts } := by
  obtain ⟨d, x, i, h⟩ := updateDir_eq (dirPosition ps c mode k) t
  simp [trkKiln, h]

/-- R206: what it leaves of the loop. -/
theorem trkKiln_loop (ps : ParamMem) (c : Nat) (mode : InMode) (k : Kil) (t : Trk) :
    (trkKiln ps c mode k t).th = t.th ∧ (trkKiln ps c mode k t).v = t.v ∧ (trkKiln ps c mode k t).acq = t.acq ∧
      (trkKiln ps c mode k t).due = t.due := by
  obtain ⟨d, x, i, h⟩ := updateDir_eq (dirPosition ps c mode k) t
  simp [trkKiln, h]

/-! ### HALL -/

theorem hallSector_lt (ps : ParamMem) (c : Nat) (code : BitVec 3) (x : Nat) (h : hallSector ps c code = some x) : x < 6 := by
  unfold hallSector at h
  obtain ⟨k, _, hk⟩ := Option.map_eq_some_iff.mp h
  dsimp only at hk
  split at hk <;> omega

/-- R181: an accepted edge into another sector is in that sector, with the code it was given. -/
theorem hallMove_into (ps : ParamMem) (c : Nat) (d : Bool) (x : Nat) (st : Stamp) (h : HallIn) (hx : x < 6) (hn : h.sector ≠ some x)
    (hs : ∀ y, h.sector = some y → y < 6) :
    (hallMove ps c d x st h).1.sector = some x ∧ (hallMove ps c d x st h).1.code = h.code ∧
      (hallMove ps c d x st h).1.invalidSince = h.invalidSince := by
  unfold hallMove
  cases hp : h.sector with
  | none => exact ⟨rfl, rfl, rfl⟩
  | some p =>
    have hp6 := hs p hp
    have hne : p ≠ x := fun e => hn (hp.trans (congrArg some e))
    have hmoves : ¬ (x + 6 - p) % 6 = 0 := by omega
    simp only [hmoves, if_false, and_self]

/-- R179: an edge that held for the filter time is judged by its code. -/
theorem hallEdge_of_held (c : Ch) (code : BitVec 3) (held : Nat) (n : Node) (hm : n.mode c = .hall)
    (hr : (n.core.fronts.get c).trk.running = true) (hh : n.parN Pid.inHallflt c.val * 1000 ≤ held) (hp : n.core.faults.points = []) :
    n.hallEdge c code held = (hallSector n.core.params c.val code).elim (n.hallInvalid c code false) (n.hallValid c code) := by
  have hacts : ¬ (n.mode c ≠ .hall ∨ (n.core.fronts.get c).trk.running = false ∨ held < n.parN Pid.inHallflt c.val * 1000) := by
    simpa [hm, hr] using hh
  unfold Node.hallEdge
  dsimp only
  rw [if_neg hacts, injecting_of_none n _ _ hp, useInjection_of_none n _ _ _ hp, if_neg Bool.false_ne_true]
  cases hallSector n.core.params c.val code <;> rfl

/-- R179, R181, R182: an edge into another valid sector gives a kilned value of its own instant. -/
theorem hallValid_spec (c : Ch) (code : BitVec 3) (x : Nat) (n : Node) (hx : x < 6)
    (hn : (n.core.fronts.get c).hall.sector ≠ some x) (hs : ∀ y, (n.core.fronts.get c).hall.sector = some y → y < 6) :
    let m := n.hallValid c code x
    (m.core.fronts.get c).hall.sector = some x ∧ (m.core.fronts.get c).hall.code = code ∧
      (m.core.fronts.get c).hall.invalidSince = none ∧
      ∃ k, (m.core.fronts.get c).trk.kil = some k ∧ k.st = n.stamp ∧ k.cnt = (m.core.fronts.get c).hall.count := by
  intro m
  have hbasis := emuBasis_posOf c n
  have hm : m = n.hallValid c code x := rfl
  unfold Node.hallValid at hm
  extract_lets +onlyGivenNames ps based f st held moved k dev judged t hall edged at hm
  have hf : f = n.core.fronts.get c := congrArg (fun q : Quad Front => q.get c) hbasis.fronts
  rw [← hf] at hn hs
  have hother : ¬ (f.hall.code = code ∧ f.hall.sector = some x) := fun h => hn h.2
  rw [if_neg hother] at hm
  extract_lets ev0 ev done at hm
  have hfront : m.frontOf c = edged.frontOf c := by
    rw [hm]
    refine Eq.trans ?_ (frontOf_chanEvents c ev edged)
    split
    · exact frontOf_of_fronts c (trip_fronts _ _ _ _ _ done)
    · exact frontOf_of_fronts c (cease_fronts _ _ done)
  obtain ⟨hsector, hcode, hvalid⟩ :=
    hallMove_into ps c.val f.trk.dir x st { held with code := code, invalidSince := none, forced := false } hx hn hs
  have hkil := trkKiln_kil ps c.val .hall k (if judged then pushR dev f.trk else f.trk)
  have hst : st = n.stamp := hbasis.stamp
  simp only [edged, frontOf_modFront] at hfront
  split at hfront
  all_goals
    obtain ⟨hhall, _⟩ := inputs_of_frontOf hfront
    obtain ⟨htrk, _⟩ := loop_of_frontOf hfront
    rw [hhall, htrk]
    exact ⟨hsector, hcode, hvalid, _, hkil, hst, rfl⟩

/-- R179: an edge that the filter takes for noise does nothing. -/
theorem effect_hallEdge_short (s : State) (c : Ch) (code : BitVec 3) (held t : Nat) (hup : s.node.up = true)
    (hh : held < s.node.parN Pid.inHallflt c.val * 1000) : Effect (.hallEdge c code held t) s fun m => m = s.node.atT t :=
  effect_of_up rfl hup (if_pos (.inr (.inr hh)))

/-- R181: an invalid code is timed from its first instant. -/
theorem effect_hallEdge_invalid (s : State) (c : Ch) (code : BitVec 3) (held t : Nat) (hup : s.node.up = true)
    (hm : s.node.mode c = .hall) (hp : s.node.core.faults.points = []) (hh : s.node.parN Pid.inHallflt c.val * 1000 ≤ held)
    (hr : (s.node.core.fronts.get c).trk.running = true) (hs : hallSector s.node.core.params c.val code = none) :
    Effect (.hallEdge c code held t) s fun m => (m.core.fronts.get c).hall =
      { (s.node.core.fronts.get c).hall with
        code := code, invalidSince := (s.node.core.fronts.get c).hall.invalidSince.or (some (s.node.atT t).now) } := by
  refine effect_of_up rfl hup ?_
  rw [hallEdge_of_held c code held (s.node.atT t) hm hr hh hp, atT_core, hs]
  simp [Node.hallInvalid]

theorem effect_hallEdge_valid (s : State) (c : Ch) (code : BitVec 3) (held t x : Nat) (hup : s.node.up = true)
    (hm : s.node.mode c = .hall) (hp : s.node.core.faults.points = []) (hh : s.node.parN Pid.inHallflt c.val * 1000 ≤ held)
    (hr : (s.node.core.fronts.get c).trk.running = true) (hs : hallSector s.node.core.params c.val code = some x)
    (hn : (s.node.core.fronts.get c).hall.sector ≠ some x) (hb : ∀ y, (s.node.core.fronts.get c).hall.sector = some y → y < 6) :
    Effect (.hallEdge c code held t) s fun m =>
      (m.core.fronts.get c).hall.sector = some x ∧ (m.core.fronts.get c).hall.code = code ∧
        (m.core.fronts.get c).hall.invalidSince = none ∧
        ∃ k, (m.core.fronts.get c).trk.kil = some k ∧ k.st = (s.node.atT t).stamp ∧
          k.cnt = (m.core.fronts.get c).hall.count := by
  refine effect_of_up rfl hup ?_
  rw [hallEdge_of_held c code held (s.node.atT t) hm hr hh hp, atT_core, hs]
  exact hallValid_spec c code x (s.node.atT t) (hallSector_lt _ _ _ _ hs) hn hb

/-- R181: a code that has stayed invalid for longer than IN.HALLINV is reported. -/
theorem effect_hallInvalidTimeout (s : State) (c : Ch) (t e : Nat) (hup : s.node.up = true)
    (he : (s.node.core.fronts.get c).hall.invalidSince = some e)
    (ht : e + s.node.parN Pid.inHallinv c.val * 1000 < (s.node.atT t).now) :
    Effect (.hallInvalidTimeout c t) s fun m => m.reported .hallInvalid c.val := by
  have hlate : e + (s.node.atT t).parN Pid.inHallinv c.val * 1000 < (s.node.atT t).now := ht
  refine effect_of_up rfl hup ?_
  simp only [atT_core, he]
  rw [if_pos hlate]
  exact trip_reported _ _ _ _ _ _

/-- R207: with no edge for TRK.HALLSTOP the velocity becomes zero. -/
theorem effect_hallStopTimeout (s : State) (c : Ch) (t e : Nat) (k : Kil) (hup : s.node.up = true) (hm : s.node.mode c = .hall)
    (he : (s.node.core.fronts.get c).hall.stopAt = some e) (ht : e ≤ (s.node.atT t).now)
    (hk : (s.node.core.fronts.get c).trk.kil = some k) :
    Effect (.hallStopTimeout c t) s fun m => (m.core.fronts.get c).hall.v = 0 ∧ (m.core.fronts.get c).hall.stopAt = none ∧
      (m.core.fronts.get c).trk.kil = some { k with v := 0 } := by
  have hdue : ¬ ((s.node.atT t).mode c ≠ .hall ∨ (s.node.atT t).now < e) := not_or.mpr ⟨not_not_intro hm, Nat.not_lt.mpr ht⟩
  refine effect_of_up rfl hup ?_
  simp only [atT_core, he]
  rw [if_neg hdue, (emuBasis_posOf c _).fronts]
  simp [(emuBasis_posOf c _).fronts, hk]

/-! ### SSI -/

/-- R189: the outcome of a read is taken into the counts; the read itself stays as it was. -/
theorem ssiCount_keeps (ps : ParamMem) (c : Nat) (o : SsiOutcome) (i : Bool) (x : SsiIn) :
    (ssiCount ps c o i x).1.reading = x.reading ∧ (ssiCount ps c o i x).1.readyAt = x.readyAt ∧
      (ssiCount ps c o i x).1.result = x.result := by
  cases o <;> exact ⟨rfl, rfl, rfl⟩

/-- The input takes its outcome; what its events ask leaves it alone. -/
theorem ssiTake_ssi (c : Ch) (x : SsiIn) (ev : List ChanEvent) (n : Node) : ((n.ssiTake c x ev).core.fronts.get c).ssi = x := by
  obtain ⟨_, hssi, _⟩ := inputs_of_frontOf ((frontOf_chanEvents c ev _).trans (frontOf_modFront c _ n))
  exact hssi

/-- R184, R188: the word read is judged, and waits for its tracking update. That the monoflop time counts from IN.SSIDLY before the
last bit's row is log entry 53. -/
theorem effect_ssiWord (s : State) (c : Ch) (bits : List Bool) (t : Nat) (st : Stamp) (hup : s.node.up = true)
    (hp : s.node.core.faults.points = []) (hr : (s.node.core.fronts.get c).ssi.reading = some st) :
    Effect (.ssiWord c bits t) s fun m => let x := (m.core.fronts.get c).ssi
      x.reading = none ∧
      x.readyAt = (s.node.atT t).now - s.node.parN Pid.inSsidly c.val + s.node.parN Pid.inSsimono c.val * 1000 ∧
      x.result = some { start := st, lastBit := (s.node.atT t).now, word := ssiJudge s.node.core.params c.val bits false false } := by
  refine effect_of_up rfl hup ?_
  unfold Node.ssiWord
  simp only [atT_core, hr, injecting_of_none (s.node.atT t) _ _ hp]
  rw [useInjections_fronts, ssiTake_ssi]
  split
  · exact ssiCount_keeps _ _ _ _ _
  · exact ⟨rfl, rfl, rfl⟩

/-- R184: a read whose monoflop time shows a timeout fails as one, once. -/
theorem effect_ssiMonoflopTimeout (s : State) (c : Ch) (t e : Nat) (hup : s.node.up = true)
    (he : (s.node.core.fronts.get c).ssi.monoAt = some e) (ht : e ≤ (s.node.atT t).now)
    (hf : (s.node.core.fronts.get c).ssi.timedOut = false) :
    Effect (.ssiMonoflopTimeout c t) s fun m => (m.core.fronts.get c).ssi.timedOut = true ∧
      (m.core.fronts.get c).ssi.monoAt = none ∧
      (m.core.fronts.get c).ssi.result = (s.node.core.fronts.get c).ssi.result.map fun y => { y with word := .fail .timeout } := by
  refine effect_of_up rfl hup ?_
  unfold Node.ssiLate
  simp only [atT_core, he, hf, Bool.false_or, decide_eq_true_eq, if_neg (Nat.not_lt.mpr ht), ssiTake_ssi, and_self]

/-! ### The excitation -/

/-- R163: at its end the ramp has reached the amplitude. -/
theorem effect_excitationRampEnd (s : State) (c : Ch) (t e : Nat) (hup : s.node.up = true) (ht : e ≤ (s.node.atT t).now)
    (he : (s.node.core.fronts.get c).exc.rampEnd = some e) (ho : (s.node.core.fronts.get c).exc.on = true) :
    Effect (.excitationRampEnd c t) s fun m =>
      (m.core.fronts.get c).exc = { (s.node.core.fronts.get c).exc with rampEnd := none, fullSince := some e } := by
  refine effect_of_up rfl hup ?_
  simp [he, ho, ht]

/-- R163: the excitation stops at its crossing; a start that waits goes on waiting. -/
theorem effect_excitationStop (s : State) (c : Ch) (t e : Nat) (hup : s.node.up = true) (ht : e ≤ (s.node.atT t).now)
    (he : (s.node.core.fronts.get c).exc.stopAt = some e) :
    Effect (.excitationStop c t) s fun m => (m.core.fronts.get c).exc.on = false ∧ (m.core.fronts.get c).exc.stopAt = none ∧
      (m.core.fronts.get c).exc.startDue = (s.node.core.fronts.get c).exc.startDue := by
  refine effect_of_up rfl hup ?_
  simp [he, ht, excOff]

/-! ### The step of the loop -/

/-- R203: an unclean measurement makes the loop coast on its prediction. -/
theorem trkStep_unclean (ps : ParamMem) (c : Nat) (mode : InMode) (rate : TickRate) (x : StepIn) (st : Stamp) (inj : Bool) (t : Trk)
    (ha : t.acq ≠ .first) (hx : x.clean = false) :
    let r := (trkStep ps c mode rate x st inj t).1
    r.th = trkPredict rate st t ∧ r.v = t.v ∧ r.coast = true ∧ r.kil = t.kil := by
  unfold trkStep
  cases h : t.acq with
  | first => exact absurd h ha
  | counting k => simp [hx, trkGreen]
  | done => simp [hx, trkGreen]

/-- R195: a clean step within TRK.LOTERR, outside the first measurement of an acquisition, moves angle and velocity by the gains. -/
theorem trkStep_within (ps : ParamMem) (c : Nat) (mode : InMode) (rate : TickRate) (x : StepIn) (st : Stamp) (inj : Bool) (t : Trk)
    (ha : t.acq ≠ .first) (hx : x.clean = true)
    (hl : ((trkDiff mode x.m (trkPredict rate st t)).natAbs : Int) ≤ fxRat (ps.int Pid.trkLoterr c) 3600) :
    let ns := trkElapsed rate st t
    let tp := trkPredict rate st t
    let e := trkDiff mode x.m tp
    let r := (trkStep ps c mode rate x st inj t).1
    r.th = tp + fxMul (trkAlpha ps c ns) e ∧ r.v = clampI (-(2000 * fxOne)) (2000 * fxOne) (t.v + fxMul (trkGainV ps c ns) e) := by
  unfold trkStep
  cases h : t.acq with
  | first => exact absurd h ha
  | counting k =>
    simp only [hx, Bool.not_true, Bool.false_eq_true, if_false, if_neg (Int.not_lt.mpr hl)]
    exact ⟨rfl, rfl⟩
  | done =>
    simp only [hx, Bool.not_true, Bool.false_eq_true, if_false, if_neg (Int.not_lt.mpr hl)]
    simp only [trkKiln_loop, pushR, and_self]

/-- R206, R221: a clean step of a settled loop within TRK.LOTERR gives a kilned value of its sample instant. -/
theorem trkStep_kilned (ps : ParamMem) (c : Nat) (mode : InMode) (rate : TickRate) (x : StepIn) (st : Stamp) (inj : Bool) (t : Trk)
    (ha : t.acq = .done) (hx : x.clean = true)
    (hl : ((trkDiff mode x.m (trkPredict rate st t)).natAbs : Int) ≤ fxRat (ps.int Pid.trkLoterr c) 3600) :
    let r := (trkStep ps c mode rate x st inj t).1
    r.due = t.due ∧ ∃ k, r.kil = some k ∧ k.st = st := by
  unfold trkStep
  simp only [ha, hx, Bool.not_true, Bool.false_eq_true, if_false, if_neg (Int.not_lt.mpr hl)]
  simp [trkKiln_loop, trkKiln_kil, stepKil, pushR]

/-! ### The steps with rows of their own -/

/-- R172: the phase measured comes into use. -/
theorem carrierMeasured_exc (v : TickEnv) (a b d e : Int) (cl : Bool) (f : Front) (m : Meas) (h : f.exc.meas = some m) :
    let ph := carrierPhase (v.ps.int Pid.excPhexp v.c) m.num m.den
    let phi := if v.ps.nat Pid.excPhmode v.c = 1 then tenthsToFx (v.ps.int Pid.excPhfix v.c) else tenthsToFx ph
    (carrierMeasured v a b d e cl f).front.exc = { f.exc with phase := ph, phiC := phi, meas := none } := by
  simp only [carrierMeasured, h]

theorem effect_carrierPhaseMeasured (s : State) (c : Ch) (a b d e : Int) (cl : Bool) (st : Stamp) (m : Meas) (hup : s.node.up = true)
    (hd : (s.node.core.fronts.get c).trk.due = some (.carrier a b d e cl st)) (hm : (s.node.core.fronts.get c).exc.meas = some m) :
    let ph := carrierPhase (s.node.par Pid.excPhexp c.val) m.num m.den
    Effect (.carrierPhaseMeasured c) s fun n => (n.core.fronts.get c).exc.meas = none ∧ (n.core.fronts.get c).exc.phase = ph ∧
      (n.core.fronts.get c).exc.phiC =
        tenthsToFx (if s.node.parN Pid.excPhmode c.val = 1 then s.node.par Pid.excPhfix c.val else ph) := by
  refine effect_of_up rfl hup ?_
  simp only [hd, Node.runDue]
  obtain ⟨_, _, hexc⟩ := inputs_of_frontOf (frontOf_takeTick c
    (carrierMeasured { s.node.tickEnv c with st := st } a b d e cl (s.node.core.fronts.get c)) s.node)
  rw [hexc, carrierMeasured_exc _ _ _ _ _ _ _ m hm, apply_ite tenthsToFx]
  exact ⟨rfl, rfl, rfl⟩

/-- R202: the end of an acquisition gives the first kilned value, of the step's sample instant. -/
theorem trkAcquired_spec (ps : ParamMem) (c : Nat) (mode : InMode) (x : StepIn) (st : Stamp) (t : Trk) :
    let r := (trkAcquired ps c mode x st t).1
    r.acq = .done ∧ r.valid = true ∧ r.due = none ∧ ∃ k, r.kil = some k ∧ k.st = st := by
  refine ⟨?_, rfl, ?_, _, trkKiln_kil _ _ _ _ _, rfl⟩ <;> simp only [trkAcquired, trkKiln_loop]

theorem effect_acquisitionDone (s : State) (c : Ch) (st : Stamp) (hup : s.node.up = true)
    (hd : (s.node.core.fronts.get c).trk.due = some (.acquired st)) :
    Effect (.acquisitionDone c) s fun n => (n.core.fronts.get c).trk.acq = .done ∧ (n.core.fronts.get c).trk.valid = true ∧
      (n.core.fronts.get c).trk.due = none ∧ ∃ k, (n.core.fronts.get c).trk.kil = some k ∧ k.st = st := by
  refine effect_of_up rfl hup ?_
  simp only [hd, Node.runDue]
  obtain ⟨hkil, hacq, hvalid, hdue, _⟩ := loop_of_frontOf (frontOf_takeTick c _ s.node)
  rw [hkil, hacq, hvalid, hdue]
  exact trkAcquired_spec _ _ _ _ _ _

/-- R221: the first settled sample is stepped as any other measurement of its tick. -/
theorem frontOf_runDue_settled (c : Ch) (n : Node) (m : Int) (cl : Bool) (st : Stamp)
    (hd : (n.core.fronts.get c).trk.due = some (.settled m cl st)) :
    ∃ x : StepIn, x.m = m ∧ x.clean = cl ∧ (n.runDue c).frontOf c = ({ n.core.fronts.get c with
      trk := (trkStep n.core.params c.val (n.mode c) n.time.rate x st false
        { (n.core.fronts.get c).trk with due := none }).1 } : Front).sansIndex := by
  unfold Node.runDue
  simp only [hd]
  refine ⟨_, ?_, ?_, frontOf_takeTick c _ n⟩ <;> split <;> rfl

theorem effect_settleWindowEnd_clean (s : State) (c : Ch) (m : Int) (st : Stamp) (hup : s.node.up = true)
    (hd : (s.node.core.fronts.get c).trk.due = some (.settled m true st)) (ha : (s.node.core.fronts.get c).trk.acq = .done)
    (hl : ((trkDiff (s.node.mode c) m (trkPredict s.node.time.rate st (s.node.core.fronts.get c).trk)).natAbs : Int) ≤
      fxRat (s.node.par Pid.trkLoterr c.val) 3600) :
    Effect (.settleWindowEnd c) s fun n => (n.core.fronts.get c).trk.due = none ∧
      ∃ k, (n.core.fronts.get c).trk.kil = some k ∧ k.st = st := by
  refine effect_of_up rfl hup ?_
  simp only [hd]
  obtain ⟨x, rfl, hcl, hfront⟩ := frontOf_runDue_settled c s.node m true st hd
  obtain ⟨hkil, _, _, hdue, _⟩ := loop_of_frontOf hfront
  rw [hkil, hdue]
  exact trkStep_kilned _ _ _ _ _ _ _ { (s.node.core.fronts.get c).trk with due := none } ha hcl hl

theorem effect_settleWindowEnd_unclean (s : State) (c : Ch) (m : Int) (st : Stamp) (hup : s.node.up = true)
    (hd : (s.node.core.fronts.get c).trk.due = some (.settled m false st)) (ha : (s.node.core.fronts.get c).trk.acq = .done) :
    Effect (.settleWindowEnd c) s fun n => (n.core.fronts.get c).trk.coast = true ∧
      (n.core.fronts.get c).trk.kil = (s.node.core.fronts.get c).trk.kil := by
  refine effect_of_up rfl hup ?_
  simp only [hd]
  obtain ⟨x, _, hcl, hfront⟩ := frontOf_runDue_settled c s.node m false st hd
  obtain ⟨hkil, _, _, _, hcoast⟩ := loop_of_frontOf hfront
  have hacq : ({ (s.node.core.fronts.get c).trk with due := none } : Trk).acq ≠ .first := fun h => Acq.noConfusion (ha.symm.trans h)
  obtain ⟨_, _, hcoasts, hkept⟩ := trkStep_unclean s.node.core.params c.val (s.node.mode c) s.node.time.rate x st false _ hacq hcl
  rw [hkil, hcoast]
  exact ⟨hcoasts, hkept⟩

/-! ### The exact step -/

/-- R196: the recurrence of the exact step is its closed loop from measurement to angle. -/
theorem loopStep_closedLoop (alpha beta T : Rat) (m th v : Nat → Rat)
    (h : ∀ k, (th (k + 1), v (k + 1)) = loopStep alpha beta T (m (k + 1)) (th k) (v k)) (hT : T ≠ 0) (k : Nat) :
    th (k + 2) + (alpha + beta - 2) * th (k + 1) + (1 - alpha) * th k = alpha * m (k + 2) + (beta - alpha) * m (k + 1) := by
  obtain ⟨hth, hv⟩ := Prod.mk.inj (h k)
  obtain ⟨hth', _⟩ := Prod.mk.inj (h (k + 1))
  have hvT : v (k + 1) * T = v k * T + beta * (m (k + 1) - (th k + v k * T)) := by
    have hgain : beta / T * (m (k + 1) - (th k + v k * T)) * T = beta * (m (k + 1) - (th k + v k * T)) := by grind
    rw [hv, Rat.add_mul, hgain]
  rw [hvT] at hth'
  grind

/-- R196: at constant velocity the exact step follows without lag. -/
theorem loopStep_constantVelocity (alpha beta T p w : Rat) : loopStep alpha beta T (p + w * T) p w = (p + w * T, w) := by
  simp only [loopStep, Rat.sub_self, Rat.mul_zero, Rat.add_zero]

/-- R196: at constant acceleration the prediction lags by a T² / β, that is a / wn² (log entry 103). -/
theorem loopStep_constantAcceleration (alpha beta T a k : Rat) (hb : beta ≠ 0) (hT : T ≠ 0) :
    let m := fun (k : Rat) => a * (k * T) ^ 2 / 2
    let lag := a * T ^ 2 / beta
    let th := fun (k : Rat) => m k - (1 - alpha) * lag
    let v := fun (k : Rat) => a * T * (k + 1 / 2) - alpha * a * T / beta
    m (k + 1) - (th k + v k * T) = lag ∧ loopStep alpha beta T (m (k + 1)) (th k) (v k) = (th (k + 1), v (k + 1)) := by
  intro m lag th v
  have hlag : m (k + 1) - (th k + v k * T) = lag := by
    simp only [m, th, v, lag]
    grind
  refine ⟨hlag, Prod.ext ?angle ?velocity⟩ <;> simp only [loopStep, hlag]
  case angle => grind
  case velocity =>
    simp only [v, lag]
    grind

/-- Settles O45: what a step asks of the node leaves its front end alone but for the index registers, so each row's front end is what
its own definition gives; the exact step's three laws are algebra on its gains (log entries 53, 103). -/
theorem frontEndEvents : Obligations.FrontEndEvents := by
  refine ⟨fun s c code held t hup hm hp => ⟨effect_hallEdge_short s c code held t hup, fun hh hr =>
      ⟨effect_hallEdge_invalid s c code held t hup hm hp hh hr, fun x => effect_hallEdge_valid s c code held t x hup hm hp hh hr⟩,
      fun e => effect_hallInvalidTimeout s c t e hup, fun e k => effect_hallStopTimeout s c t e k hup hm⟩,
    effect_ssiWord, effect_ssiMonoflopTimeout,
    fun s c t e hup ht => ⟨effect_excitationRampEnd s c t e hup ht, effect_excitationStop s c t e hup ht⟩,
    fun s c hup => ⟨fun a b d e cl st m => effect_carrierPhaseMeasured s c a b d e cl st m hup,
      fun st => effect_acquisitionDone s c st hup, fun x st => effect_settleWindowEnd_clean s c x st hup,
      fun x st => effect_settleWindowEnd_unclean s c x st hup⟩,
    fun ps c mode rate x st inj t ha => ⟨fun hx => ?coasts, trkStep_within ps c mode rate x st inj t ha⟩,
    loopStep_closedLoop, loopStep_constantVelocity, loopStep_constantAcceleration⟩
  case coasts =>
    obtain ⟨hth, hv, hcoast, _⟩ := trkStep_unclean ps c mode rate x st inj t ha hx
    exact ⟨hth, hv, hcoast⟩

end Sys2Proof.Machine
end

section
/-!
PROOFS. Position services of the tracking converter (06_tracking_converter.md R210 to R216; 07_green_and_kilned.md R234;
08_latch_hop_emulation.md R266, R268, R271): the completion of LEARN, POS_AT and TIME_AT, and what SET_POSITION sends.
-/
namespace Sys2Proof.Machine

/-! ### Operations that end here -/

theorem endOp_of_here (op : PoolOp) (s : Status) (ch : List (List Word)) (g : Bool) (n : Node) (h : op.side = .here) :
    n.endOp op s ch g = (n.dropOp op.order).finish op.packet s ch g n.tick16 := by
  simp only [Node.endOp, h]

theorem opOf_order {n : Node} {o : Nat} {op : PoolOp} (h : n.opOf o = some op) : op.order = o :=
  beq_iff_eq.mp (List.find?_some (p := fun x : PoolOp => x.order == o) h)

theorem dropOp_opOf (o : Nat) (n : Node) : (n.dropOp o).opOf o = none := by
  refine List.find?_eq_none.mpr fun x hx => ?_
  obtain ⟨_, hne⟩ := List.mem_filter.mp hx
  simpa using hne

/-- An operation that ends here leaves the pool, and its sender gets the final reply (R80). -/
theorem endOp_ends (op : PoolOp) (s : Status) (ch : List (List Word)) (g : Bool) (n : Node) (h : op.side = .here) :
    (n.endOp op s ch g).opOf op.order = none ∧
      (n.endOp op s ch g).sentTo (senderOf op.packet) = n.sentTo (senderOf op.packet) ++ n.finalReply op.packet s ch g := by
  rw [endOp_of_here op s ch g n h]
  constructor
  · unfold Node.opOf
    rw [finish_core]
    exact dropOp_opOf op.order n
  · rw [finish_sentTo, if_pos rfl, dropOp_sentTo]
    rfl

/-! ### The end of a wait -/

/-- The node without the waits of an operation. -/
def Node.withoutWait (w : ExtrapWait) (n : Node) : Node :=
  n.modCore fun k => { k with extraps := k.extraps.filter fun x => x.op != w.op }

/-- The wait and its operation are gone, and DONE with these words went out. -/
def Node.waitDone (w : ExtrapWait) (op : PoolOp) (ws : List Word) (green : Bool) (n m : Node) : Prop :=
  m.opOf w.op = none ∧ m.core.extraps = n.core.extraps.filter (fun x => x.op != w.op) ∧
    m.sentTo (senderOf op.packet) = n.sentTo (senderOf op.packet) ++ n.finalReply op.packet .done [ws] green

theorem waitDone_of_endOp {w : ExtrapWait} {op : PoolOp} {ws : List Word} {g : Bool} {n : Node} (ho : n.opOf w.op = some op)
    (hs : op.side = .here) : n.waitDone w op ws g ((n.withoutWait w).endOp op .done [ws] g) := by
  obtain ⟨hgone, hsent⟩ := endOp_ends op .done [ws] g (n.withoutWait w) hs
  exact ⟨opOf_order ho ▸ hgone, congrArg Core.extraps (endOp_sameBut op .done [ws] g (n.withoutWait w)).core, hsent⟩

theorem endExtrap_delivers (w : ExtrapWait) (op : PoolOp) (ws : List Word) (n : Node) (ho : n.opOf w.op = some op) :
    n.endExtrap w ws = (n.withoutWait w).deliver op
      (if w.asksPosition then (n.withoutWait w).posReply op.packet w.ch ws else .ok ws) := by
  have ho' : (n.withoutWait w).opOf w.op = some op := ho
  unfold Node.withoutWait at ho' ⊢
  cases hk : w.kind <;> simp [Node.endExtrap, ExtrapWait.asksPosition, ho', hk]

/-- R232, R268: a wait for a position ends with its words, and the green group where it may come. -/
theorem endExtrap_posAt {w : ExtrapWait} {op : PoolOp} {n : Node} {t : Nat} (ws : List Word) (hk : w.kind = .posAt t)
    (ho : n.opOf w.op = some op) (hs : op.side = .here) :
    n.waitDone w op (ws ++ if op.packet.greenOk then n.greenGroup w.ch else []) op.packet.greenOk (n.endExtrap w ws) := by
  have hask : w.asksPosition = true := by rw [ExtrapWait.asksPosition, hk]
  rw [endExtrap_delivers w op ws n ho, if_pos hask]
  unfold Node.posReply
  cases op.packet.greenOk with
  | true => exact waitDone_of_endOp ho hs
  | false =>
    simp only [Bool.false_eq_true, if_false, List.append_nil]
    exact waitDone_of_endOp ho hs

/-- R271: a wait for an instant ends with its words. -/
theorem endExtrap_timeAt {w : ExtrapWait} {op : PoolOp} {n : Node} {target : Int} {rev : Bool} {start d : Nat} (ws : List Word)
    (hk : w.kind = .timeAt target rev start d) (ho : n.opOf w.op = some op) (hs : op.side = .here) :
    n.waitDone w op ws false (n.endExtrap w ws) := by
  have hask : ¬ w.asksPosition = true := by rw [ExtrapWait.asksPosition, hk]; exact Bool.false_ne_true
  rw [endExtrap_delivers w op ws n ho, if_neg hask]
  exact waitDone_of_endOp ho hs

/-- R234: the kilned step at or after the instant ends the wait for a position with the value there. -/
theorem valueReady_ends {w : ExtrapWait} {n : Node} {t : Nat} {k : Kil} (hk : w.kind = .posAt t)
    (hkil : (n.core.fronts.get w.ch).trk.kil = some k) (ht : ltLe t k.st.lt = true) :
    n.valueReady w = n.endExtrap w (n.valueAt w.ch ((bracket t (n.samples w.ch)).getD (k, k)).1
      ((bracket t (n.samples w.ch)).getD (k, k)).2 t) := by
  simp [Node.valueReady, hk, hkil, ht]

/-- R271: a crossing of the target at or after the start ends the wait for its instant. -/
theorem timeCrossing_ends {w : ExtrapWait} {n : Node} {target : Int} {rev : Bool} {start d : Nat} {a b : Kil}
    (hk : w.kind = .timeAt target rev start d) (ha : (n.core.fronts.get w.ch).trk.kilBefore = some a)
    (hb : (n.core.fronts.get w.ch).trk.kil = some b) (hx : crosses (if rev then 1 else 0) target a.u b.u = true)
    (hst : ltLe start (crossStamp a b target).lt = true) : n.timeCrossing w = n.endExtrap w (timeWords a b target) := by
  simp [Node.timeCrossing, hk, ha, hb, hx, hst]

/-! ### The rows -/

theorem endOrder_fronts (o : Nat) (s : Status) (ws : List Word) (n : Node) : (n.endOrder o s ws).core.fronts = n.core.fronts := by
  have hbody := congrArg Core.fronts (endOrder_sameBut o s ws n).core
  exact hbody

theorem endOrder_params (o : Nat) (s : Status) (ws : List Word) (n : Node) : (n.endOrder o s ws).core.params = n.core.params := by
  have hbody := congrArg Core.params (endOrder_sameBut o s ws n).core
  exact hbody

/-- R214, R215: a finished map is in force from the next P0 and TRK.MAPEN is 1. -/
theorem learnDone_installs (c : Ch) (l : Learn) (es : List Int) (n : Node) (hl : (n.core.fronts.get c).trk.learn = some l)
    (ho : l.outcome = some (some es)) (hwf : n.core.params.wf = true) :
    ((n.learnDone c).core.fronts.get c).trk.learn = none ∧
      ((n.learnDone c).core.fronts.get c).trk.mapNext = some (es.map (BitVec.ofInt 16)) ∧
      (n.learnDone c).core.params.get (pidAt Pid.trkMapen c.val) = 1 := by
  unfold Node.learnDone
  simp only [hl, ho]
  rw [endOrder_fronts, endOrder_params]
  simp only [Node.setMap, setPar_core, modFront_core, Quad.get_set_same, ParamMem.get_put _ _ _ _ hwf, if_true, and_self]

/-- Settles O30: a finished learning installs its map before its command ends; a wait that ends is dropped with its operation, and its
reply is the last thing sent. -/
theorem waitingPositionsComplete : Obligations.WaitingPositionsComplete := by
  refine ⟨fun s c l es hup hl ho hwf => ⟨_, rfl, ?learn⟩, fun s slot w op hup hw hop hs =>
    ⟨fun t k hk hkil ht => ⟨_, rfl, ?posAt⟩, fun target rev start d a b hk ha hb hx hst => ⟨_, rfl, ?crossing⟩,
      fun target rev start d t hk hd => ⟨_, rfl, ?timeout⟩⟩⟩
  case learn =>
    dsimp only
    rw [whenUp_of_up _ _ hup]
    exact learnDone_installs c l es s.node hl ho hwf
  case posAt =>
    dsimp only
    rw [whenUp_of_up _ _ hup]
    simp only [hw, valueReady_ends hk hkil ht]
    exact endExtrap_posAt _ hk hop hs
  case crossing =>
    dsimp only
    rw [whenUp_of_up _ _ hup]
    simp only [hw, timeCrossing_ends hk ha hb hx hst]
    exact endExtrap_timeAt _ hk hop hs
  case timeout =>
    have hw' : (s.node.atT t).extrapOf slot = some w := hw
    dsimp only
    rw [whenUp_of_up _ _ hup]
    simp only [hw', hk, if_pos hd]
    exact endExtrap_timeAt _ hk hop hs

/-! ### SET_POSITION before a subscriber -/

/-- A command has the one effect that its row computes. -/
theorem Effect.of_row {i : Instr} {s : State} {m : Node} {P : Node → Prop} (h : Effect i s P)
    (hrow : exec i s = .next { s with node := m }) : P m := by
  obtain ⟨m', hm', hP⟩ := h
  have hm : m' = m := congrArg State.node (Host.Outcome.next.inj (hm'.symm.trans hrow))
  exact hm ▸ hP

theorem exec_setPosition (p : Packet) (s : State) :
    exec (.setPosition p) s = .next { s with node := s.node.packetRow cmdSetPosition (asRow .setPosition p) } := rfl

/-- A kilned value at 300 au. -/
def kilnedAt300 : Kil := { u := 300, v := 5, cnt := 0, st := { lt := 125000, mark := .lineTime, e := 125000 } }

/-- A node in TRACK whose channel 2 has that value, and whose client 7, a maintainer, has subscribed EV.POS_SHIFT. -/
def shiftSubscribed : State :=
  let n := State.reset.node
  { pending := []
    node := { n with
      power := { n.power with vcel := true, railsGood := true }
      time := { n.time with lt := 125000, p0e := 125000, k48 := 2 }
      core := { n.core with
        run := .up, mode := .track
        fronts := n.core.fronts.set 2 { trk := { running := true, valid := true, kil := some kilnedAt300, kilTick := some kilnedAt300 } } }
      sessions := [{ id := 7, cls := .maintainer, nonce := 5, lastNs := 0 }]
      clients := [{ client := .line 7, subs := [.posShift] }] } }

/-- A packet of client 7 that carries 5000 for channel 2. -/
def wordOf5000 : Packet :=
  { port := .line, opcode := 0, client := 7, tag := 1, greenOk := false, finalOnly := false, scheduled := false, mask := 4, tick := 0
    words := [5000], mac := none }

theorem shiftSubscribed_runsNow : shiftSubscribed.node.runsNow (asRow .setPosition wordOf5000) = true := by decide +kernel

theorem shiftSubscribed_atRest :
    shiftSubscribed.node.slotRunning (shiftSubscribed.node.chan (asRow .setPosition wordOf5000)) = false := by decide +kernel

theorem shiftSubscribed_kilned :
    shiftSubscribed.node.kilned (shiftSubscribed.node.chan (asRow .setPosition wordOf5000)) = some kilnedAt300 := by decide +kernel

theorem shiftSubscribed_atCommit_sentTo :
    (shiftSubscribed.node.atCommit (asRow .setPosition wordOf5000)).sentTo (senderOf (asRow .setPosition wordOf5000)) = [] := by
  decide +kernel

/-- R57, R266: the new POS.OFFSET raises EV.POS_SHIFT, which goes out before the reply. -/
theorem setPosition_sends_event_and_reply :
    ((shiftSubscribed.node.packetRow cmdSetPosition (asRow .setPosition wordOf5000)).sentTo
      (senderOf (asRow .setPosition wordOf5000))).map ReplyPkt.opcode = [0xFF, 0x31] := by
  decide +kernel

/-- Refutes O29: the reply need not stand directly behind what the arrival sent. A SET_POSITION whose sender has subscribed EV.POS_SHIFT
sends it that event in between (R266). -/
theorem not_positionCommands : ¬ Obligations.PositionCommands := by
  intro h
  obtain ⟨_, hset, _⟩ := h
  obtain ⟨_, _, hreply⟩ := (hset shiftSubscribed wordOf5000 kilnedAt300 shiftSubscribed_runsNow shiftSubscribed_atRest
    shiftSubscribed_kilned rfl).of_row (exec_setPosition wordOf5000 shiftSubscribed)
  have hopcodes := congrArg (List.map ReplyPkt.opcode) hreply
  rw [setPosition_sends_event_and_reply, shiftSubscribed_atCommit_sentTo] at hopcodes
  exact absurd hopcodes (by decide +kernel)

end Sys2Proof.Machine
end

section
/-!
PROOFS. Latches (08_latch_hop_emulation.md R255 to R259): edges of one stamp stand in the FIFO in the order of their inputs.
-/
namespace Sys2Proof.Machine

theorem exec_latchEdge (c : Ch) (b falling : Bool) (held t : Nat) (s : State) (h : s.node.up = true) :
    exec (.latchEdge c b falling held t) s = .next { s with node := (s.node.atT t).latchEdge c b falling held } := by
  rw [← whenUp_of_up (fun n => (n.atT t).latchEdge c b falling held) s.node h]
  rfl

/-- An arming for every rising edge, with none captured. -/
def risingArming (op : Nat) : Arming := { op := op, mode := .continuous, edge := .rising, n := 0, since := 0 }

/-- Channel 0 tracks with both inputs armed and nothing captured. -/
def bothArmed : Node :=
  ((State.reset.node.modCore fun k => { k with run := .up }).modFront 0 fun f => { f with trk := { f.trk with running := true } }).modPos 0
    fun p => { p with latch := { armA := some (risingArming 1), armB := some (risingArming 2) } }

/-- The node after a rising edge of an input of channel 0, 100 ns after P0 and held for 1 ms. -/
def Node.risingAt100 (b : Bool) (n : Node) : Node := (n.atT 100).latchEdge 0 b false 1000000

theorem risingAt100_latB_fifo : ((bothArmed.risingAt100 true).core.pos.get 0).latch.fifo.map LatchEntry.source = [.latB] := by
  decide +kernel

theorem risingAt100_latB_armed : ((bothArmed.risingAt100 true).core.pos.get 0).latch.arm false = some (risingArming 1) := by
  decide +kernel

/-- R259: of two captures with equal stamps, LATA comes first, also where LATB was captured before it. -/
theorem risingAt100_latB_latA_fifo :
    (((bothArmed.risingAt100 true).risingAt100 false).core.pos.get 0).latch.fifo.map LatchEntry.source = [.latA, .latB] := by
  decide +kernel

/-- Refutes O35: an accepted edge need not enter at the end of the FIFO. Where a LATB edge of the same stamp has been captured, the LATA
edge enters before it (R259). -/
theorem not_latchesCapture : ¬ Obligations.LatchesCapture := by
  intro h
  obtain ⟨_, _, _, hedge, _⟩ := h
  obtain ⟨_, haccepted⟩ := hedge { node := bothArmed.risingAt100 true, pending := [] } 0 false false 1000000 100 rfl rfl
  obtain ⟨⟨e, hfifo, _⟩, _⟩ := (haccepted (risingArming 1) (by decide +kernel) risingAt100_latB_armed rfl (by decide +kernel)
    (by decide +kernel)).of_row (exec_latchEdge _ _ _ _ _ _ rfl)
  have hsources : [.latA, .latB] = [.latB] ++ [e.source] := by
    rw [← risingAt100_latB_latA_fifo, ← risingAt100_latB_fifo, Node.risingAt100, hfifo, List.map_append]
    rfl
  exact LatchSource.noConfusion (List.cons.inj hsources).1

end Sys2Proof.Machine
end

section
/-!
PROOFS. Hop entries and compare outputs (07_green_and_kilned.md R241; 08_latch_hop_emulation.md R276, R277, R279, R281): firings on the
kilned crossing and green, expiry, the end of a pulse, and the judgement of a green firing.
-/
namespace Sys2Proof.Machine

/-! ### Compare outputs -/

theorem listSet_getElem?_same {α : Type} (xs : List α) (i : Nat) (y : α) : (listSet xs i y)[i]? = xs[i]?.map fun _ => y := by
  induction xs generalizing i with
  | nil => rfl
  | cons x xs ih =>
    cases i with
    | zero => rfl
    | succ i => simpa [listSet] using ih i

theorem modCmp_cmps_same (i : Nat) (f : CmpOut → CmpOut) (n : Node) : (n.modCmp i f).core.cmps[i]? = (n.core.cmps[i]?).map f := by
  rw [Node.modCmp, modCore_core]
  cases h : n.core.cmps[i]? with
  | none => exact h
  | some o =>
    rw [listSet_getElem?_same, h]
    rfl

/-- R279: a pulse that ends at an instant of no other action leaves its output inactive. -/
theorem endPulse_of_due {x : CmpOut} {p e : Nat} (hp : x.pulseEnd = some p) (he : p ≤ e) (hi : x.instant ≠ some e) :
    (x.endPulse e).active = false ∧ (x.endPulse e).pulseEnd = none := by
  simp [CmpOut.endPulse, CmpOut.openAt, CmpOut.settle, hp, he, hi]

/-! ### Entries that end -/

/-- An entry that ends is gone from the core, and nothing else of the core changes. -/
theorem hopEnd_core (h : HopEntry) (r : Nat) (i : Bool) (tx : Option Stamp) (n : Node) :
    (n.hopEnd h r i tx).core = { n.core with hops := n.core.hops.filter fun x => x.handle != h.handle } := event_core _ _ _ _ _

/-- From `n` to `m` the entry has gone and its output has acted at an elapsed instant. -/
def Node.hopActed (h : HopEntry) (e : Nat) (n m : Node) : Prop :=
  m.core.hops = n.core.hops.filter (fun x => x.handle != h.handle) ∧
    m.core.cmps[h.output]? = (n.core.cmps[h.output]?).map (CmpOut.act h.w2 e)

theorem hopWave_of_none (h : HopEntry) (green : Bool) (n : Node) (hw : bitOf h.w2 32 = false) : n.hopWave h green = (false, n) := by
  rw [Node.hopWave, hw]
  rfl

/-- R276, R279: an entry without a wave trigger that fires acts on its output, is gone, and leaves the fired entries alone. -/
theorem fireHop_acts (h : HopEntry) (green : Bool) (tx : Stamp) (n : Node) (hw : bitOf h.w2 32 = false) :
    n.hopActed h n.now (n.fireHop h green tx) ∧ (n.fireHop h green tx).core.fired = n.core.fired := by
  simp only [Node.hopActed, Node.fireHop, hopWave_of_none h green _ hw, hopEnd_core]
  exact ⟨⟨rfl, modCmp_cmps_same _ _ n⟩, rfl⟩

/-- R276, R281: the entry fires at or after t_F, unless it expired before it. -/
theorem hopFireKilned_of_due {n : Node} {hd : Nat} {h : HopEntry} {tx : Stamp} {tf : Nat} (hh : n.hop hd = some h)
    (hc : h.crossed = some (tx, tf)) (ht : tf ≤ n.now) (he : ∀ e, h.expiry = some e → tf ≤ e) :
    n.hopFireKilned hd = n.fireHop h false tx := by
  have hwaits : ¬ (n.now < tf || h.expiry.any fun e => decide (e < tf)) = true := by
    cases hx : h.expiry with
    | none => simpa using ht
    | some e => simpa using ⟨ht, he e hx⟩
  simp only [Node.hopFireKilned, hh, hc, if_neg hwaits]

/-- R239, R241, R277: what a green firing leaves to be judged. -/
def Node.firedGreen (h : HopEntry) (n : Node) : FiredEntry :=
  { handle := h.handle, ch := h.ch, output := h.output, target := h.target, fired := n.stamp, crossing := n.stamp.shift h.lead }

/-- R277, R281: an entry that is ready fires green, unless it has expired. -/
theorem hopFireGreen_of_ready {n : Node} {hd : Nat} {h : HopEntry} (hh : n.hop hd = some h) (hg : n.greenReady h = true)
    (he : ∀ e, h.expiry = some e → n.now ≤ e) :
    n.hopFireGreen hd =
      (n.modCore fun k => { k with fired := k.fired ++ [n.firedGreen h] }).fireHop h true (n.stamp.shift h.lead) := by
  have hready : ¬ ((h.expiry.any fun e => decide (e < n.now)) || !n.greenReady h) = true := by
    cases hx : h.expiry with
    | none => simpa using hg
    | some e => simpa using ⟨he e hx, hg⟩
  simp only [Node.hopFireGreen, hh, if_neg hready, Node.firedGreen]

/-- R281: an entry that is not crossed by its expiry ends there. -/
theorem hopExpire_of_uncrossed {n : Node} {hd e : Nat} {h : HopEntry} (hh : n.hop hd = some h) (hx : h.expiry = some e)
    (ht : e ≤ n.now) (hc : h.crossed = none) : n.hopExpire hd = n.hopEnd h 2 false none := by
  simp [Node.hopExpire, hh, hx, hc, Nat.not_lt.mpr ht]

/-! ### Refutations -/

theorem refute_fired (c : Ch) (r : Int) (o : Nat) (st : Stamp) (u : Int) (n : Node) :
    (n.refute c r o st u).core.fired = n.core.fired := by
  unfold Node.refute
  split
  · simp [Node.refutedEvent, Node.modPos]
  · rfl

/-- R244: a refuted channel has its window open. -/
theorem refute_opens (c : Ch) (r : Int) (o : Nat) (st : Stamp) (u : Int) (n : Node) :
    ((n.refute c r o st u).core.pos.get c).refuted.isSome = true := by
  unfold Node.refute
  split <;> simp [Node.modPos]

/-- The residual of a green firing between two kilned samples (R241). -/
def Node.firedResidual (f : FiredEntry) (a b : Kil) (n : Node) : Int :=
  diffAu (interpolate (n.offset f.ch) a b f.crossing.e).1 f.target

/-- The core without a fired entry that has been judged. -/
def Node.dropFired (f : FiredEntry) (n : Node) : Node := n.modCore fun k => { k with fired := k.fired.filter fun x => x != f }

/-- R241: a residual within TRK.REFUTE confirms the firing. -/
theorem judgeFired_of_within {n : Node} {hd : Nat} {f : FiredEntry} {a b : Kil}
    (hf : n.core.fired.find? (fun x => x.handle == hd) = some f) (hb : bracketAt f.crossing.e (n.samples f.ch) = some (a, b))
    (hr : (n.firedResidual f a b).natAbs ≤ n.par Pid.trkRefute f.ch.val) : n.judgeFired hd = n.dropFired f := by
  have hin : ¬ (n.dropFired f).par Pid.trkRefute f.ch.val < (n.firedResidual f a b).natAbs := Int.not_lt.mpr hr
  unfold Node.judgeFired
  simp only [hf, hb]
  exact if_neg hin

/-- R241: a residual beyond TRK.REFUTE refutes the channel. -/
theorem judgeFired_of_beyond {n : Node} {hd : Nat} {f : FiredEntry} {a b : Kil}
    (hf : n.core.fired.find? (fun x => x.handle == hd) = some f) (hb : bracketAt f.crossing.e (n.samples f.ch) = some (a, b))
    (hr : n.par Pid.trkRefute f.ch.val < (n.firedResidual f a b).natAbs) :
    ∃ u, (n.judgeFired hd).core = ((n.dropFired f).refute f.ch (n.firedResidual f a b) 5 b.st u).core := by
  have hout : (n.dropFired f).par Pid.trkRefute f.ch.val < (n.firedResidual f a b).natAbs := hr
  refine ⟨(n.dropFired f).emuCatchUp f.ch, ?_⟩
  unfold Node.judgeFired
  simp only [hf, hb]
  exact (congrArg Node.core (if_pos hout)).trans (event_core _ _ _ _ _)

/-! ### The rows -/

theorem effect_hopFireKilned (s : State) (hd t : Nat) (h : HopEntry) (tx : Stamp) (tf : Nat) (hup : s.node.up = true)
    (hh : s.node.hop hd = some h) (hc : h.crossed = some (tx, tf)) (ht : tf ≤ (s.node.atT t).now)
    (he : ∀ e, h.expiry = some e → tf ≤ e) (hw : bitOf h.w2 32 = false) :
    Effect (.hopFireKilned hd t) s fun m =>
      s.node.hopActed h (s.node.atT t).now m ∧ m.core.fired = s.node.core.fired := by
  refine effect_of_up rfl hup ?_
  rw [hopFireKilned_of_due (n := s.node.atT t) hh hc ht he]
  exact fireHop_acts h false tx (s.node.atT t) hw

theorem effect_hopFireGreen (s : State) (hd t : Nat) (h : HopEntry) (hup : s.node.up = true) (hh : s.node.hop hd = some h)
    (hg : (s.node.atT t).greenReady h = true) (he : ∀ e, h.expiry = some e → (s.node.atT t).now ≤ e) (hw : bitOf h.w2 32 = false) :
    Effect (.hopFireGreen hd t) s fun m => s.node.hopActed h (s.node.atT t).now m ∧
      m.core.fired = s.node.core.fired ++ [(s.node.atT t).firedGreen h] := by
  refine effect_of_up rfl hup ?_
  rw [hopFireGreen_of_ready (n := s.node.atT t) hh hg he]
  exact fireHop_acts h true _ ((s.node.atT t).modCore _) hw

theorem effect_hopExpiry (s : State) (hd t e : Nat) (h : HopEntry) (hup : s.node.up = true) (hh : s.node.hop hd = some h)
    (hx : h.expiry = some e) (ht : e ≤ (s.node.atT t).now) (hc : h.crossed = none) :
    Effect (.hopExpiry hd t) s fun m =>
      m.core.hops = s.node.core.hops.filter (fun x => x.handle != h.handle) ∧ m.core.cmps = s.node.core.cmps := by
  refine effect_of_up rfl hup ?_
  rw [hopExpire_of_uncrossed (n := s.node.atT t) hh hx ht hc, hopEnd_core]
  exact ⟨rfl, rfl⟩

theorem effect_comparePulseEnd (s : State) (o : Fin 8) (t e : Nat) (x : CmpOut) (hup : s.node.up = true)
    (hx : s.node.core.cmps[o.val]? = some x) (hp : x.pulseEnd = some e) (he : e ≤ (s.node.atT t).now)
    (hi : x.instant ≠ some (s.node.atT t).now) :
    Effect (.comparePulseEnd o t) s fun m => ∃ y, m.core.cmps[o.val]? = some y ∧ y.active = false ∧ y.pulseEnd = none := by
  refine effect_of_up rfl hup ⟨x.endPulse (s.node.atT t).now, ?_, endPulse_of_due hp he hi⟩
  rw [modCmp_cmps_same, atT_core, hx]
  rfl

theorem effect_firedEntryJudgement (s : State) (hd t : Nat) (f : FiredEntry) (a b : Kil) (hup : s.node.up = true)
    (hf : s.node.core.fired.find? (fun x => x.handle == hd) = some f)
    (hb : bracketAt f.crossing.e (s.node.samples f.ch) = some (a, b)) :
    Effect (.firedEntryJudgement hd t) s fun m => m.core.fired = s.node.core.fired.filter (fun x => x != f) ∧
      ((s.node.firedResidual f a b).natAbs ≤ s.node.par Pid.trkRefute f.ch.val → m.core.pos = s.node.core.pos) ∧
      (s.node.par Pid.trkRefute f.ch.val < (s.node.firedResidual f a b).natAbs → (m.core.pos.get f.ch).refuted.isSome = true) := by
  refine effect_of_up rfl hup ?_
  by_cases hr : s.node.par Pid.trkRefute f.ch.val < (s.node.firedResidual f a b).natAbs
  · obtain ⟨u, hcore⟩ := judgeFired_of_beyond (n := s.node.atT t) hf hb hr
    rw [hcore]
    exact ⟨refute_fired _ _ _ _ _ _, fun hle => absurd hr (Int.not_lt.mpr hle), fun _ => refute_opens _ _ _ _ _ _⟩
  · rw [judgeFired_of_within (n := s.node.atT t) hf hb (Int.not_lt.mp hr)]
    exact ⟨rfl, fun _ => rfl, fun hlt => absurd hlt hr⟩

/-- Settles O38: a firing acts on its compare output before its entry is dropped, and the judgement of a green one drops the fired entry
before it opens or counts into the refutation window. -/
theorem hopsFire : Obligations.HopsFire := by
  refine ⟨fun s hd t h hup hh => ⟨fun tx tf hc ht he hw => effect_hopFireKilned s hd t h tx tf hup hh hc ht he hw, fun hg he hw => ?green,
      fun e hx ht hc => effect_hopExpiry s hd t e h hup hh hx ht hc⟩,
    fun s o t e x hup hx hp he hi => effect_comparePulseEnd s o t e x hup hx hp he hi,
    fun s hd t f a b hup hf hb => effect_firedEntryJudgement s hd t f a b hup hf hb⟩
  case green =>
    obtain ⟨m, hrow, hacts, hfired⟩ := effect_hopFireGreen s hd t h hup hh hg he hw
    exact ⟨m, hrow, hacts, (s.node.atT t).firedGreen h, hfired, rfl, rfl, rfl, rfl, rfl⟩

end Sys2Proof.Machine
end

section
/-!
PROOFS. Frames of the line at a node (07_green_and_kilned.md R246 to R249; 12_grenrus_line.md R405, R408, R409): which frames it takes,
how a failed check is counted, and what goes on.
-/
namespace Sys2Proof.Machine

/-! ### What the fault manager's reports leave alone -/

section
variable {β : Type} (g : Node → β) (hmod : ∀ f n, g (Node.modFaults f n) = g n) (hevent : ∀ ev sc st ws n, g (Node.event ev sc st ws n) = g n)
include hmod

/-- A part that the fault manager's own state is no part of stays as a detector reports. -/
theorem trip_part (f : FaultCode) (cls sc : Nat) (x : Word) (i : Bool) (n : Node) : g (n.trip f cls sc x i) = g n := by
  rcases trip_cases f cls sc x i n with ⟨v, _, _, he⟩ | ⟨he, _⟩ <;> rw [he]
  exact hmod _ n

include hevent

/-- A part that neither the fault manager's own state nor an event reaches stays as an occurrence is formed or counted. -/
theorem occur_part (f : FaultCode) (sc : Nat) (k : OccKind) (cls : Nat) (r i : Bool) (x : Word) (n : Node) :
    g (n.occur f sc k cls r i x) = g n := by
  unfold Node.occur Node.formFault
  split
  · exact (hmod _ _).trans ((hmod _ _).trans (hevent _ _ _ _ n))
  · exact hmod _ n

/-- Such a part stays as a condition ceases. -/
theorem cease_part (f : FaultCode) (sc : Nat) (n : Node) : g (n.cease f sc) = g n := by
  unfold Node.cease
  dsimp only
  split
  · exact hmod _ n
  · split
    · exact hmod _ n
    · split <;> exact (occur_part g hmod hevent _ _ _ _ _ _ _ _).trans ((hmod _ _).trans (hmod _ n))

end

@[simp] theorem event_line (ev : EventCode) (sc : Nat) (st : Stamp) (ws : List Word) (n : Node) :
    (n.event ev sc st ws).line = n.line := (event_sameBut ev sc st ws n).line

@[simp] theorem trip_line (f : FaultCode) (cls sc : Nat) (x : Word) (i : Bool) (n : Node) : (n.trip f cls sc x i).line = n.line :=
  trip_part Node.line (fun _ _ => rfl) f cls sc x i n

@[simp] theorem cease_line (f : FaultCode) (sc : Nat) (n : Node) : (n.cease f sc).line = n.line :=
  cease_part Node.line (fun _ _ => rfl) event_line f sc n

/-- The cycle blocks that wait for the host, the store's writes, and the operation pool. -/
def Node.stores (n : Node) : List (List Byte) × List StoreWrite × List PoolOp := (n.host.blocks, n.store.writes, n.core.pool)

theorem emit_blocks (d : Client) (b : Bool) (p : ReplyPkt) (n : Node) : (n.emit d b p).host.blocks = n.host.blocks := by
  unfold Node.emit
  split
  · rw [modHost_host]
    split <;> rfl
  · rfl

theorem eventTo_blocks (ev : EventCode) (sc : Nat) (st : Stamp) (ws : List Word) (r : ClientRec) (n : Node) :
    (n.eventTo ev sc st ws r).host.blocks = n.host.blocks := by
  unfold Node.eventTo
  dsimp only
  split
  · rw [emit_blocks, setClient_host]
  · rw [setClient_host]

theorem event_blocks (ev : EventCode) (sc : Nat) (st : Stamp) (ws : List Word) (n : Node) :
    (n.event ev sc st ws).host.blocks = n.host.blocks := by
  unfold Node.event
  split
  · rfl
  · exact eachOf_part (fun m => m.host.blocks) _ (fun r m => eventTo_blocks _ _ _ _ r m) _ n

theorem event_stores (ev : EventCode) (sc : Nat) (st : Stamp) (ws : List Word) (n : Node) :
    (n.event ev sc st ws).stores = n.stores := by
  rw [Node.stores, event_blocks, (event_sameBut ev sc st ws n).store, event_core]
  rfl

/-! ### The check -/

/-- R438: the judgement of the check failures of 1,000 cycles. -/
theorem judgeCrc_line (i : Bool) (n : Node) : (n.judgeCrc i).line =
    { n.line with failUp := recentFails n.line.cycle n.line.failUp, failDn := recentFails n.line.cycle n.line.failDn } := by
  unfold Node.judgeCrc
  extract_lets m most up dn
  have hm : m.line =
    { n.line with failUp := recentFails n.line.cycle n.line.failUp, failDn := recentFails n.line.cycle n.line.failDn } := rfl
  split
  · exact hm
  · split
    · rw [trip_line, hm]
    · rw [cease_line, hm]

theorem judgeCrc_stores (i : Bool) (n : Node) : (n.judgeCrc i).stores = n.stores := by
  unfold Node.judgeCrc
  extract_lets m most up dn
  have hm : m.stores = n.stores := rfl
  split
  · exact hm
  · split
    · exact (trip_part Node.stores (fun _ _ => rfl) _ _ _ _ _ m).trans hm
    · exact (cease_part Node.stores (fun _ _ => rfl) event_stores _ _ m).trans hm

/-- R248: a failed check is charged to the hop upstream of the frame. -/
def Node.chargeCrc (ret : Bool) (n : Node) : Node :=
  n.modLine fun l =>
    if ret then { l with crcDn := l.crcDn + 1, failDn := l.cycle :: l.failDn }
    else { l with crcUp := l.crcUp + 1, failUp := l.cycle :: l.failUp }

/-- Without a pitch point the check answers how the frame ended, and counts it so (R247 to R249). -/
theorem checkFrame_eq (h : FrameHdr) (ret : Bool) (n : Node) (hp : n.core.faults.points = []) :
    n.checkFrame h ret = match h.ending with
      | .good => (.good, if ret then n else n.modLine fun l => { l with framesOk := l.framesOk + 1 })
      | .badCrc => (.badCrc, (n.chargeCrc ret).judgeCrc false)
      | .other => (.other, n.modLine fun l => { l with corrupted := l.corrupted + 1 }) := by
  unfold Node.checkFrame
  simp only [injecting_of_none n _ _ hp, Bool.and_false, Bool.false_eq_true, if_false, and_false]
  cases h.ending <;> rfl

/-! ### Onward -/

theorem fwdHdr_of_roles {m n : Node} (h : FrameHdr) (ret : Bool) (e : FrameEnd) (hu : m.line.roleUp = n.line.roleUp)
    (hd : m.line.roleDn = n.line.roleDn) : m.fwdHdr h ret e = n.fwdHdr h ret e := by
  have hturns : m.turns h = n.turns h := by simp only [Node.turns, hu, hd]
  unfold Node.fwdHdr
  rw [hturns]

/-- R247, R248: whichever way a frame failed, it goes on ending /H/ /H/. -/
theorem fwdHdr_ending_other (n : Node) (h : FrameHdr) (ret : Bool) : (n.fwdHdr h ret .other).ending = .other := by
  unfold Node.fwdHdr
  dsimp only
  split
  · rfl
  · split <;> rfl

/-- The frames that go on where a frame's check failed: none where it returns to a heading node. -/
def Node.onward (h : FrameHdr) (ret : Bool) (typ : Byte) (bs : List Byte) (n : Node) : List TxFrame :=
  if ret && n.heading then [] else [{ typ := typ, hdr := n.fwdHdr h ret .other, payload := bs }]

section
variable {h : FrameHdr} {n : Node} (typ : Byte) (bs : List Byte) (f : Bool → Node → Node)

/-- R403, R405: a frame that the node does not take. -/
theorem receive_of_untaken (hd : n.frameDir h = none) : n.receive h typ bs f = n.send [] := by
  unfold Node.receive
  rw [hd]

/-- R247: a frame that was cut or ended /H/ /H/. -/
theorem receive_of_corrupted {ret : Bool} (hp : n.core.faults.points = []) (hd : n.frameDir h = some ret) (he : h.ending = .other) :
    n.receive h typ bs f = (n.modLine fun l => { l with corrupted := l.corrupted + 1 }).send (n.onward h ret typ bs) := by
  unfold Node.receive
  simp only [hd, checkFrame_eq h ret n hp, he]
  rfl

/-- R248: a frame whose CRC failed. -/
theorem receive_of_badCrc {ret : Bool} (hp : n.core.faults.points = []) (hd : n.frameDir h = some ret) (he : h.ending = .badCrc) :
    n.receive h typ bs f = ((n.chargeCrc ret).judgeCrc false).send (n.onward h ret typ bs) := by
  have hhdr : ((n.chargeCrc ret).judgeCrc false).fwdHdr h ret .badCrc = n.fwdHdr h ret .other := by
    refine Eq.trans (fwdHdr_of_roles h ret .badCrc ?_ ?_) rfl <;> rw [judgeCrc_line] <;> cases ret <;> rfl
  unfold Node.receive
  simp only [hd, checkFrame_eq h ret n hp, he, hhdr]
  rfl

/-- R246, R249: an outbound frame that passed its check. -/
theorem receive_of_good (hp : n.core.faults.points = []) (hd : n.frameDir h = some false) (he : h.ending = .good) :
    ∃ hdr, n.receive h typ bs f = f false
      (((n.modLine fun l => { l with framesOk := l.framesOk + 1 }).takeHeader h false).send [{ typ := typ, hdr := hdr, payload := bs }]) := by
  unfold Node.receive
  simp only [hd, checkFrame_eq h false n hp, he]
  exact ⟨_, rfl⟩

end

/-! ### The header of a frame that passed -/

/-- What the line side counts of the frames that passed, and what it holds of their headers. -/
def Line.passed (l : Line) : Nat × Nat × Nat × Option Nat := (l.unknown, l.framesOk, l.cycle, l.hops)

theorem hopMismatch_passed (n : Node) : n.hopMismatch.line.passed = n.line.passed := by
  unfold Node.hopMismatch
  split
  · rw [modLine_line, Node.mismatchEvent, event_line]
    rfl
  · rfl

/-- R405, R411: the cycle and the hop count of an outbound frame are taken. -/
theorem takeHeader_passed (h : FrameHdr) (n : Node) : (n.takeHeader h false).line.passed =
    (n.line.unknown, n.line.framesOk, h.cycle.toNat, some (min 1023 (h.hop.toNat + 1))) := by
  unfold Node.takeHeader
  extract_lets enters taken judged missed
  have hjudged : judged.line.passed = (n.line.unknown, n.line.framesOk, h.cycle.toNat, some (min 1023 (h.hop.toNat + 1))) := by
    rw [judgeCrc_line]
    rfl
  have hmissed : missed.line.passed = judged.line.passed := rfl
  split
  · split
    · rw [hopMismatch_passed, hmissed, hjudged]
    · rw [hmissed, hjudged]
  · exact hjudged

/-! ### The rows -/

/-- The rows of frames whose receipt is that of every frame, with the type each is sent on with. -/
def frameKinds (h : FrameHdr) (bs : List Byte) (typ : Byte) (t : Nat) : List (Instr × Byte) :=
  [(.cmdFrame h bs t, 0x03), (.mntUnfoldNotice h bs t, 0x05), (.mntImageBlock h bs t, 0x05), (.rcFrame h bs t, 0x04),
    (.rcReturn h bs t, 0x04), (.retFrame h bs t, 0x06), (.rollcallComplete h bs t, 0x04), (.unknownFrame typ h bs t, typ)]

/-- A row is the receipt of a frame by the cellar. -/
def receives (h : FrameHdr) (bs : List Byte) (t : Nat) (c : Instr × Byte) : Prop :=
  ∃ f, ∀ s, exec c.1 s = s.upd fun n => n.whenCellar fun n => (n.atT t).receive h c.2 bs f

theorem frameKinds_receive (h : FrameHdr) (bs : List Byte) (typ : Byte) (t : Nat) : ∀ c ∈ frameKinds h bs typ t, receives h bs t c := by
  simp only [frameKinds, List.forall_mem_cons]
  exact ⟨⟨_, fun _ => rfl⟩, ⟨_, fun _ => rfl⟩, ⟨_, fun _ => rfl⟩, ⟨_, fun _ => rfl⟩, ⟨_, fun _ => rfl⟩, ⟨_, fun _ => rfl⟩, ⟨_, fun _ => rfl⟩,
    ⟨_, fun _ => rfl⟩, fun _ hc => absurd hc List.not_mem_nil⟩

/-- R409: what a frame of an unlisted type that passed its check does besides going on. -/
def Node.unlistedPassed (ret : Bool) (n : Node) : Node :=
  let n := n.modLine fun l => { l with unknown := l.unknown + 1 }
  if ret && n.heading then n.send [] else n

section
variable {s : State} {h : FrameHdr} {bs : List Byte} {t : Nat} {c : Instr × Byte} (hv : s.node.power.vcel = true)
  (hc : s.node.power.cresetn = true)
include hv hc

theorem effect_frame_untaken (hr : receives h bs t c) (hd : (s.node.atT t).frameDir h = none) :
    Effect c.1 s fun m => m = (s.node.atT t).send [] := by
  obtain ⟨f, hrow⟩ := hr
  exact effect_read (hrow s) hv hc (receive_of_untaken _ _ f hd)

theorem effect_frame_corrupted {ret : Bool} (hr : receives h bs t c) (hp : s.node.core.faults.points = [])
    (hd : (s.node.atT t).frameDir h = some ret) (he : h.ending = .other) :
    Effect c.1 s fun m => m = ((s.node.atT t).modLine fun l => { l with corrupted := l.corrupted + 1 }).send
      ((s.node.atT t).onward h ret c.2 bs) := by
  obtain ⟨f, hrow⟩ := hr
  exact effect_read (hrow s) hv hc (receive_of_corrupted _ _ f hp hd he)

theorem effect_frame_badCrc {ret : Bool} (hr : receives h bs t c) (hp : s.node.core.faults.points = [])
    (hd : (s.node.atT t).frameDir h = some ret) (he : h.ending = .badCrc) :
    Effect c.1 s fun m => m.line.sent = (s.node.atT t).onward h ret c.2 bs ∧ m.stores = s.node.stores ∧
      m.line.crcUp = s.node.line.crcUp + (if ret then 0 else 1) ∧ m.line.crcDn = s.node.line.crcDn + (if ret then 1 else 0) := by
  obtain ⟨f, hrow⟩ := hr
  refine effect_read (hrow s) hv hc ?_
  rw [receive_of_badCrc (n := s.node.atT t) c.2 bs f hp hd he, Node.send, modLine_line, judgeCrc_line]
  refine ⟨rfl, judgeCrc_stores false _, ?_, ?_⟩ <;> cases ret <;> rfl

theorem effect_unknownFrame_good (typ : Byte) (hp : s.node.core.faults.points = []) (hd : (s.node.atT t).frameDir h = some false)
    (he : h.ending = .good) : Effect (.unknownFrame typ h bs t) s fun m =>
      m.line.passed = (s.node.line.unknown + 1, s.node.line.framesOk + 1, h.cycle.toNat, some (min 1023 (h.hop.toNat + 1))) ∧
        m.line.sent.map TxFrame.payload = [bs] := by
  have hrow : exec (.unknownFrame typ h bs t) s =
    s.upd fun n => n.whenCellar fun n => (n.atT t).receive h typ bs Node.unlistedPassed := rfl
  refine effect_read hrow hv hc ?_
  obtain ⟨hdr, hgood⟩ := receive_of_good (n := s.node.atT t) typ bs Node.unlistedPassed hp hd he
  have hpassed := takeHeader_passed h ((s.node.atT t).modLine fun l => { l with framesOk := l.framesOk + 1 })
  generalize ((s.node.atT t).modLine _).takeHeader h false = taken at hgood hpassed
  rw [hgood]
  simp only [Line.passed, Prod.mk.injEq] at hpassed ⊢
  obtain ⟨hunknown, hok, hcycle, hhops⟩ := hpassed
  exact ⟨⟨congrArg (· + 1) hunknown, hok, hcycle, hhops⟩, rfl⟩

end

/-- Settles O50: every listed row is one receipt, so what it does with a frame that the node does not take or whose check fails is proved
once for all of them. -/
theorem framesAreCheckedAndForwarded : Obligations.FramesAreCheckedAndForwarded := by
  intro s h bs typ t n hv hc hp
  refine ⟨fun c hk hd => effect_frame_untaken hv hc (frameKinds_receive h bs typ t c hk) hd, fun c hk ret hd =>
    ⟨fwdHdr_ending_other n h ret, fun he => effect_frame_corrupted hv hc (frameKinds_receive h bs typ t c hk) hp hd he, fun he => ?badCrc⟩,
    fun he hd => ?passed⟩
  case badCrc =>
    obtain ⟨m, hrow, hsent, hstores, hcrc⟩ := effect_frame_badCrc hv hc (frameKinds_receive h bs typ t c hk) hp hd he
    simp only [Node.stores, Prod.mk.injEq] at hstores
    obtain ⟨hblocks, hwrites, hpool⟩ := hstores
    exact ⟨m, hrow, hsent, hblocks, hwrites, hpool, hcrc⟩
  case passed =>
    obtain ⟨m, hrow, hpassed, hsent⟩ := effect_unknownFrame_good hv hc typ hp hd he
    simp only [Line.passed, Prod.mk.injEq] at hpassed
    obtain ⟨hunknown, hok, hcycle, hhops⟩ := hpassed
    exact ⟨m, hrow, hunknown, hok, hcycle, hhops, hsent⟩

end Sys2Proof.Machine
end

section
/-!
PROOFS. Latch entries and event windows (07_green_and_kilned.md R244, R245; 08_latch_hop_emulation.md R263): what a kilned step makes
readable, and how a window of 10 ms ends.
-/
namespace Sys2Proof.Machine

/-! ### Entries that become readable -/

/-- R245: what a kilned step, or the end of tracking, makes of a latch entry. -/
def Node.fillLatch (n : Node) (c : Ch) (e : LatchEntry) : LatchEntry :=
  let t := (n.core.fronts.get c).trk
  if e.readable then e
  else if !t.running then { e with group := .absent }
  else match t.kil with
    | some b =>
      if e.st.e < b.st.e then
        let a := t.kilBefore.getD b
        let x := interpolate (n.offset c) a b e.st.e
        { e with group := .value x.1 x.2 (spanCoast a b) b.st.mark }
      else e
    | none => e

/-- R263: the events of the entries leave the FIFO as the step made it. -/
theorem readyLatches_fifo (c : Ch) (n : Node) :
    ((n.readyLatches c).core.pos.get c).latch.fifo = (n.core.pos.get c).latch.fifo.map (n.fillLatch c) := by
  unfold Node.readyLatches
  dsimp only
  rw [eachOf_part Node.core _ fun e m => event_core _ _ _ _ m, Node.modPos, modCore_core, Quad.get_set_same]
  rfl

theorem fillLatch_stamp_seq (n : Node) (c : Ch) (e : LatchEntry) : (n.fillLatch c e).st = e.st ∧ (n.fillLatch c e).seq = e.seq := by
  unfold Node.fillLatch
  dsimp only
  split
  · exact ⟨rfl, rfl⟩
  · split
    · exact ⟨rfl, rfl⟩
    · split
      · split <;> exact ⟨rfl, rfl⟩
      · exact ⟨rfl, rfl⟩

theorem fillLatch_readable_of_stopped (n : Node) (c : Ch) (e : LatchEntry) (hr : (n.core.fronts.get c).trk.running = false) :
    (n.fillLatch c e).readable = true := by
  unfold Node.fillLatch
  dsimp only
  rw [hr]
  split
  · assumption
  · rfl

theorem fillLatch_readable_of_kilned (n : Node) (c : Ch) (e : LatchEntry) (b : Kil) (hk : (n.core.fronts.get c).trk.kil = some b)
    (hb : e.st.e < b.st.e) : (n.fillLatch c e).readable = true := by
  unfold Node.fillLatch
  simp only [hk, if_pos hb]
  split
  · assumption
  · split <;> rfl

theorem effect_latchEntryReady (s : State) (c : Ch) (t : Nat) (hup : s.node.up = true) :
    Effect (.latchEntryReady c t) s fun n =>
      (n.core.pos.get c).latch.fifo.map LatchEntry.seq = (s.node.core.pos.get c).latch.fifo.map LatchEntry.seq ∧
      ((s.node.core.fronts.get c).trk.running = false → ∀ e ∈ (n.core.pos.get c).latch.fifo, e.readable = true) ∧
      ∀ b, (s.node.core.fronts.get c).trk.kil = some b → ∀ e ∈ (n.core.pos.get c).latch.fifo, e.st.e < b.st.e → e.readable = true := by
  refine effect_of_up rfl hup ?_
  rw [readyLatches_fifo]
  refine ⟨?order, fun hr => ?stopped, fun b hk => ?kilned⟩
  case order =>
    rw [List.map_map]
    exact List.map_congr_left fun e _ => (fillLatch_stamp_seq (s.node.atT t) c e).2
  case stopped =>
    refine List.forall_mem_map.mpr fun e _ => ?_
    exact fillLatch_readable_of_stopped (s.node.atT t) c e hr
  case kilned =>
    refine List.forall_mem_map.mpr fun e _ hb => ?_
    rw [(fillLatch_stamp_seq (s.node.atT t) c e).1] at hb
    exact fillLatch_readable_of_kilned (s.node.atT t) c e b hk hb

/-! ### The ends of the windows -/

theorem refutedWindowEnd_empty {n : Node} {c : Ch} {w : EvWindow} (hw : (n.core.pos.get c).refuted = some w) (he : w.ends ≤ n.now)
    (h0 : w.count = 0) : ((n.refutedWindowEnd c).core.pos.get c).refuted = none := by
  simp [Node.refutedWindowEnd, hw, Nat.not_lt.mpr he, h0, Node.modPos]

/-- R244, R45: a refutation window that counted raises its event and opens anew. -/
theorem refutedWindowEnd_counted {n : Node} {c : Ch} {w : EvWindow} (hw : (n.core.pos.get c).refuted = some w) (he : w.ends ≤ n.now)
    (h0 : w.count ≠ 0) : (n.refutedWindowEnd c).core.refutedNow = true ∧
      ∃ v, ((n.refutedWindowEnd c).core.pos.get c).refuted = some v ∧ v.count = 0 ∧ v.ends = n.now + 10000000 := by
  simp [Node.refutedWindowEnd, hw, Nat.not_lt.mpr he, h0, Node.modPos, Node.refutedEvent]

theorem lostWindowEnd_empty {n : Node} {c : Ch} {w : EvWindow} (hw : (n.core.pos.get c).latchLost = some w) (he : w.ends ≤ n.now)
    (h0 : w.count = 0) : ((n.lostWindowEnd c).core.pos.get c).latchLost = none := by
  simp [Node.lostWindowEnd, hw, Nat.not_lt.mpr he, h0, Node.modPos]

/-- R244, R260: a window of lost captures that counted raises its event and opens anew. -/
theorem lostWindowEnd_counted {n : Node} {c : Ch} {w : EvWindow} (hw : (n.core.pos.get c).latchLost = some w) (he : w.ends ≤ n.now)
    (h0 : w.count ≠ 0) :
    ∃ v, ((n.lostWindowEnd c).core.pos.get c).latchLost = some v ∧ v.count = 0 ∧ v.ends = n.now + 10000000 := by
  simp [Node.lostWindowEnd, hw, Nat.not_lt.mpr he, h0, Node.modPos]

/-- R244, R436: the window of hop mismatches closes where it counted nothing, and otherwise opens anew. -/
theorem mismatchWindowEnd_window {n : Node} {e k lt : Nat} {mk : TimeMark} (hw : n.line.mismatchWindow = some (e, k, lt, mk))
    (he : e ≤ n.now) :
    n.mismatchWindowEnd.line.mismatchWindow = if k = 0 then none else some (n.now + 10000000, 0, lt, mk) := by
  simp only [Node.mismatchWindowEnd, hw, if_neg (Nat.not_lt.mpr he)]
  split <;> rfl

theorem exec_eventWindowEnd_refuted (c : Ch) (t : Nat) (s : State) : exec (.eventWindowEnd .refuted c t) s =
    s.upd fun n => n.whenCellar fun n => if (n.atT t).up then (n.atT t).refutedWindowEnd c else n.atT t := rfl

theorem exec_eventWindowEnd_latchLost (c : Ch) (t : Nat) (s : State) : exec (.eventWindowEnd .latchLost c t) s =
    s.upd fun n => n.whenCellar fun n => if (n.atT t).up then (n.atT t).lostWindowEnd c else n.atT t := rfl

/-- Settles O36: a step gives each entry its group in place, and a window's event leaves it to be opened anew. That the windows run in
elapsed time is log entry 77. -/
theorem entriesAndWindows : Obligations.EntriesAndWindows := by
  refine ⟨effect_latchEntryReady, fun s c t w hv hc hup he => ⟨fun hw => ?refuted, fun hw => ?latchLost⟩,
    fun s c t e k lt mk hv hc hw he => effect_read rfl hv hc (mismatchWindowEnd_window (n := s.node.atT t) hw he)⟩
  case refuted =>
    refine effect_read (exec_eventWindowEnd_refuted c t s) hv hc ?_
    rw [show (s.node.atT t).up = true from hup, if_pos rfl]
    exact ⟨refutedWindowEnd_empty (n := s.node.atT t) hw he, refutedWindowEnd_counted (n := s.node.atT t) hw he⟩
  case latchLost =>
    refine effect_read (exec_eventWindowEnd_latchLost c t s) hv hc ?_
    rw [show (s.node.atT t).up = true from hup, if_pos rfl]
    exact ⟨lostWindowEnd_empty (n := s.node.atT t) hw he, lostWindowEnd_counted (n := s.node.atT t) hw he⟩

end Sys2Proof.Machine
end

section
/-!
PROOFS. Wave runs (07_green_and_kilned.md R236; 10_analog_outputs.md R353 to R355, R358): samples that load and samples that are entered,
the start of a confirmed HOP run, and the end of a run.
-/
namespace Sys2Proof.Machine

/-! ### Playbacks -/

theorem playOf_of_plays {m n : Node} (slot : Nat) (h : m.core.waves.plays = n.core.waves.plays) : m.playOf slot = n.playOf slot := by
  rw [Node.playOf, Node.playOf, h]

/-- The playback of a slot after a change of it that leaves its slot. -/
theorem playOf_modPlay {n : Node} {slot : Nat} {q : Playback} {f : Playback → Playback} (hq : n.playOf slot = some q)
    (hf : ∀ x, (f x).slot = x.slot) : (n.modPlay q.op f).playOf slot = some (f q) := by
  have hslot : ((fun x : Playback => x.slot == slot) ∘ fun x => if x.op == q.op then f x else x) = fun x => x.slot == slot := by
    funext x
    rw [Function.comp_apply, apply_ite Playback.slot, hf, ite_self]
  unfold Node.playOf at hq
  unfold Node.playOf Node.modPlay
  rw [modWaves_core]
  dsimp only
  rw [List.find?_map, hslot, hq, Option.map_some, beq_self_eq_true, if_pos rfl]

/-! ### Outputs -/

/-- What each step of a list reaches for its own thing, and the others keep, holds of all of them at the end. -/
theorem eachOf_reaches {α : Type} (I : Node → Prop) (P : α → Node → Prop) (f : α → Node → Node) (hI : ∀ x m, I m → I (f x m))
    (hreach : ∀ x m, I m → P x (f x m)) (hkeep : ∀ x y m, I m → P x m → P x (f y m)) (xs : List α) (n : Node) (h : I n) :
    ∀ x ∈ xs, P x (eachOf xs f n) := by
  induction xs generalizing n with
  | nil => exact fun x hx => absurd hx List.not_mem_nil
  | cons y ys ih =>
    intro x hx
    rcases List.mem_cons.mp hx with rfl | hx
    · exact (eachOf_keeps (fun m => I m ∧ P x m) f ys (fun z _ m hm => ⟨hI z m hm.1, hkeep x z m hm.1 hm.2⟩) _
        ⟨hI x n h, hreach x n h⟩).2
    · exact ih _ (hI y n h) x hx

theorem modOut_same (c : Ch) (f : AOut → AOut) (n : Node) : (n.modOut c f).core.outs.get c = f (n.core.outs.get c) := by
  rw [modOut_core, Quad.get_set_same]

theorem modOut_other {c d : Ch} (f : AOut → AOut) (n : Node) (h : d ≠ c) : (n.modOut c f).core.outs.get d = n.core.outs.get d := by
  rw [modOut_core, Quad.get_set_other _ _ _ _ h]

/-- Whether an output may load rests on the causes that hold it, not on its codes. -/
theorem mayLoad_modOut (c d : Ch) (f : AOut → AOut) (n : Node)
    (hf : ∀ o, (f o).parked = o.parked ∧ (f o).cleared = o.cleared ∧ (f o).highZ = o.highZ) :
    (n.modOut c f).mayLoad d = n.mayLoad d := by
  obtain ⟨hparked, hcleared, hhighZ⟩ := hf (n.core.outs.get c)
  by_cases h : d = c
  · subst h
    simp only [Node.mayLoad, Node.rank3, Node.caskHolds, modOut_same, hparked, hcleared, hhighZ]
    rfl
  · simp only [Node.mayLoad, Node.rank3, Node.caskHolds, modOut_other f n h]
    rfl

/-! Samples that are entered -/

theorem waveEnter_waves (p : Playback) (j : Nat) (n : Node) : (n.waveEnter p j).core.waves = n.core.waves :=
  eachOf_part (fun m => m.core.waves) (fun c m => m.modOut c (writeInput (n.core.waves.sample p j))) (fun _ _ => rfl) p.outs n

/-- R339, R354: the sample is in the input register of every output of the playback. -/
theorem waveEnter_inreg (p : Playback) (j : Nat) (n : Node) :
    ∀ c ∈ p.outs, ((n.waveEnter p j).core.outs.get c).inreg = n.core.waves.sample p j := by
  refine eachOf_reaches (fun _ => True) (fun c m => (m.core.outs.get c).inreg = n.core.waves.sample p j) _ (fun _ _ _ => trivial)
    (fun c m _ => ?own) (fun c d m _ hc => ?other) p.outs n trivial
  case own => rw [modOut_same, writeInput]
  case other =>
    by_cases h : c = d
    · rw [h, modOut_same, writeInput]
    · rwa [modOut_other _ m h]

theorem waveEnter_code (p : Playback) (j : Nat) (n : Node) (c : Ch) :
    ((n.waveEnter p j).core.outs.get c).code = (n.core.outs.get c).code := by
  refine eachOf_part (fun m => (m.core.outs.get c).code) _ (fun d m => ?_) p.outs n
  by_cases h : c = d
  · rw [h, modOut_same, writeInput]
  · rw [modOut_other _ m h]

/-! Samples that load -/

theorem loadNow_mayLoad (c d : Ch) (code : BitVec 18) (n : Node) : (n.loadNow c code).mayLoad d = n.mayLoad d := by
  unfold Node.loadNow
  have hentered := mayLoad_modOut c d (writeInput code) n fun _ => ⟨rfl, rfl, rfl⟩
  dsimp only
  split
  · exact (mayLoad_modOut c d _ _ fun _ => by exact ⟨rfl, rfl, rfl⟩).trans hentered
  · exact hentered

theorem loadNow_waves (c : Ch) (code : BitVec 18) (n : Node) : (n.loadNow c code).core.waves = n.core.waves := by
  unfold Node.loadNow
  dsimp only
  split <;> rfl

/-- R353: the code is in the input register, and at the pin register where nothing holds that. -/
theorem loadNow_same (c : Ch) (code : BitVec 18) (n : Node) : ((n.loadNow c code).core.outs.get c).inreg = code ∧
    (n.mayLoad c = true → ((n.loadNow c code).core.outs.get c).code = code) := by
  unfold Node.loadNow
  dsimp only
  rw [mayLoad_modOut c c (writeInput code) n fun _ => ⟨rfl, rfl, rfl⟩]
  split
  · rw [modOut_same, modOut_same]
    exact ⟨rfl, fun _ => rfl⟩
  · rw [modOut_same]
    exact ⟨rfl, fun h => absurd h ‹_›⟩

theorem loadNow_other {c d : Ch} (code : BitVec 18) (n : Node) (h : d ≠ c) : (n.loadNow c code).core.outs.get d = n.core.outs.get d := by
  unfold Node.loadNow
  dsimp only
  split
  · rw [modOut_other _ _ h, modOut_other _ _ h]
  · rw [modOut_other _ _ h]

/-- R353: the code reaches every output of a list. -/
theorem eachOf_loadNow (cs : List Ch) (code : BitVec 18) (n : Node) :
    ∀ c ∈ cs, ((eachOf cs (fun c m => m.loadNow c code) n).core.outs.get c).inreg = code ∧
      (n.mayLoad c = true → ((eachOf cs (fun c m => m.loadNow c code) n).core.outs.get c).code = code) := by
  refine eachOf_reaches (fun m => ∀ d, m.mayLoad d = n.mayLoad d)
    (fun c m => (m.core.outs.get c).inreg = code ∧ (n.mayLoad c = true → (m.core.outs.get c).code = code)) _
    (fun c m hm d => (loadNow_mayLoad c d code m).trans (hm d)) (fun c m hm => ?own) (fun c d m hm hc => ?other) cs n fun _ => rfl
  case own =>
    rw [← hm c]
    exact loadNow_same c code m
  case other =>
    by_cases h : c = d
    · rw [h, ← hm d]
      exact loadNow_same d code m
    · rwa [loadNow_other code m h]

/-! ### The rows -/

/-- A row that acts on the playback of its slot at an instant. -/
theorem effect_of_play {c : Instr} {s : State} {slot t : Nat} {q : Playback} {f : Playback → Node → Node} {P : Node → Prop}
    (hrow : exec c s = s.upd fun n => n.whenUp fun n => ((n.atT t).playOf slot).elim (n.atT t) fun q => f q (n.atT t))
    (hup : s.node.up = true) (hq : s.node.playOf slot = some q) (h : P (f q (s.node.atT t))) : Effect c s P := by
  have hq' : (s.node.atT t).playOf slot = some q := hq
  refine effect_of_up hrow hup ?_
  rw [hq']
  exact h

/-- R353: what the load of a due sample is. -/
theorem loadSample_of_due {n : Node} {q : Playback} {i : Nat} (hi : q.timing = .schedule i) (hd : q.start + q.next * i ≤ n.now)
    (hl : n.sampleLeft q = true) :
    n.loadSample q = (eachOf q.outs (fun c m => m.loadNow c (n.core.waves.sample q q.next)) n).modPlay q.op fun x =>
      { x with running := true, next := q.next + 1, lastLoad := if q.outs.any n.mayLoad then n.stamp else x.lastLoad } := by
  have hdue : ¬ (n.now < q.start + q.next * i || !n.sampleLeft q) = true := by simpa [hl] using hd
  simp only [Node.loadSample, hi, if_neg hdue]

/-- R354: what the entry of a due sample is. -/
theorem enterSample_of_due {n : Node} {q : Playback} {d : Nat} (hd : q.timing = .tick d) (hr : q.running = true)
    (hk : kLe (q.k0 + q.next * d) n.time.k48 = true) (hl : n.sampleLeft q = true) :
    n.enterSample q = (n.waveEnter q q.next).modPlay q.op fun x => { x with next := q.next + 1, unloaded := q.outs } := by
  simp [Node.enterSample, hd, hr, hk, hl]

theorem effect_waveSampleLoad (s : State) (slot t i : Nat) (q : Playback) (hup : s.node.up = true) (hq : s.node.playOf slot = some q)
    (hi : q.timing = .schedule i) (hd : q.start + q.next * i ≤ (s.node.atT t).now) (hl : s.node.sampleLeft q = true) :
    Effect (.waveSampleLoad slot t) s fun m =>
      m.playOf slot = some { q with
        running := true, next := q.next + 1
        lastLoad := if q.outs.any s.node.mayLoad then (s.node.atT t).stamp else q.lastLoad } ∧
      ∀ c ∈ q.outs, (m.core.outs.get c).inreg = s.node.core.waves.sample q q.next ∧
        (s.node.mayLoad c = true → (m.core.outs.get c).code = s.node.core.waves.sample q q.next) := by
  refine effect_of_play (f := Node.loadSample) rfl hup hq ?_
  rw [loadSample_of_due (n := s.node.atT t) hi hd hl]
  have hplays := eachOf_part (fun m => m.core.waves) _
    (fun c m => loadNow_waves c ((s.node.atT t).core.waves.sample q q.next) m) q.outs (s.node.atT t)
  have hplay := (playOf_of_plays slot (congrArg Waves.plays hplays)).trans hq
  exact ⟨playOf_modPlay hplay fun _ => by rfl, eachOf_loadNow q.outs _ (s.node.atT t)⟩

theorem effect_waveSampleEntry (s : State) (slot d : Nat) (q : Playback) (hup : s.node.up = true) (hq : s.node.playOf slot = some q)
    (hd : q.timing = .tick d) (hr : q.running = true) (hk : kLe (q.k0 + q.next * d) s.node.time.k48 = true)
    (hl : s.node.sampleLeft q = true) :
    Effect (.waveSampleEntry slot) s fun m => m.playOf slot = some { q with next := q.next + 1, unloaded := q.outs } ∧
      ∀ c ∈ q.outs, (m.core.outs.get c).inreg = s.node.core.waves.sample q q.next ∧
        (m.core.outs.get c).code = (s.node.core.outs.get c).code := by
  have hplay := (playOf_of_plays slot (congrArg Waves.plays (waveEnter_waves q q.next s.node))).trans hq
  refine effect_of_up rfl hup ?_
  rw [hq, Option.elim_some, enterSample_of_due hd hr hk hl]
  exact ⟨playOf_modPlay hplay fun _ => by rfl, fun c hc => ⟨waveEnter_inreg q q.next s.node c hc, waveEnter_code q q.next s.node c⟩⟩

/-- R353, R354, R236: a run that starts is running, and no start of it is awaited any more. -/
theorem waveStart_playOf {n : Node} {slot : Nat} {q : Playback} (hq : n.playOf slot = some q) :
    ∃ x, (n.waveStart q).playOf slot = some x ∧ x.running = true ∧ x.startDue = false ∧ x.greenHop = none := by
  unfold Node.waveStart
  split
  · exact ⟨_, playOf_modPlay hq fun _ => rfl, rfl, rfl, rfl⟩
  · have hplay := (playOf_of_plays slot (congrArg Waves.plays (waveEnter_waves q 0 n))).trans hq
    exact ⟨_, playOf_modPlay hplay fun _ => rfl, rfl, rfl, rfl⟩

theorem effect_waveHopStart (s : State) (slot t : Nat) (q : Playback) (hup : s.node.up = true) (hq : s.node.playOf slot = some q)
    (hs : q.startDue = true) (hr : q.running = false) : Effect (.waveHopStart slot t) s fun m =>
      ∃ x, m.playOf slot = some x ∧ x.running = true ∧ x.startDue = false ∧ x.greenHop = none := by
  refine effect_of_play (f := Node.hopStart) rfl hup hq ?_
  have hstart : (q.startDue && !q.running) = true := by rw [hs, hr]; rfl
  rw [Node.hopStart, if_pos hstart]
  exact waveStart_playOf (n := s.node.atT t) hq

/-- R355: a run without a sample left, none of them still to be loaded, ends. -/
theorem endRun_of_done {n : Node} {q : Playback} (hr : q.running = true) (hu : q.unloaded = []) (hl : n.sampleLeft q = false) :
    n.endRun q = if q.rearm then (n.waveEnd q 0).modPlay q.op fun x => { x with running := false, next := 0, ignored := 0 }
      else n.endPlay q .done 1 := by
  simp [Node.endRun, hr, hu, hl]

theorem waveEnd_core (q : Playback) (r : Nat) (n : Node) : (n.waveEnd q r).core = n.core := event_core _ _ _ _ n

/-- R357: a playback that ends is gone, and the outputs keep their codes. -/
theorem endPlay_spec (q : Playback) (st : Status) (r : Nat) (n : Node) :
    (n.endPlay q st r).core.waves.plays = n.core.waves.plays.filter (fun x => x.op != q.op) ∧
      (n.endPlay q st r).core.outs = n.core.outs := by
  unfold Node.endPlay
  extract_lets gone
  have hbody := (endOrder_sameBut q.op st [] (gone.waveEnd q r)).core
  rw [waveEnd_core] at hbody
  have hplays := congrArg (fun k : Core => k.waves.plays) hbody
  have houts := congrArg Core.outs hbody
  exact ⟨hplays, houts⟩

theorem effect_waveRunEnd_rearm (s : State) (slot t : Nat) (q : Playback) (hup : s.node.up = true) (hq : s.node.playOf slot = some q)
    (hr : q.running = true) (hu : q.unloaded = []) (hl : s.node.sampleLeft q = false) (ha : q.rearm = true) :
    Effect (.waveRunEnd slot t) s fun m => m.playOf slot = some { q with running := false, next := 0, ignored := 0 } := by
  refine effect_of_play (f := Node.endRun) rfl hup hq ?_
  rw [endRun_of_done (n := s.node.atT t) hr hu hl, if_pos ha]
  have hplay := (playOf_of_plays slot (congrArg (fun k : Core => k.waves.plays) (waveEnd_core q 0 (s.node.atT t)))).trans hq
  exact playOf_modPlay hplay fun _ => rfl

theorem effect_waveRunEnd_last (s : State) (slot t : Nat) (q : Playback) (hup : s.node.up = true) (hq : s.node.playOf slot = some q)
    (hr : q.running = true) (hu : q.unloaded = []) (hl : s.node.sampleLeft q = false) (ha : q.rearm = false) :
    Effect (.waveRunEnd slot t) s fun m =>
      m.core.waves.plays = s.node.core.waves.plays.filter (fun x => x.op != q.op) ∧ m.core.outs = s.node.core.outs := by
  refine effect_of_play (f := Node.endRun) rfl hup hq ?_
  rw [endRun_of_done (n := s.node.atT t) hr hu hl, if_neg (by rw [ha]; exact Bool.false_ne_true)]
  exact endPlay_spec q .done 1 (s.node.atT t)

/-- Settles O42: a sample reaches each output of its playback and leaves the playback itself alone, so the playback found by its slot
afterwards is the one that the row found, changed. -/
theorem waveRuns : Obligations.WaveRuns := fun s slot t q hup hq =>
  ⟨fun i => effect_waveSampleLoad s slot t i q hup hq, fun d => effect_waveSampleEntry s slot d q hup hq,
    effect_waveHopStart s slot t q hup hq, fun hr hu hl =>
      ⟨effect_waveRunEnd_rearm s slot t q hup hq hr hu hl, effect_waveRunEnd_last s slot t q hup hq hr hu hl⟩⟩

end Sys2Proof.Machine
end

section
/-!
PROOFS. Output detectors (08_latch_hop_emulation.md R286; 10_analog_outputs.md R336, R364): the times of a current limit, of a lost
compliance and of a rail outside its limits, what their ends report, and an emulation that lags.
-/
namespace Sys2Proof.Machine

/-! ### What the fault manager leaves of the outputs -/

@[simp] theorem trip_outs (f : FaultCode) (cls sc : Nat) (x : Word) (i : Bool) (n : Node) :
    (n.trip f cls sc x i).core.outs = n.core.outs := trip_part (fun m => m.core.outs) (fun _ _ => rfl) f cls sc x i n

@[simp] theorem cease_outs (f : FaultCode) (sc : Nat) (n : Node) : (n.cease f sc).core.outs = n.core.outs :=
  cease_part (fun m => m.core.outs) (fun _ _ => rfl) (fun ev sc st ws n => congrArg Core.outs (event_core ev sc st ws n)) f sc n

theorem due_of_passed {n : Node} {d : Option Nat} {e : Nat} (hd : d = some e) (he : e ≤ n.now) : n.due d = true := by
  simpa [Node.due, hd] using he

/-! ### Current limit and compliance -/

/-- R364: the current limit of a voltage output is timed from its start. -/
theorem currentLimit_starts {c : Ch} {n : Node} (hv : rangeCurrent (n.parN Pid.dacRange c.val) = false) :
    (n.currentLimit c true).core.outs.get c = { n.core.outs.get c with
      currentLimit := true
      shortAt := (n.core.outs.get c).shortAt.or (some (n.now + n.parN Pid.dacShorttime c.val * 1000)) } := by
  simp only [Node.currentLimit, hv, Bool.false_eq_true, if_false, if_true, modOut_same]

/-- R364: its end stops the time. -/
theorem currentLimit_stops {c : Ch} {n : Node} (hv : rangeCurrent (n.parN Pid.dacRange c.val) = false) :
    (n.currentLimit c false).core.outs.get c = { n.core.outs.get c with currentLimit := false, shortAt := none } := by
  simp only [Node.currentLimit, hv, Bool.false_eq_true, if_false, cease_outs, modOut_same]

/-- R364: the lost compliance of a current output is timed from its start. -/
theorem compliance_starts {c : Ch} {n : Node} (hi : rangeCurrent (n.parN Pid.dacRange c.val) = true) :
    (n.compliance c true).core.outs.get c = { n.core.outs.get c with
      complianceLost := true
      openAt := (n.core.outs.get c).openAt.or (some (n.now + n.parN Pid.dacOpentime c.val * 1000000)) } := by
  simp only [Node.compliance, hi, Bool.not_true, Bool.false_eq_true, if_false, if_true, modOut_same]

/-- R364: compliance regained stops the time. -/
theorem compliance_stops {c : Ch} {n : Node} (hi : rangeCurrent (n.parN Pid.dacRange c.val) = true) :
    (n.compliance c false).core.outs.get c = { n.core.outs.get c with complianceLost := false, openAt := none } := by
  simp only [Node.compliance, hi, Bool.not_true, Bool.false_eq_true, if_false, cease_outs, modOut_same]

/-! ### Times that end -/

/-- R363, R364: with DAC.SHORTACT 1 the output is at high impedance. -/
theorem shortOff_same {c : Ch} {n : Node} (ha : n.parN Pid.dacShortact c.val = 1) :
    ((n.shortOff c).core.outs.get c).shortOff = true := by
  rw [Node.shortOff, if_pos ha, modOut_same]

/-- R364: the time of a current limit ends in F.DAC_SHORT. -/
theorem shortTimeout_spec {c : Ch} {n : Node} {e : Nat} (hd : (n.core.outs.get c).shortAt = some e) (he : e ≤ n.now) :
    (n.shortTimeout c).reported .dacShort c.val ∧
      (n.parN Pid.dacShortact c.val = 1 → ((n.shortTimeout c).core.outs.get c).shortOff = true) := by
  rw [Node.shortTimeout, if_pos (due_of_passed hd he), trip_outs]
  exact ⟨trip_reported _ _ _ _ _ _, fun ha => shortOff_same ha⟩

/-- R364: the time of a lost compliance ends in F.DAC_OPEN. -/
theorem openTimeout_spec {c : Ch} {n : Node} {e : Nat} (hd : (n.core.outs.get c).openAt = some e) (he : e ≤ n.now) :
    (n.openTimeout c).reported .dacOpen c.val := by
  rw [Node.openTimeout, if_pos (due_of_passed hd he)]
  exact trip_reported _ _ _ _ _ _

/-- R336: the 1 ms of a rail outside its limits ends in F.SUPPLY. -/
theorem supplyTimeout_spec {c : Ch} {n : Node} {e : Nat} (hd : (n.core.outs.get c).railAt = some e) (he : e ≤ n.now) :
    (n.supplyTimeout c).reported .supply c.val ∧ ((n.supplyTimeout c).core.outs.get c).railShort = true := by
  rw [Node.supplyTimeout, if_pos (due_of_passed hd he), trip_outs, modOut_same]
  exact ⟨trip_reported _ _ _ _ _ _, rfl⟩

/-- R286: an emulation that has lagged for 1 ms is reported. -/
theorem effect_emuRateTimeout (s : State) (c : Ch) (t e : Nat) (hup : s.node.up = true)
    (hl : (((s.node.atT t).emuFollow c).core.pos.get c).emu.lagSince = some e) (he : e + 1000000 ≤ (s.node.atT t).now) :
    Effect (.emuRateTimeout c t) s fun m => m.reported .emuRate c.val := by
  have hnow : ((s.node.atT t).emuFollow c).now = (s.node.atT t).now := by
    unfold Node.emuFollow
    dsimp only
    split <;> rfl
  refine effect_of_up rfl hup ?_
  simp only [hl, hnow, if_pos he]
  exact trip_reported _ _ _ _ _ _

/-! ### Rails -/

/-- What the judgement of a rail rests on: the rails, the working set and the time. -/
def Node.railGround (n : Node) : Power × ParamMem × TimeBase := (n.power, n.core.params, n.time)

theorem event_railGround (ev : EventCode) (sc : Nat) (st : Stamp) (ws : List Word) (n : Node) :
    (n.event ev sc st ws).railGround = n.railGround := by
  simp only [Node.railGround, event_core, event_power, (event_sameBut ev sc st ws n).time]

theorem judgeRail_railGround (c : Ch) (n : Node) : (n.judgeRail c).railGround = n.railGround := by
  unfold Node.judgeRail
  split
  · exact cease_part Node.railGround (fun _ _ => rfl) event_railGround _ _ _
  · rfl

/-- R336: until when an output's rails may stay outside its limits, from what that was before. -/
def railEnds (g : Power × ParamMem × TimeBase) (c : Ch) (old : Option Nat) : Option Nat :=
  if railsOk g.1.avddh g.1.avss (g.2.1.nat Pid.dacRange c.val) then none else old.or (some (g.2.2.p0e + g.2.2.dt + 1000000))

theorem judgeRail_same (c : Ch) (n : Node) :
    ((n.judgeRail c).core.outs.get c).railAt = railEnds n.railGround c (n.core.outs.get c).railAt := by
  unfold Node.judgeRail railEnds Node.railGround Node.parN Node.now
  split
  · rw [cease_outs, modOut_same]
  · rw [modOut_same]

theorem judgeRail_other {c d : Ch} (n : Node) (h : d ≠ c) : (n.judgeRail c).core.outs.get d = n.core.outs.get d := by
  unfold Node.judgeRail
  split
  · rw [cease_outs, modOut_other _ _ h]
  · rw [modOut_other _ _ h]

/-- Where each channel's change acts on that channel's part alone, all four act on it as one. -/
theorem eachCh_own {β : Type} (g : Ch → Node → β) (I : Node → Prop) (F : Ch → β → β) (f : Ch → Node → Node)
    (hI : ∀ c m, I m → I (f c m)) (hown : ∀ c m, I m → g c (f c m) = F c (g c m))
    (hother : ∀ c d m, d ≠ c → g d (f c m) = g d m) (n : Node) (h : I n) (c : Ch) : g c (eachCh f n) = F c (g c n) := by
  have h1 := hI 0 _ h
  have h2 := hI 1 _ h1
  have h3 := hI 2 _ h2
  unfold eachCh
  match c with
  | 0 => rw [hother 3 0 _ (by decide), hother 2 0 _ (by decide), hother 1 0 _ (by decide), hown 0 _ h]
  | 1 => rw [hother 3 1 _ (by decide), hother 2 1 _ (by decide), hown 1 _ h1, hother 0 1 _ (by decide)]
  | 2 => rw [hother 3 2 _ (by decide), hown 2 _ h2, hother 1 2 _ (by decide), hother 0 2 _ (by decide)]
  | 3 => rw [hown 3 _ h3, hother 2 3 _ (by decide), hother 1 3 _ (by decide), hother 0 3 _ (by decide)]

/-- R336: the rails are judged for each output's own range. -/
theorem judgeRails_railAt (n : Node) (c : Ch) :
    ((eachCh Node.judgeRail n).core.outs.get c).railAt = railEnds n.railGround c (n.core.outs.get c).railAt :=
  eachCh_own (fun c m => (m.core.outs.get c).railAt) (fun m => m.railGround = n.railGround) (railEnds n.railGround) Node.judgeRail
    (fun c m h => (judgeRail_railGround c m).trans h)
    (fun c m h => (judgeRail_same c m).trans (by rw [h]))
    (fun _ _ m h => congrArg AOut.railAt (judgeRail_other m h)) n rfl c

/-- The node at an instant with new rails (R336). -/
def Node.railsAt (avddh avss : Int) (t : Nat) (n : Node) : Node :=
  { n with power := { n.power with avddh := avddh, avss := avss } }.atT t

theorem exec_railLimitCrossing (a b : Int) (t : Nat) (s : State) : exec (.railLimitCrossing a b t) s =
    s.upd fun n => n.whenCellar fun n => if (n.railsAt a b t).up then eachCh Node.judgeRail (n.railsAt a b t) else n.railsAt a b t := rfl

theorem effect_railLimitCrossing (s : State) (a b : Int) (t : Nat) (hv : s.node.power.vcel = true)
    (hc : s.node.power.cresetn = true) (hup : s.node.up = true) :
    Effect (.railLimitCrossing a b t) s fun m => m.power.avddh = a ∧ m.power.avss = b ∧ ∀ c : Ch,
      (m.core.outs.get c).railAt = if railsOk a b (s.node.parN Pid.dacRange c.val) then none
        else (s.node.core.outs.get c).railAt.or (some ((s.node.atT t).now + 1000000)) := by
  refine effect_read (exec_railLimitCrossing a b t s) hv hc ?_
  have hup' : (s.node.railsAt a b t).up = true := hup
  have hpower := congrArg Prod.fst (eachCh_part Node.railGround Node.judgeRail judgeRail_railGround (s.node.railsAt a b t))
  rw [if_pos hup']
  exact ⟨congrArg Power.avddh hpower, congrArg Power.avss hpower, judgeRails_railAt (s.node.railsAt a b t)⟩

/-- Settles O40: a timed condition starts its time once and its end takes the time away; each timeout reports its fault, which touches
no output; and a rail is judged for the range of its own output. -/
theorem outputDetectors : Obligations.OutputDetectors := by
  refine ⟨fun s c t hup => ⟨fun hv => ⟨effect_of_up rfl hup ?limited, effect_of_up rfl hup ?free⟩,
    fun hi => ⟨effect_of_up rfl hup ?lost, effect_of_up rfl hup ?regained⟩,
    fun e he => ⟨fun hd => effect_of_up rfl hup (shortTimeout_spec (n := s.node.atT t) hd he),
      fun hd => effect_of_up rfl hup (openTimeout_spec (n := s.node.atT t) hd he),
      fun hd => effect_of_up rfl hup (supplyTimeout_spec (n := s.node.atT t) hd he)⟩,
    fun e hl he => effect_emuRateTimeout s c t e hup hl he⟩, effect_railLimitCrossing⟩
  case limited =>
    rw [currentLimit_starts (n := s.node.atT t) hv]
    exact ⟨rfl, rfl⟩
  case free =>
    rw [currentLimit_stops (n := s.node.atT t) hv]
    exact ⟨rfl, rfl⟩
  case lost =>
    rw [compliance_starts (n := s.node.atT t) hi]
    exact ⟨rfl, rfl⟩
  case regained =>
    rw [compliance_stops (n := s.node.atT t) hi]
    exact ⟨rfl, rfl⟩

end Sys2Proof.Machine
end

section
/-!
PROOFS. Commands on hop entries (08_latch_hop_emulation.md R272 to R274, R282, R283): HOP_ADD arms all its entries or none, HOP_REMOVE
takes out exactly those named, and HOP_LIST only reads.
-/
namespace Sys2Proof.Machine

/-! ### Commands that answer at their commit -/

/-- A command that answers at its commit and leaves what replies rest on alone sends its reply behind what its arrival sent. -/
theorem packetRow_replies {f : PoolOp → Node → Ans × Node} {p : Packet} {n m : Node} {st : Status} {ch : List (List Word)}
    (h : n.runsNow p = true) (hf : f (n.opFrom p) (n.atCommit p) = (.final st ch false, m))
    (hg : m.replyGround = (n.atCommit p).replyGround) : n.replies p st ch (n.packetRow f p) := by
  have hpool : m.core.pool = (n.atCommit p).core.pool := congrArg Prod.fst hg
  have htime : m.time = n.time := (congrArg (fun g => g.2.1) hg).trans (atCommit_spec p n h).2.1
  have hsent : m.sentTo (senderOf p) = (n.atCommit p).sentTo (senderOf p) := congrArg (fun g => g.2.2 (senderOf p)) hg
  rw [packetRow_final f p n m h st ch false hf hpool, Node.replies, finish_sentTo, if_pos rfl, dropOp_sentTo, hsent,
    Node.finalReply, Node.tick16, Node.tick16, htime]

/-- The hop entries after a command that runs now are those that its effect leaves. -/
theorem packetRow_hops (f : PoolOp → Node → Ans × Node) {p : Packet} {n : Node} (h : n.runsNow p = true) :
    (n.packetRow f p).core.hops = (f (n.opFrom p) (n.atCommit p)).2.core.hops := by
  have hbody := congrArg Core.hops (packetRow_sameBut f p n h).core
  exact hbody

theorem atCommit_hops {p : Packet} {n : Node} (h : n.runsNow p = true) : (n.atCommit p).core.hops = n.core.hops :=
  atCommit_reads (fun n => n.core.hops) (fun _ => rfl) p n h

/-! ### HOP_ADD -/

/-- What a descriptor of HOP_ADD resolves to (R274). -/
def Node.resolveEntry (n : Node) (c : Ch) (e : Word × Word × Word × Word) : Option (Int × Bool) :=
  n.resolveHop c e.1 e.2.2.1 e.2.2.2

/-- An entry is the one that a descriptor arms for a client (R273, R274, R281). -/
def Node.Arms (n : Node) (c : Ch) (cl : Client) (h : HopEntry) (e : Word × Word × Word × Word) : Prop :=
  n.resolveEntry c e = some (h.target, h.behind) ∧ h.ch = c ∧ h.client = cl ∧ h.w1 = e.2.1 ∧ h.w2 = e.2.2.1 ∧ h.w3 = e.2.2.2 ∧
    h.crossed = none ∧ h.expiry = if fld e.2.2.2 23 0 = 0 then none else some (n.time.p0e + fld e.2.2.2 23 0 * 1000000)

/-- The node with these hop entries, and with these uses of the slots. -/
def Node.setHops (hops : List HopEntry) (us : List (Nat × Nat)) (n : Node) : Node :=
  n.modCore fun k => { k with hops := hops, slotUses := us }

theorem setHops_self (n : Node) : n.setHops n.core.hops n.core.slotUses = n := rfl

/-- The node with entries armed behind those it has, and with the uses of their slots. -/
def Node.withHops (hs : List HopEntry) (us : List (Nat × Nat)) (n : Node) : Node := n.setHops (n.core.hops ++ hs) us

/-- Lists of one length whose members at equal places are related. -/
def Matched {α β : Type} (R : α → β → Prop) (xs : List α) (ys : List β) : Prop :=
  xs.length = ys.length ∧ ∀ (i : Nat) (x : α) (y : β), xs[i]? = some x → ys[i]? = some y → R x y

theorem matched_nil {α β : Type} (R : α → β → Prop) : Matched R [] [] := ⟨rfl, fun _ _ _ hx => nomatch hx⟩

theorem Matched.cons {α β : Type} {R : α → β → Prop} {x : α} {y : β} {xs : List α} {ys : List β} (hxy : R x y)
    (h : Matched R xs ys) : Matched R (x :: xs) (y :: ys) := by
  obtain ⟨hlen, hall⟩ := h
  refine ⟨congrArg (· + 1) hlen, fun i a b ha hb => ?_⟩
  cases i with
  | zero =>
    obtain rfl : x = a := Option.some.inj ha
    obtain rfl : y = b := Option.some.inj hb
    exact hxy
  | succ i => exact hall i a b ha hb

theorem withHops_nil (n : Node) : n.withHops [] n.core.slotUses = n := by
  rw [Node.withHops, List.append_nil, setHops_self]

theorem withHops_withHops (hs ks : List HopEntry) (us vs : List (Nat × Nat)) (n : Node) :
    (n.withHops hs us).withHops ks vs = n.withHops (hs ++ ks) vs :=
  congrArg (fun hops => n.setHops hops vs) (List.append_assoc n.core.hops hs ks)

/-- R273: the entries of resolved descriptors are armed in order, and their handle words gathered. -/
theorem armHops_spec (op : PoolOp) (c : Ch) (n : Node) (es : List (Word × Word × Word × Word))
    (hr : ∀ e ∈ es, (n.resolveEntry c e).isSome = true) (m : Node) (htime : m.time = n.time) :
    ∃ hs us, m.armHops op c (es.zip ((es.map (n.resolveEntry c)).filterMap id)) = (hs.map HopEntry.word, m.withHops hs us) ∧
      Matched (n.Arms c op.client) hs es := by
  induction es generalizing m with
  | nil => exact ⟨[], m.core.slotUses, congrArg (Prod.mk []) (withHops_nil m).symm, matched_nil _⟩
  | cons e es ih =>
    obtain ⟨t, ht⟩ := Option.isSome_iff_exists.mp (hr e List.mem_cons_self)
    have hts : ((e :: es).map (n.resolveEntry c)).filterMap id = t :: (es.map (n.resolveEntry c)).filterMap id := by
      rw [List.map_cons, ht]
      rfl
    let armed := m.armHop op c t.1 t.2 e.2.1 e.2.2.1 e.2.2.2
    obtain ⟨hs, us, hrest, harms⟩ := ih (fun x hx => hr x (List.mem_cons_of_mem _ hx)) armed.2 htime
    refine ⟨armed.1 :: hs, us, ?_, .cons ⟨ht, rfl, rfl, rfl, rfl, rfl, rfl, by rw [← htime]; rfl⟩ harms⟩
    have hnode : armed.2.withHops hs us = m.withHops (armed.1 :: hs) us := withHops_withHops [armed.1] hs _ us m
    rw [hts, List.zip_cons_cons, ← hnode]
    exact congrArg (fun r => (armed.1.word :: r.1, r.2)) hrest

theorem cmdHopAdd_eq (op : PoolOp) (n : Node) : cmdHopAdd op n =
    let es := hopWords op.packet.words
    let ts := es.map (n.resolveEntry (n.chan op.packet))
    if ts.any Option.isNone then (.fail .outOfRange, n)
    else (.ok (n.armHops op (n.chan op.packet) (es.zip (ts.filterMap id))).1,
      (n.armHops op (n.chan op.packet) (es.zip (ts.filterMap id))).2) := rfl

/-- R273: with every descriptor resolved, HOP_ADD arms them all. -/
theorem cmdHopAdd_of_resolved (op : PoolOp) (n : Node)
    (h : ∀ e ∈ hopWords op.packet.words, (n.resolveEntry (n.chan op.packet) e).isSome = true) :
    ∃ hs us, cmdHopAdd op n = (.ok (hs.map HopEntry.word), n.withHops hs us) ∧
      Matched (n.Arms (n.chan op.packet) op.client) hs (hopWords op.packet.words) := by
  obtain ⟨hs, us, harm, harms⟩ := armHops_spec op (n.chan op.packet) n _ h n rfl
  have hall : ¬ ((hopWords op.packet.words).map (n.resolveEntry (n.chan op.packet))).any Option.isNone = true := by
    rw [Bool.not_eq_true, List.any_map, List.any_eq_false]
    exact fun e he hnone => Option.isSome_iff_ne_none.mp (h e he) (Option.isNone_iff_eq_none.mp hnone)
  refine ⟨hs, us, ?_, harms⟩
  rw [cmdHopAdd_eq]
  dsimp only
  rw [if_neg hall, harm]

/-- R273: with one descriptor not resolved, HOP_ADD arms none. -/
theorem cmdHopAdd_of_unresolved (op : PoolOp) (n : Node)
    (h : ∃ e ∈ hopWords op.packet.words, n.resolveEntry (n.chan op.packet) e = none) :
    cmdHopAdd op n = (.fail .outOfRange, n) := by
  have hany : ((hopWords op.packet.words).map (n.resolveEntry (n.chan op.packet))).any Option.isNone = true := by
    simpa using h
  rw [cmdHopAdd_eq]
  exact if_pos hany

theorem effect_hopAdd (s : State) (p : Packet) (h : s.node.runsNow (asRow .hopAdd p) = true)
    (hr : ∀ e ∈ hopWords p.words, (s.node.resolveEntry (s.node.chan (asRow .hopAdd p)) e).isSome = true) :
    Effect (.hopAdd p) s fun m => ∃ hs : List HopEntry, m.core.hops = s.node.core.hops ++ hs ∧
      s.node.replies (asRow .hopAdd p) .done [hs.map HopEntry.word] m ∧
      Matched (s.node.Arms (s.node.chan (asRow .hopAdd p)) (senderOf p)) hs (hopWords p.words) := by
  obtain ⟨_, hrun⟩ := runsNow_spec _ _ h
  have hchan := atCommit_reads (fun n => n.chan (asRow .hopAdd p)) (fun _ => rfl) _ s.node h
  have hresolve := atCommit_reads Node.resolveEntry (fun _ => rfl) _ s.node h
  have harms := atCommit_reads Node.Arms (fun _ => rfl) _ s.node h
  obtain ⟨hs, us, hcmd, hes⟩ := cmdHopAdd_of_resolved (s.node.opFrom (asRow .hopAdd p)) (s.node.atCommit (asRow .hopAdd p))
    (by rwa [hrun.packet, hchan, hresolve])
  rw [hrun.packet, hrun.client, hchan, harms] at hes
  refine ⟨_, rfl, hs, ?_, packetRow_replies h hcmd rfl, hes⟩
  rw [packetRow_hops cmdHopAdd h, hcmd, ← atCommit_hops h]
  rfl

theorem effect_hopAdd_unresolved (s : State) (p : Packet) (h : s.node.runsNow (asRow .hopAdd p) = true)
    (hr : ∃ e ∈ hopWords p.words, s.node.resolveEntry (s.node.chan (asRow .hopAdd p)) e = none) :
    Effect (.hopAdd p) s (s.node.answersWith (asRow .hopAdd p) .outOfRange [[]] false) := by
  obtain ⟨_, hrun⟩ := runsNow_spec _ _ h
  have hchan := atCommit_reads (fun n => n.chan (asRow .hopAdd p)) (fun _ => rfl) _ s.node h
  have hresolve := atCommit_reads Node.resolveEntry (fun _ => rfl) _ s.node h
  exact ⟨_, rfl, answersWith_reader cmdHopAdd _ s.node h _ _ _
    (cmdHopAdd_of_unresolved _ _ (by rwa [hrun.packet, hchan, hresolve])) (notAccepted _ _ _ h (opcodeOf_asRow _ _) rfl)⟩

/-! ### HOP_REMOVE -/

/-- The node without the entries that satisfy `f`. -/
def Node.withoutHops (f : HopEntry → Bool) (n : Node) : Node := n.setHops (n.core.hops.filter fun h => !f h) n.core.slotUses

theorem withoutHops_none (n : Node) : (n.withoutHops fun _ => false) = n :=
  congrArg (fun hops => n.setHops hops n.core.slotUses) (List.filter_eq_self.mpr fun _ _ => rfl)

theorem withoutHops_withoutHops (f g : HopEntry → Bool) (n : Node) :
    (n.withoutHops f).withoutHops g = n.withoutHops fun h => f h || g h := by
  have hboth : ((n.core.hops.filter fun h => !f h).filter fun h => !g h) = n.core.hops.filter fun h => !(f h || g h) := by
    rw [List.filter_filter]
    exact List.filter_congr fun h _ => by rw [Bool.not_or, Bool.and_comm]
  exact congrArg (fun hops => n.setHops hops n.core.slotUses) hboth

/-- R282: removing handles one after the other takes out the entries that bear one of them. -/
theorem removeHandles_node (ws : List Word) (n : Node) :
    (n.removeHandles ws).2 = n.withoutHops fun h => ws.any fun w => h.handle == fld w 23 0 := by
  induction ws generalizing n with
  | nil => exact (withoutHops_none n).symm
  | cons w ws ih =>
    have hrest := ih (n.withoutHops fun h => h.handle == fld w 23 0)
    rw [withoutHops_withoutHops] at hrest
    exact hrest

theorem opcodeOf_hopRemove (k : Nat) (p : Packet) : opcodeOf (withBits 0 2 k (asRow .hopRemove p)) = some .hopRemove := by
  rw [opcodeOf_withBits, opcodeOf_asRow]

/-- The word of a HOP_REMOVE that runs now names the operation of its row (R282). -/
theorem hopRemove_fld {k : Nat} (hk : k < 4) {p : Packet} {n : Node} (h : n.runsNow (withBits 0 2 k (asRow .hopRemove p)) = true) :
    fld (pw (withBits 0 2 k (asRow .hopRemove p)) 0) 1 0 = k := by
  have hfit := runsNow_wordsFit _ n .hopRemove h (opcodeOf_hopRemove k p)
  have hne : p.words ≠ [] := fun he => by simp [wordsFit, withBits, he, pw, fld] at hfit
  exact withBits_fld 0 1 k (asRow .hopRemove p) hne hk (by decide)

/-- The output that a HOP_REMOVE names stands beside the bits of the operation (R282). -/
theorem withBits_fld_output {v : Nat} (hv : v < 4) (p : Packet) : fld (pw (withBits 0 2 v p) 0) 4 2 = fld (pw p 0) 4 2 := by
  unfold withBits
  split
  · rfl
  · rename_i x xs hws
    have hx := x.isLt
    simp only [pw, hws, List.getD_cons_zero, fld, wN, BitVec.toNat_ofNat, Nat.shiftRight_eq_div_pow]
    omega

/-- R282: HOP_REMOVE by handle leaves the entries that bear none of its handles. -/
theorem hopRemove_byHandle {q : Packet} {n : Node} (h : n.runsNow q = true) (hk : fld (pw q 0) 1 0 = 0) :
    (n.packetRow cmdHopRemove q).core.hops =
      n.core.hops.filter fun x => !((q.words.drop 1).any fun w => x.handle == fld w 23 0) := by
  obtain ⟨_, hr⟩ := runsNow_spec q n h
  rw [packetRow_hops cmdHopRemove h, ← atCommit_hops h]
  simp only [cmdHopRemove, hr.packet, hk, removeHandles_node]
  rfl

/-- The entries that satisfy `f` are taken out, and their number is the reply (R282). -/
def Node.takesOut (q : Packet) (f : HopEntry → Bool) (n m : Node) : Prop :=
  m.core.hops = n.core.hops.filter (fun h => !f h) ∧ n.replies q .done [[wN (n.core.hops.filter f).length]] m

/-- A HOP_REMOVE that names its entries by a property takes them out. -/
theorem hopRemove_takesOut {q : Packet} {n : Node} {f : HopEntry → Bool} (h : n.runsNow q = true)
    (hcmd : cmdHopRemove (n.opFrom q) (n.atCommit q) =
      (.ok [wN ((n.atCommit q).removeHops f).1], ((n.atCommit q).removeHops f).2)) :
    n.takesOut q f (n.packetRow cmdHopRemove q) := by
  rw [Node.takesOut, packetRow_hops cmdHopRemove h, hcmd, ← atCommit_hops h]
  exact ⟨rfl, packetRow_replies h hcmd rfl⟩

theorem hopRemove_byChannel {q : Packet} {n : Node} (h : n.runsNow q = true) (hk : fld (pw q 0) 1 0 = 1) :
    n.takesOut q (fun x => (n.chans q).contains x.ch) (n.packetRow cmdHopRemove q) := by
  obtain ⟨_, hr⟩ := runsNow_spec q n h
  have hchans := atCommit_reads (fun n => n.chans q) (fun _ => rfl) q n h
  refine hopRemove_takesOut h ?_
  simp only [cmdHopRemove, hr.packet, hk, hchans]

theorem hopRemove_byOutput {q : Packet} {n : Node} (h : n.runsNow q = true) (hk : fld (pw q 0) 1 0 = 2) :
    n.takesOut q (fun x => (n.chans q).contains x.ch && x.output == fld (pw q 0) 4 2) (n.packetRow cmdHopRemove q) := by
  obtain ⟨_, hr⟩ := runsNow_spec q n h
  have hchans := atCommit_reads (fun n => n.chans q) (fun _ => rfl) q n h
  refine hopRemove_takesOut h ?_
  simp only [cmdHopRemove, hr.packet, hk, hchans]

/-! ### HOP_LIST -/

/-- The entries of a channel in the order of their targets (R283). -/
def Node.hopsOf (n : Node) (c : Ch) : List HopEntry :=
  (n.core.hops.filter fun h => h.ch == c).foldl (fun a h => insertHop (n.core.fronts.get c).trk.dir h a) []

/-- The words of HOP_LIST, in packets of 50 entries (R283). -/
def Node.hopListWords (n : Node) (c : Ch) : List (List Word) :=
  (chunksOf 50 (n.hopsOf c).length (n.hopsOf c)).map fun xs => xs.flatMap fun h => [h.word, n.p40 c h.target, h.w1, h.w2, h.w3]

theorem effect_hopList (s : State) (p : Packet) (h : s.node.runsNow (asRow .hopList p) = true) :
    Effect (.hopList p) s (s.node.answersWith (asRow .hopList p) .done (s.node.hopListWords (s.node.chan (asRow .hopList p))) false) := by
  obtain ⟨_, hr⟩ := runsNow_spec _ _ h
  have hwords := atCommit_reads (fun n => n.hopListWords (n.chan (asRow .hopList p))) (fun _ => rfl) _ s.node h
  refine ⟨_, rfl, answersWith_reader cmdHopList _ s.node h _ _ _ ?_ (notAccepted _ _ _ h (opcodeOf_asRow _ _) rfl)⟩
  rw [← hwords, cmdHopList, hr.packet]
  rfl

/-- Settles O37: what the descriptors resolve to reads the same at the commit as before the packet, each entry armed carries its
descriptor's resolution, and the entries removed are counted as they are filtered out. That a target outside a modulo axis is judged at the
commit is log entry 52. -/
theorem hopCommands : Obligations.HopCommands := by
  refine ⟨fun s p h => ⟨fun hr => ?armed, fun hr => effect_hopAdd_unresolved s p h hr⟩,
    fun s p => ⟨fun h => ⟨_, rfl, ?byHandle⟩, fun h => ⟨_, rfl, ?byChannel⟩, fun h => ⟨_, rfl, ?byOutput⟩⟩, effect_hopList⟩
  case armed =>
    obtain ⟨m, hrow, hs, hhops, hreply, hlen, harms⟩ := effect_hopAdd s p h hr
    exact ⟨m, hrow, hs, hhops, hlen, hreply, harms⟩
  case byHandle =>
    have hdrop : (withBits 0 2 0 (asRow .hopRemove p)).words.drop 1 = p.words.drop 1 := withBits_drop 0 2 0 (asRow .hopRemove p) 0
    rw [← hdrop]
    exact hopRemove_byHandle h (hopRemove_fld (by decide) h)
  case byChannel => exact hopRemove_byChannel h (hopRemove_fld (by decide) h)
  case byOutput =>
    rw [← asRow_pw .hopRemove p 0, ← withBits_fld_output (v := 2) (by decide) (asRow .hopRemove p)]
    exact hopRemove_byOutput h (hopRemove_fld (by decide) h)

end Sys2Proof.Machine
end

section
/-!
PROOFS. Moves that start (00_scope.md R7, R8; 09_control_engine.md R312 to R319).
-/
namespace Sys2Proof.Machine

/-! ### A MOVE_BY past half the period of P40 -/

/-- R316, R317: on an axis of both directions a MOVE_BY goes to its target, whatever lies ahead. -/
theorem judgeMoveBy_goes (n : Node) (c : Ch) (w : Word) (h : n.parN Pid.prfOneway c.val = 0) :
    ∃ segs target beyond, n.judgeMoveBy c w = .go segs target beyond := by
  unfold Node.judgeMoveBy judgeLinear
  rw [h]
  dsimp only
  split
  · exact ⟨_, _, _, rfl⟩
  · split <;> exact ⟨_, _, _, rfl⟩

/-- The node of `shiftSubscribed` in DRIVE, where channel 2 runs a position loop whose move has 2^39 − 5000 au left to go. -/
def halfwayRound : State :=
  let n := shiftSubscribed.node
  let t := auToFx (300 + (2 ^ 39 - 5000))
  { pending := []
    node := { n with
      core := { n.core with
        mode := .drive, nextOrder := 4
        params := n.core.params.put (pidAt Pid.ctlKind 2) 1
        slots := n.core.slots.set 2
          { enabled := true, owner := some 7, sp := { p := auToFx 300 }, active := some (3, .move), target := some t
            planEnd := .target t } } } }

theorem halfwayRound_runsNow : halfwayRound.node.runsNow (asRow .moveBy wordOf5000) = true := by decide +kernel

theorem halfwayRound_chan : halfwayRound.node.chan (asRow .moveBy wordOf5000) = 2 := by decide +kernel

theorem halfwayRound_otherCommand : ∀ a, (halfwayRound.node.core.slots.get 2).active = some a →
    a.1 ≠ (halfwayRound.node.opFrom (asRow .moveBy wordOf5000)).order := by
  intro a ha
  have horder : (halfwayRound.node.opFrom (asRow .moveBy wordOf5000)).order = 4 := by decide +kernel
  obtain rfl : (3, .move) = a := Option.some.inj ha
  rw [horder]
  decide

theorem halfwayRound_moves : halfwayRound.node.slotRunning 2 = true ∧ halfwayRound.node.refusesMotion 2 = false ∧
    (halfwayRound.node.kind 2).outer = true ∧ halfwayRound.node.parN Pid.prfOneway 2 = 0 := by decide +kernel

theorem halfwayRound_moveByTarget :
    halfwayRound.node.moveByTarget 2 (pw wordOf5000 0) = auToFx (300 + 2 ^ 39) := by decide +kernel

theorem exec_moveBy (p : Packet) (s : State) :
    exec (.moveBy p) s = .next { s with node := s.node.packetRow cmdMoveBy (asRow .moveBy p) } := rfl

/-- R8: the distance of 2^39 au reads as −2^39 au. -/
theorem halfwayRound_target : ((halfwayRound.node.packetRow cmdMoveBy (asRow .moveBy wordOf5000)).core.slots.get 2).target =
    some (auToFx (300 - 2 ^ 39)) := by decide +kernel

/-- Refutes O31: the node holds the target of a MOVE_BY at its distance under R8 from the setpoint, so where that distance wraps it is not
the present target moved, but 2^40 au beside it. With 2^39 − 5000 au of a move left to go, a MOVE_BY of 5000 au goes to a target 2^39 au
behind the setpoint. -/
theorem not_movesStart : ¬ Obligations.MovesStart := by
  intro h
  obtain ⟨hrun, hfree, houter, hboth⟩ := halfwayRound_moves
  obtain ⟨segs, target, beyond, hgo⟩ := judgeMoveBy_goes halfwayRound.node 2 (pw wordOf5000 0) hboth
  have hmoves := h halfwayRound wordOf5000 .moveBy
  dsimp only at hmoves
  rw [halfwayRound_chan] at hmoves
  obtain ⟨hmoveByOrTo, _⟩ := hmoves halfwayRound_runsNow halfwayRound_otherCommand hrun hfree
  obtain ⟨_, hmoveBy⟩ := hmoveByOrTo segs target beyond houter
  obtain ⟨_, _, _, htarget, _⟩ := (hmoveBy rfl hgo).of_row (exec_moveBy wordOf5000 halfwayRound)
  rw [halfwayRound_target, halfwayRound_moveByTarget] at htarget
  exact absurd htarget (by decide)

end Sys2Proof.Machine
end

section
/-!
PROOFS. Phase B of the control engine (09_control_engine.md R294 to R300, R304): what a slot's computation reads, what it leaves of the
other slots, and the order of the slots.
-/
namespace Sys2Proof.Machine

/-! ### What the engine reads beside a slot's own state -/

/-- The part of the node that the engine reads for every slot, and that no slot's computation changes. -/
def Node.engineGround (n : Node) : CoreRun × Mode × ParamMem × Quad Front × TimeBase × Bool :=
  (n.core.run, n.core.mode, n.core.params, n.core.fronts, n.time, n.lane.isLower)

theorem eventTo_lane (ev : EventCode) (sc : Nat) (st : Stamp) (ws : List Word) (r : ClientRec) (n : Node) :
    (n.eventTo ev sc st ws r).lane = n.lane := by
  unfold Node.eventTo
  dsimp only
  split
  · rw [(emit_fields _ _ _ _).2.2.2.2.2.2.1, setClient_lane]
  · rw [setClient_lane]

theorem event_isLower (ev : EventCode) (sc : Nat) (st : Stamp) (ws : List Word) (n : Node) :
    (n.event ev sc st ws).lane.isLower = n.lane.isLower := by
  unfold Node.event
  split
  · unfold Node.laneSend
    cases n.lane.partnerPort <;> rfl
  · exact eachOf_part (fun m => m.lane.isLower) _ (fun r m => congrArg Lane.isLower (eventTo_lane _ _ _ _ r m)) _ n

theorem event_engineGround (ev : EventCode) (sc : Nat) (st : Stamp) (ws : List Word) (n : Node) :
    (n.event ev sc st ws).engineGround = n.engineGround := by
  rw [Node.engineGround, event_core, (event_sameBut ev sc st ws n).time, event_isLower]
  rfl

/-- The ground, the slots and the outputs: all that a following-error report leaves alone. -/
def Node.engine (n : Node) : (CoreRun × Mode × ParamMem × Quad Front × TimeBase × Bool) × Quad Slot × Quad AOut :=
  (n.engineGround, n.core.slots, n.core.outs)

theorem event_engine (ev : EventCode) (sc : Nat) (st : Stamp) (ws : List Word) (n : Node) :
    (n.event ev sc st ws).engine = n.engine := by
  rw [Node.engine, event_engineGround, event_core]
  rfl

theorem trip_engine (f : FaultCode) (cls sc : Nat) (x : Word) (i : Bool) (n : Node) : (n.trip f cls sc x i).engine = n.engine :=
  trip_part Node.engine (fun _ _ => rfl) f cls sc x i n

theorem cease_engine (f : FaultCode) (sc : Nat) (n : Node) : (n.cease f sc).engine = n.engine :=
  cease_part Node.engine (fun _ _ => rfl) event_engine f sc n

/-! ### Pitch points stay as a detector reports -/

theorem trip_points (f : FaultCode) (cls sc : Nat) (x : Word) (i : Bool) (n : Node) :
    (n.trip f cls sc x i).core.faults.points = n.core.faults.points := by
  rcases trip_cases f cls sc x i n with ⟨v, _, _, he⟩ | ⟨he, _⟩ <;> rw [he]
  rfl

theorem occur_points (f : FaultCode) (sc : Nat) (k : OccKind) (cls : Nat) (r i : Bool) (x : Word) (n : Node) :
    (n.occur f sc k cls r i x).core.faults.points = n.core.faults.points := by
  unfold Node.occur Node.formFault
  split <;> simp

theorem cease_points (f : FaultCode) (sc : Nat) (n : Node) : (n.cease f sc).core.faults.points = n.core.faults.points := by
  unfold Node.cease
  dsimp only
  split
  · rfl
  · split
    · rfl
    · split <;> simp only [occur_points, modFaults_core]

/-! ### Reads that agree -/

section
variable {m n : Node} (h : m.engineGround = n.engineGround)
include h

theorem parts_of_engineGround : m.core.run = n.core.run ∧ m.core.mode = n.core.mode ∧ m.core.params = n.core.params ∧
    m.core.fronts = n.core.fronts ∧ m.time = n.time ∧ m.lane.isLower = n.lane.isLower := by
  simpa only [Node.engineGround, Prod.mk.injEq] using h

theorem par_of_engineGround : m.par = n.par ∧ m.parN = n.parN := by
  obtain ⟨_, _, hparams, _⟩ := parts_of_engineGround h
  exact ⟨by funext pid i; rw [Node.par, hparams]; rfl, by funext pid i; rw [Node.parN, hparams]; rfl⟩

theorem src_of_engineGround (c : Ch) : m.src c = n.src c := by
  rw [Node.src, (par_of_engineGround h).2]
  rfl

theorem slotRunning_of_engineGround {c : Ch} (he : (m.core.slots.get c).enabled = (n.core.slots.get c).enabled)
    (hp : (m.core.slots.get c).parked = (n.core.slots.get c).parked) : m.slotRunning c = n.slotRunning c := by
  obtain ⟨hrun, hmode, _⟩ := parts_of_engineGround h
  simp only [Node.slotRunning, Node.up, Node.driving, hrun, hmode, he, hp]

theorem isUpper_of_engineGround : m.isUpper = n.isUpper := by
  obtain ⟨_, hmode, _, _, _, hlower⟩ := parts_of_engineGround h
  rw [Node.isUpper, hmode, hlower]
  rfl

theorem kind_of_engineGround {c : Ch} (hl : (m.core.slots.get c).leader = (n.core.slots.get c).leader) : m.kind c = n.kind c := by
  have hch : m.pairCh c = n.pairCh c := by rw [Node.pairCh, isUpper_of_engineGround h]; rfl
  rw [Node.kind, Node.kind, hl, hch, (par_of_engineGround h).2]

end

/-- Everything that phase B reads for channel `c`, but for what it takes from a leader, is as before. -/
structure Node.AsBefore (c : Ch) (m n : Node) : Prop where
  ground : m.engineGround = n.engineGround
  points : m.core.faults.points = n.core.faults.points
  slot : m.core.slots.get c = n.core.slots.get c

section
variable {c : Ch} {m n : Node} (h : m.AsBefore c n)
include h

theorem Node.AsBefore.slotRunning : m.slotRunning c = n.slotRunning c :=
  slotRunning_of_engineGround h.ground (congrArg Slot.enabled h.slot) (congrArg Slot.parked h.slot)

theorem Node.AsBefore.kind : m.kind c = n.kind c := kind_of_engineGround h.ground (congrArg Slot.leader h.slot)

theorem Node.AsBefore.hasSample : m.hasSample c = n.hasSample c := by
  obtain ⟨_, _, hparams, hfronts, _⟩ := parts_of_engineGround h.ground
  simp only [Node.hasSample, Node.mode, hparams, hfronts, h.slot]

theorem Node.AsBefore.outerDue : m.outerDue c = n.outerDue c := by
  obtain ⟨_, _, _, _, htime, _⟩ := parts_of_engineGround h.ground
  simp only [Node.outerDue, htime, h.kind, par_of_engineGround h.ground]

theorem Node.AsBefore.lastKil : m.lastKil c = n.lastKil c := by
  obtain ⟨_, _, _, hfronts, _⟩ := parts_of_engineGround h.ground
  simp only [Node.lastKil, hfronts]

theorem Node.AsBefore.loopStep (x : SlotIn) (s : Slot) : m.loopStep c x s = n.loopStep c x s := by
  obtain ⟨_, _, _, _, htime, _⟩ := parts_of_engineGround h.ground
  simp only [Node.loopStep, Node.tick, htime, h.kind, par_of_engineGround h.ground]

end

/-! ### One slot -/

theorem modSlot_same (c : Ch) (f : Slot → Slot) (n : Node) : (n.modSlot c f).core.slots.get c = f (n.core.slots.get c) := by
  rw [modSlot_core, Quad.get_set_same]

theorem modSlot_other {c d : Ch} (f : Slot → Slot) (n : Node) (h : d ≠ c) :
    (n.modSlot c f).core.slots.get d = n.core.slots.get d := by
  rw [modSlot_core, Quad.get_set_other _ _ _ _ h]

/-- A slot with this count of its following error (R304). -/
def Slot.withFerr (k : Nat) (s : Slot) : Slot := { s with ferr := k }

/-- R304: with no pitch point, the following-error check sets the count of its slot, and the rest of what it does is the fault manager's. -/
theorem checkFerr_engine (c : Ch) (ep e : Int) (n : Node) (hp : n.core.faults.points = []) :
    (n.checkFerr c ep e).core.faults.points = [] ∧
      ∃ k, (n.checkFerr c ep e).engine = (n.modSlot c (Slot.withFerr k)).engine := by
  unfold Node.checkFerr
  extract_lets err lim inj err' k m
  have hm : m = n.modSlot c (Slot.withFerr k) := useInjection_of_none _ _ _ _ hp
  have hmp : m.core.faults.points = [] := hm ▸ hp
  suffices hrest : ∀ m' : Node, m'.core.faults.points = m.core.faults.points → m'.engine = m.engine →
      m'.core.faults.points = [] ∧ ∃ k, m'.engine = (n.modSlot c (Slot.withFerr k)).engine by
    split
    · exact hrest _ (trip_points _ _ _ _ _ m) (trip_engine _ _ _ _ _ m)
    · split
      · exact hrest _ (cease_points _ _ m) (cease_engine _ _ m)
      · exact hrest m rfl rfl
  exact fun m' hpoints hengine => ⟨hpoints.trans hmp, k, hm ▸ hengine⟩

theorem Slot.countInPosition_eq (inpos time p : Int) (s : Slot) :
    ∃ k b a, s.countInPosition inpos time p = { s with inpos := k, inPosition := b, arrived := a } := by
  unfold Slot.countInPosition
  split
  · split <;> exact ⟨_, _, _, rfl⟩
  · exact ⟨_, _, _, rfl⟩

/-- The loops of a slot on the latest kilned value of its channel, with e_p and the velocity error (R297, R298). -/
def Node.loops (n : Node) (c : Ch) (follow : Option Int) : Slot × Int × Int :=
  n.loopStep c { p := auToFx (n.lastKil c).u, v := auToFx (n.lastKil c).v, follow := follow, outer := n.outerDue c } (n.core.slots.get c)

/-- The code that the loops of a slot come to (R300). -/
def Node.loopCode (n : Node) (c : Ch) (follow : Option Int) : Nat :=
  outputCode (n.par Pid.ctlOutzero c.val) (n.par Pid.ctlOutspan c.val) (n.loops c follow).1.y

/-- The slot after its loops, whose computation finishes at an engine cycle, with its count in position (R300, R307). -/
def Node.computed (n : Node) (c : Ch) (follow : Option Int) (fin : Nat) : Slot :=
  Slot.countInPosition (auToFx (n.par Pid.ctlInpos c.val)) (n.par Pid.ctlInpostime c.val) (auToFx (n.lastKil c).u)
    { (n.loops c follow).1 with code := some (n.loopCode c follow, fin) }

/-- The code of a slot's loops enters the input register of an output on LOOP (R339). -/
def Node.enterCode (c : Ch) (code : Nat) (n : Node) : Node :=
  if n.src c = 0 then n.modOut c (writeInput (BitVec.ofNat 18 code)) else n

theorem computeSlot_of_late {c : Ch} {fin : Nat} {n : Node} (follow : Option Int) (hl : n.time.outat < fin * 5) :
    n.computeSlot c follow fin = n.modSlot c fun _ => n.computed c follow fin := by
  have hlate : (decide (n.time.outat < fin * 5) || n.injecting .deadline c.val) = true := by simp [hl]
  exact if_pos hlate

theorem computeSlot_of_inTime {c : Ch} {fin : Nat} {n : Node} (follow : Option Int) (hp : n.core.faults.points = [])
    (hl : fin * 5 ≤ n.time.outat) :
    n.computeSlot c follow fin = ((n.modSlot c fun _ => n.computed c follow fin).checkFerr c (n.loops c follow).2.1
      (n.loops c follow).2.2).enterCode c (n.loopCode c follow) := by
  have hinTime : (decide (n.time.outat < fin * 5) || n.injecting .deadline c.val) ≠ true := by
    simp [Nat.not_lt.mpr hl, injecting_of_none n _ _ hp]
  refine (if_neg hinTime).trans ?_
  unfold Node.enterCode
  simp only [beq_iff_eq]
  rfl

theorem Quad.set_get_self {α : Type} (q : Quad α) (c : Ch) : q.set c (q.get c) = q := by
  match c with | 0 => rfl | 1 => rfl | 2 => rfl | 3 => rfl

theorem Quad.set_set {α : Type} (q : Quad α) (c : Ch) (x y : α) : (q.set c x).set c y = q.set c y := by
  match c with | 0 => rfl | 1 => rfl | 2 => rfl | 3 => rfl

theorem enterCode_engine (c : Ch) (code : Nat) (n : Node) : (n.enterCode c code).core.faults.points = n.core.faults.points ∧
    (n.enterCode c code).engineGround = n.engineGround ∧ (n.enterCode c code).core.slots = n.core.slots ∧
    ∃ o, (n.enterCode c code).core.outs = n.core.outs.set c o ∧
      (n.src c = 0 → o = writeInput (BitVec.ofNat 18 code) (n.core.outs.get c)) := by
  unfold Node.enterCode
  split
  · exact ⟨rfl, rfl, rfl, _, rfl, fun _ => rfl⟩
  next hs => exact ⟨rfl, rfl, rfl, n.core.outs.get c, (Quad.set_get_self _ c).symm, fun h => absurd h hs⟩

theorem engine_parts {m n : Node} (h : m.engine = n.engine) :
    m.engineGround = n.engineGround ∧ m.core.slots = n.core.slots ∧ m.core.outs = n.core.outs := by
  simpa only [Node.engine, Prod.mk.injEq] using h

/-- R304, R328, R339: with no pitch point, a computation leaves its slot with a count of the following error, and a code in time in the
input register of an output on LOOP; the rest of what it does is the fault manager's. -/
theorem computeSlot_engine (c : Ch) (follow : Option Int) (fin : Nat) (n : Node) (hp : n.core.faults.points = []) :
    (n.computeSlot c follow fin).core.faults.points = [] ∧ (n.computeSlot c follow fin).engineGround = n.engineGround ∧
      (∃ k, (n.computeSlot c follow fin).core.slots = n.core.slots.set c ((n.computed c follow fin).withFerr k)) ∧
      ∃ o, (n.computeSlot c follow fin).core.outs = n.core.outs.set c o ∧ (fin * 5 ≤ n.time.outat → n.src c = 0 →
        o = writeInput (BitVec.ofNat 18 (n.loopCode c follow)) (n.core.outs.get c)) := by
  by_cases hl : fin * 5 ≤ n.time.outat
  case neg =>
    rw [computeSlot_of_late follow (Nat.not_le.mp hl)]
    exact ⟨hp, rfl, ⟨(n.computed c follow fin).ferr, rfl⟩, n.core.outs.get c, (Quad.set_get_self _ c).symm, fun h => absurd h hl⟩
  case pos =>
    rw [computeSlot_of_inTime follow hp hl]
    generalize hm : (n.modSlot c fun _ => n.computed c follow fin).checkFerr c (n.loops c follow).2.1 (n.loops c follow).2.2 = m
    obtain ⟨hpoints, k, hengine⟩ := checkFerr_engine c (n.loops c follow).2.1 (n.loops c follow).2.2
      (n.modSlot c fun _ => n.computed c follow fin) hp
    rw [hm] at hpoints hengine
    obtain ⟨hground, hslots, houts⟩ := engine_parts hengine
    rw [modSlot_core, modSlot_core, Quad.get_set_same, Quad.set_set] at hslots
    obtain ⟨hepoints, heground, heslots, o, heouts, ho⟩ := enterCode_engine c (n.loopCode c follow) m
    refine ⟨hepoints.trans hpoints, heground.trans hground, ⟨k, heslots.trans hslots⟩, o, heouts.trans ?_, fun _ hs => ?_⟩
    · rw [houts]
      rfl
    · rw [ho ((src_of_engineGround hground c).trans hs), houts]
      rfl

/-! ### What one slot's computation leaves of the others -/

/-- Only channel `c` has been computed: the rest of what the engine reads, and the other slots and outputs, are as before. -/
structure Node.OnlySlot (c : Ch) (m n : Node) : Prop where
  ground : m.engineGround = n.engineGround
  points : m.core.faults.points = n.core.faults.points
  slots : ∀ d, d ≠ c → m.core.slots.get d = n.core.slots.get d
  outs : ∀ d, d ≠ c → m.core.outs.get d = n.core.outs.get d

theorem Node.OnlySlot.asBefore {c d : Ch} {m n : Node} (h : m.OnlySlot c n) (hd : d ≠ c) : m.AsBefore d n :=
  ⟨h.ground, h.points, h.slots d hd⟩

theorem modSlot_onlySlot (c : Ch) (f : Slot → Slot) (n : Node) : (n.modSlot c f).OnlySlot c n :=
  ⟨rfl, rfl, fun _ hd => modSlot_other f n hd, fun _ _ => rfl⟩

theorem computeSlot_onlySlot (c : Ch) (follow : Option Int) (fin : Nat) (n : Node) (hp : n.core.faults.points = []) :
    (n.computeSlot c follow fin).OnlySlot c n := by
  obtain ⟨hpoints, hground, ⟨k, hslots⟩, o, houts, _⟩ := computeSlot_engine c follow fin n hp
  exact ⟨hground, hpoints.trans hp.symm, fun d hd => by rw [hslots, Quad.get_set_other _ _ _ _ hd],
    fun d hd => by rw [houts, Quad.get_set_other _ _ _ _ hd]⟩

/-- R295: phase B on a slot changes that slot and its output. -/
theorem slotPhaseB_onlySlot (c : Ch) (r : Nat × Node) (hp : r.2.core.faults.points = []) : (Node.slotPhaseB c r).2.OnlySlot c r.2 := by
  unfold Node.slotPhaseB
  extract_lets n s fin
  split
  · exact ⟨rfl, rfl, fun _ _ => rfl, fun _ _ => rfl⟩
  · split
    · exact modSlot_onlySlot c _ n
    · split
      · split
        · exact computeSlot_onlySlot c _ fin n hp
        · exact modSlot_onlySlot c _ n
        · obtain ⟨hground, hpoints, hslots, houts⟩ := modSlot_onlySlot c Slot.missPacket n
          exact ⟨hground, hpoints, hslots, houts⟩
      · exact computeSlot_onlySlot c _ fin n hp

/-! ### What phase B makes of one slot -/

/-- Channel `c` after phase B: a slot that does not run is untouched, one without a sample holds, and one outside a group has its loops
computed, with its code in its output's input register where it is in time (R294, R297 to R300, R339). -/
def Node.Phased (c : Ch) (n m : Node) : Prop :=
  (n.slotRunning c = false → m.core.slots.get c = n.core.slots.get c) ∧
  (n.slotRunning c = true → n.hasSample c = false → m.core.slots.get c = (n.core.slots.get c).hold) ∧
  (n.slotRunning c = true → n.hasSample c = true → n.kind c ≠ .follower →
    (m.core.slots.get c).computed = true ∧ (m.core.slots.get c).i = (n.loops c none).1.i ∧
    (m.core.slots.get c).j = (n.loops c none).1.j ∧ (m.core.slots.get c).vc = (n.loops c none).1.vc ∧
    (m.core.slots.get c).y = (n.loops c none).1.y ∧
    ∃ fin : Nat, (m.core.slots.get c).code = some (n.loopCode c none, fin) ∧
      (fin * 5 ≤ n.time.outat → n.src c = 0 →
        (m.core.outs.get c).inreg = BitVec.ofNat 18 (n.loopCode c none) ∧ (m.core.outs.get c).fresh = true))

theorem Node.Phased.of_idle {c : Ch} {n m : Node} (hrun : n.slotRunning c = false)
    (h : m.core.slots.get c = n.core.slots.get c) : n.Phased c m :=
  ⟨fun _ => h, fun hr => (nomatch hrun.symm.trans hr), fun hr => (nomatch hrun.symm.trans hr)⟩

theorem Node.Phased.of_held {c : Ch} {n m : Node} (hrun : n.slotRunning c = true) (hsample : n.hasSample c = false)
    (h : m.core.slots.get c = (n.core.slots.get c).hold) : n.Phased c m :=
  ⟨fun hr => (nomatch hrun.symm.trans hr), fun _ _ => h, fun _ hs => (nomatch hsample.symm.trans hs)⟩

theorem Node.Phased.of_follower {c : Ch} {n m : Node} (hrun : n.slotRunning c = true) (hsample : n.hasSample c = true)
    (hkind : n.kind c = .follower) : n.Phased c m :=
  ⟨fun hr => (nomatch hrun.symm.trans hr), fun _ hs => (nomatch hsample.symm.trans hs), fun _ _ hk => absurd hkind hk⟩

theorem Node.Phased.of_same {c : Ch} {n m m' : Node} (h : n.Phased c m) (hslot : m'.core.slots.get c = m.core.slots.get c)
    (hout : m'.core.outs.get c = m.core.outs.get c) : n.Phased c m' := by
  unfold Node.Phased
  rwa [hslot, hout]

theorem Node.AsBefore.loops {c : Ch} {m n : Node} (h : m.AsBefore c n) (follow : Option Int) : m.loops c follow = n.loops c follow := by
  rw [Node.loops, h.loopStep, h.lastKil, h.outerDue, h.slot]
  rfl

theorem Node.AsBefore.phased {c : Ch} {m n k : Node} (h : m.AsBefore c n) (hm : m.Phased c k) : n.Phased c k := by
  have hcode : m.loopCode c none = n.loopCode c none := by rw [Node.loopCode, h.loops, (par_of_engineGround h.ground).1]; rfl
  obtain ⟨_, _, _, _, htime, _⟩ := parts_of_engineGround h.ground
  have hsrc := src_of_engineGround h.ground c
  unfold Node.Phased at hm
  rwa [h.slotRunning, h.slot, h.hasSample, h.kind, h.loops, hcode, htime, hsrc] at hm

/-- R297 to R300: the loops give the slot's state and code, whatever its count in position. -/
theorem computed_fields (n : Node) (c : Ch) (follow : Option Int) (fin k : Nat) : 
    let s := (n.computed c follow fin).withFerr k
    s.computed = true ∧ s.i = (n.loops c follow).1.i ∧ s.j = (n.loops c follow).1.j ∧ s.vc = (n.loops c follow).1.vc ∧
      s.y = (n.loops c follow).1.y ∧ s.code = some (n.loopCode c follow, fin) := by
  obtain ⟨_, _, _, hs⟩ := Slot.countInPosition_eq (auToFx (n.par Pid.ctlInpos c.val)) (n.par Pid.ctlInpostime c.val)
    (auToFx (n.lastKil c).u) { (n.loops c follow).1 with code := some (n.loopCode c follow, fin) }
  rw [Node.computed, hs]
  exact ⟨rfl, rfl, rfl, rfl, rfl, rfl⟩

theorem computeSlot_phased (c : Ch) (fin : Nat) (n : Node) (hp : n.core.faults.points = []) (hrun : n.slotRunning c = true)
    (hsample : n.hasSample c = true) : n.Phased c (n.computeSlot c none fin) := by
  obtain ⟨_, _, ⟨k, hslots⟩, o, houts, ho⟩ := computeSlot_engine c none fin n hp
  obtain ⟨hcomputed, hi, hj, hvc, hy, hcode⟩ := computed_fields n c none fin k
  refine ⟨fun hr => (nomatch hrun.symm.trans hr), fun _ hs => (nomatch hsample.symm.trans hs), fun _ _ _ => ?_⟩
  rw [hslots, houts, Quad.get_set_same, Quad.get_set_same]
  refine ⟨hcomputed, hi, hj, hvc, hy, fin, hcode, fun hl hs => ?_⟩
  rw [ho hl hs]
  exact ⟨rfl, rfl⟩

/-- R294, R295: phase B on a slot makes of it what its case says. -/
theorem slotPhaseB_phased (c : Ch) (r : Nat × Node) (hp : r.2.core.faults.points = []) : r.2.Phased c (Node.slotPhaseB c r).2 := by
  unfold Node.slotPhaseB
  extract_lets n s fin
  split
  next hrun => exact .of_idle (by simpa using hrun) rfl
  next hrun =>
    have hrun : n.slotRunning c = true := by simpa using hrun
    split
    next hsample => exact .of_held hrun (by simpa using hsample) (modSlot_same c _ n)
    next hsample =>
      have hsample : n.hasSample c = true := by simpa using hsample
      split
      next hkind => exact .of_follower hrun hsample hkind
      next => exact computeSlot_phased c fin n hp hrun hsample

/-! ### The slots in their order -/

/-- A channel that is not of the list keeps its slot and its output. -/
theorem foldl_slotPhaseB_other (c : Ch) (cs : List Ch) (hc : c ∉ cs) (r : Nat × Node) (hp : r.2.core.faults.points = []) :
    (cs.foldl (fun r c => Node.slotPhaseB c r) r).2.core.slots.get c = r.2.core.slots.get c ∧
      (cs.foldl (fun r c => Node.slotPhaseB c r) r).2.core.outs.get c = r.2.core.outs.get c := by
  induction cs generalizing r with
  | nil => exact ⟨rfl, rfl⟩
  | cons d ds ih =>
    obtain ⟨hne, hds⟩ := List.ne_and_not_mem_of_not_mem_cons hc
    have hd := slotPhaseB_onlySlot d r hp
    obtain ⟨hslot, hout⟩ := ih hds (Node.slotPhaseB d r) (hd.points.trans hp)
    exact ⟨hslot.trans (hd.slots c hne), hout.trans (hd.outs c hne)⟩

/-- R295: each channel of a list without repetition comes to be what its own computation makes of it. -/
theorem foldl_slotPhaseB_phased (c : Ch) (cs : List Ch) (hnd : cs.Nodup) (hc : c ∈ cs) (r : Nat × Node)
    (hp : r.2.core.faults.points = []) : r.2.Phased c (cs.foldl (fun r c => Node.slotPhaseB c r) r).2 := by
  induction cs generalizing r with
  | nil => exact absurd hc List.not_mem_nil
  | cons d ds ih =>
    obtain ⟨hd, hds⟩ := List.nodup_cons.mp hnd
    have honly := slotPhaseB_onlySlot d r hp
    by_cases hcd : c = d
    · subst hcd
      obtain ⟨hslot, hout⟩ := foldl_slotPhaseB_other c ds hd (Node.slotPhaseB c r) (honly.points.trans hp)
      exact (slotPhaseB_phased c r hp).of_same hslot hout
    · exact (honly.asBefore hcd).phased
        (ih hds (List.mem_of_ne_of_mem hcd hc) (Node.slotPhaseB d r) (honly.points.trans hp))

/-- R295: phase B computes each channel once. -/
theorem phaseBOrder_perm (n : Node) : n.phaseBOrder.Perm [0, 1, 2, 3] := by
  have hperm := List.filter_append_perm (fun c => n.kind c != .follower) ([0, 1, 2, 3] : List Ch)
  unfold Node.phaseBOrder
  simpa only [bne, Bool.not_not] using hperm

/-- R295: phase B makes of every channel what its own computation makes of it. -/
theorem runPhaseB_phased (stall : Nat) (n : Node) (hb : n.core.phaseB = false) (hp : n.core.faults.points = []) :
    (n.runPhaseB stall).core.phaseB = true ∧ ∀ c, n.Phased c (n.runPhaseB stall) := by
  unfold Node.runPhaseB
  rw [hb, if_neg (by decide)]
  refine ⟨rfl, fun c => ?_⟩
  have hc : c ∈ n.phaseBOrder := (phaseBOrder_perm n).mem_iff.mpr (by match c with | 0 | 1 | 2 | 3 => decide)
  exact (foldl_slotPhaseB_phased c n.phaseBOrder ((phaseBOrder_perm n).nodup_iff.mpr (by decide)) hc
    (n.phaseBStart n.core.lateA stall, n) hp).of_same rfl rfl

/-- Settles O34: the computation of one slot changes only that slot and its output, so each slot reads as before the phase when its turn
comes, and stays as its own computation leaves it. -/
theorem phaseBComputes : Obligations.PhaseBComputes := by
  intro s stall hup _ hb hp
  exact effect_of_up rfl hup (runPhaseB_phased stall s.node hb hp)

end Sys2Proof.Machine
end

section
/-!
PROOFS. Motion that ends (09_control_engine.md R307, R312, R313, R315, R322 to R324): STOP, PARK, the waits for rest, arrival and the end of
a jog.
-/
namespace Sys2Proof.Machine

/-! ### What the end of a command leaves of the pool and the lane -/

theorem endOp_opOf_other (op : PoolOp) (st : Status) (ch : List (List Word)) (g : Bool) (n : Node) {o : Nat} (h : op.order ≠ o) :
    (n.endOp op st ch g).opOf o = n.opOf o := by
  have hdrop : (n.dropOp op.order).opOf o = n.opOf o := by
    unfold Node.opOf Node.dropOp
    rw [modCore_core, List.find?_filter]
    refine congrArg (fun p => n.core.pool.find? p) (funext fun x => ?_)
    by_cases hx : x.order = o
    · simp [hx, Ne.symm h]
    · simp [hx]
  have hfinish : ∀ st, ((n.dropOp op.order).finish op.packet st ch g n.tick16).opOf o = n.opOf o := fun st => by
    rw [← hdrop, Node.opOf, finish_core]
    rfl
  unfold Node.endOp
  split
  · exact hdrop
  · unfold Node.opOf
    rw [modCore_core, List.find?_map]
    have horder : ∀ x : PoolOp, ((fun x : PoolOp => x.order == o) ∘ fun x : PoolOp =>
        if x.order == op.order then { x with part := some (false, st, ch.flatten), phase := .committed } else x) x = (x.order == o) := by
      intro x
      rw [Function.comp_apply, apply_ite PoolOp.order, ite_self]
    rw [funext horder]
    cases hf : n.core.pool.find? fun x => x.order == o with
    | none => rfl
    | some x =>
      have hx := beq_iff_eq.mp (List.find?_some (p := fun x : PoolOp => x.order == o) hf)
      simp [hx, Ne.symm h]
  · exact hfinish _
  · exact hfinish _

theorem endOp_isLower (op : PoolOp) (st : Status) (ch : List (List Word)) (g : Bool) (n : Node) :
    (n.endOp op st ch g).lane.isLower = n.lane.isLower := by
  have hfinish : ∀ st, ((n.dropOp op.order).finish op.packet st ch g n.tick16).lane = n.lane := fun st => by
    unfold Node.finish Node.cacheReply
    dsimp only
    split
    · rw [setClient_lane, emitAll_lane]
      rfl
    · rw [emitAll_lane]
      rfl
  unfold Node.endOp
  split
  · unfold Node.laneSend
    cases n.lane.partnerPort <;> rfl
  · rfl
  · rw [hfinish]
  · rw [hfinish]

theorem engineGround_of_sameBut {m n : Node} (h : m.SameBut n) (hl : m.lane.isLower = n.lane.isLower) :
    m.engineGround = n.engineGround := by
  have hcore := congrArg (fun k : Core => (k.run, k.mode, k.params, k.fronts)) h.core
  obtain ⟨hrun, hmode, hparams, hfronts⟩ : m.core.run = n.core.run ∧ m.core.mode = n.core.mode ∧ m.core.params = n.core.params ∧
    m.core.fronts = n.core.fronts := by simpa only [Core.body, Prod.mk.injEq] using hcore
  rw [Node.engineGround, hrun, hmode, hparams, hfronts, h.time, hl]
  rfl

theorem endOrder_isLower (o : Nat) (st : Status) (ws : List Word) (n : Node) : (n.endOrder o st ws).lane.isLower = n.lane.isLower := by
  unfold Node.endOrder
  split
  · exact endOp_isLower _ _ _ _ n
  · rfl

theorem endOrder_opOf_other {o o' : Nat} (st : Status) (ws : List Word) (n : Node) (h : o' ≠ o) :
    (n.endOrder o' st ws).opOf o = n.opOf o := by
  unfold Node.endOrder
  split
  next op hop => exact endOp_opOf_other op _ _ _ n (opOf_order hop ▸ h)
  · rfl

/-- An operation that ends here by its order number leaves the pool, and its sender gets the final reply without a word (R80). -/
theorem endOrder_ends {op : PoolOp} (st : Status) (n : Node) (ho : n.opOf op.order = some op) (hs : op.side = .here) :
    (n.endOrder op.order st []).opOf op.order = none ∧ (n.endOrder op.order st []).sentTo (senderOf op.packet) =
      n.sentTo (senderOf op.packet) ++ n.finalReply op.packet st [[]] false := by
  unfold Node.endOrder
  rw [ho]
  exact endOp_ends op st [[]] false n hs

/-- The slots, the outputs and the waits for rest stay as a command ends. -/
theorem endOrder_motion (o : Nat) (st : Status) (ws : List Word) (n : Node) : (n.endOrder o st ws).core.slots = n.core.slots ∧
    (n.endOrder o st ws).core.outs = n.core.outs ∧ (n.endOrder o st ws).core.rests = n.core.rests := by
  have hcore := congrArg (fun k : Core => (k.slots, k.outs, k.rests)) (endOrder_sameBut o st ws n).core
  simpa only [Core.body, Prod.mk.injEq] using hcore

theorem Quad.get_map {α β : Type} (f : α → β) (q : Quad α) (c : Ch) : (q.map f).get c = f (q.get c) := by
  match c with | 0 => rfl | 1 => rfl | 2 => rfl | 3 => rfl

/-! ### What a motion command reads of a slot beside its plan -/

/-- Whether a slot may run, the group it is in, and its setpoint. -/
def Slot.stance (s : Slot) : Bool × Bool × Option Nat × Setpoint := (s.enabled, s.parked, s.leader, s.sp)

/-- Every slot may run as before, in the same group and at the same setpoint, on the same ground. -/
structure Node.SameStance (m n : Node) : Prop where
  ground : m.engineGround = n.engineGround
  slots : ∀ c, (m.core.slots.get c).stance = (n.core.slots.get c).stance

theorem Node.SameStance.refl (n : Node) : n.SameStance n := ⟨rfl, fun _ => rfl⟩

theorem Node.SameStance.trans {a b c : Node} (h : a.SameStance b) (g : b.SameStance c) : a.SameStance c :=
  ⟨h.ground.trans g.ground, fun d => (h.slots d).trans (g.slots d)⟩

section
variable {m n : Node} (h : m.SameStance n) (c : Ch)
include h

theorem Node.SameStance.parts : (m.core.slots.get c).enabled = (n.core.slots.get c).enabled ∧
    (m.core.slots.get c).parked = (n.core.slots.get c).parked ∧ (m.core.slots.get c).leader = (n.core.slots.get c).leader ∧
    (m.core.slots.get c).sp = (n.core.slots.get c).sp := by
  simpa only [Slot.stance, Prod.mk.injEq] using h.slots c

theorem Node.SameStance.slotRunning : m.slotRunning c = n.slotRunning c := by
  obtain ⟨he, hp, _⟩ := h.parts c
  exact slotRunning_of_engineGround h.ground he hp

theorem Node.SameStance.kind : m.kind c = n.kind c := by
  obtain ⟨_, _, hl, _⟩ := h.parts c
  exact kind_of_engineGround h.ground hl

theorem Node.SameStance.ownRest : m.ownRest c = n.ownRest c := by
  obtain ⟨_, _, _, hsp⟩ := h.parts c
  simp only [Node.ownRest, h.slotRunning, h.kind, hsp]

theorem Node.SameStance.chans (p : Packet) : m.chans p = n.chans p := by
  rw [Node.chans, Node.maskOf, isUpper_of_engineGround h.ground]
  rfl

theorem Node.SameStance.limits : m.limits c = n.limits c := by
  simp only [Node.limits, par_of_engineGround h.ground]

end

theorem modSlot_sameStance (c : Ch) (f : Slot → Slot) (n : Node) (hf : ∀ s, (f s).stance = s.stance) :
    (n.modSlot c f).SameStance n := by
  refine ⟨rfl, fun d => ?_⟩
  by_cases h : d = c
  · rw [h, modSlot_same, hf]
  · rw [modSlot_other f n h]

/-- R323: a slot outside a group rests with its own profile. -/
theorem atRest_of_notFollower {n : Node} {c : Ch} (h : n.kind c ≠ .follower) : n.atRest c = n.ownRest c := by
  unfold Node.atRest
  cases hk : n.kind c with
  | follower => exact absurd hk h
  | _ => simp

theorem stopTarget_of_notFollower {n : Node} {c : Ch} (h : n.kind c ≠ .follower) : n.stopTarget c = some c := by
  unfold Node.stopTarget
  cases hk : n.kind c with
  | follower => exact absurd hk h
  | _ => rfl

/-- A slot without the motion command of an order number, where it is that one. -/
def Slot.released (o : Nat) (s : Slot) : Slot := if s.active.any (fun a => a.1 == o) then { s with active := none } else s

/-- The node in which no slot has the motion command of an order number, and no STOP of it waits for rest. -/
def Node.releaseMotion (o : Nat) (n : Node) : Node :=
  n.modCore fun k =>
    { k with slots := k.slots.map (Slot.released o), rests := k.rests.filter fun r => !(r.op == some o && r.kind == .stop) }

theorem Slot.released_stance (o : Nat) (s : Slot) : (s.released o).stance = s.stance := by
  unfold Slot.released
  split <;> rfl

theorem releaseMotion_sameStance (o : Nat) (n : Node) : (n.releaseMotion o).SameStance n := by
  refine ⟨rfl, fun c => ?_⟩
  rw [Node.releaseMotion, modCore_core, Quad.get_map, Slot.released_stance]

theorem endMotion_of_active {c : Ch} {n : Node} {a : Nat × MotionKind} (st : Status) (h : (n.core.slots.get c).active = some a) :
    n.endMotion c st = (n.releaseMotion a.1).endOrder a.1 st [] := by
  unfold Node.endMotion
  rw [h]
  rfl

theorem endMotion_of_none {c : Ch} {n : Node} (st : Status) (h : (n.core.slots.get c).active = none) : n.endMotion c st = n := by
  unfold Node.endMotion
  rw [h]

theorem endOrder_sameStance (o : Nat) (st : Status) (ws : List Word) (n : Node) : (n.endOrder o st ws).SameStance n := by
  obtain ⟨hslots, _⟩ := endOrder_motion o st ws n
  exact ⟨engineGround_of_sameBut (endOrder_sameBut o st ws n) (endOrder_isLower o st ws n), fun c => by rw [hslots]⟩

/-- R315: the end of a slot's motion command changes nothing of how the slots stand. -/
theorem endMotion_sameStance (c : Ch) (st : Status) (n : Node) : (n.endMotion c st).SameStance n := by
  cases ha : (n.core.slots.get c).active with
  | none => rw [endMotion_of_none st ha]; exact .refl n
  | some a =>
    rw [endMotion_of_active st ha]
    exact (endOrder_sameStance a.1 st [] _).trans (releaseMotion_sameStance a.1 n)

theorem endMotion_rests {c : Ch} {n : Node} (st : Status) (h : n.core.rests = []) : (n.endMotion c st).core.rests = [] := by
  cases ha : (n.core.slots.get c).active with
  | none => rwa [endMotion_of_none st ha]
  | some a =>
    obtain ⟨_, _, hrests⟩ := endOrder_motion a.1 st [] (n.releaseMotion a.1)
    rw [endMotion_of_active st ha, hrests, Node.releaseMotion, modCore_core, h]
    rfl

/-- Only the slot's own command ends. -/
theorem endMotion_opOf_other {c : Ch} {n : Node} {o : Nat} (st : Status) (h : ∀ a, (n.core.slots.get c).active = some a → a.1 ≠ o) :
    (n.endMotion c st).opOf o = n.opOf o := by
  cases ha : (n.core.slots.get c).active with
  | none => rw [endMotion_of_none st ha]
  | some a =>
    rw [endMotion_of_active st ha]
    exact endOrder_opOf_other st [] _ (h a ha)

/-! ### Waits for rest -/

/-- The node with these waits for rest. -/
def Node.withRests (ws : List RestWait) (n : Node) : Node := n.modCore fun k => { k with rests := ws }

/-- R322: what the judgement of the waits makes of a lone STOP. -/
theorem settleRests_of_stop {n : Node} {w : RestWait} (hr : n.core.rests = [w]) (hk : w.kind = .stop) :
    n.settleRests = if (w.chs.filter fun c => !n.atRest c).isEmpty then (n.withRests []).restDone w
      else n.withRests [{ w with chs := w.chs.filter fun c => !n.atRest c }] := by
  unfold Node.settleRests
  rw [hr]
  simp only [eachOf, List.foldl_cons, List.foldl_nil, hk, reduceCtorEq, if_false]
  rfl

theorem settleRests_of_rest {n : Node} {w : RestWait} (hr : n.core.rests = [w]) (hk : w.kind = .stop)
    (hall : ∀ c ∈ w.chs, n.atRest c = true) : n.settleRests = (n.withRests []).restDone w := by
  have hleft : (w.chs.filter fun c => !n.atRest c) = [] := List.filter_eq_nil_iff.mpr fun c hc => by simp [hall c hc]
  rw [settleRests_of_stop hr hk, hleft]
  rfl

theorem settleRests_of_moving {n : Node} {w : RestWait} (hr : n.core.rests = [w]) (hk : w.kind = .stop) (hne : w.chs ≠ [])
    (hall : ∀ c ∈ w.chs, n.atRest c = false) : n.settleRests = n := by
  have hleft : (w.chs.filter fun c => !n.atRest c) = w.chs := List.filter_eq_self.mpr fun c hc => by simp [hall c hc]
  rw [settleRests_of_stop hr hk, hleft, if_neg (by simpa using hne), ← hr]
  rfl

/-- The end of a STOP: its operation leaves the pool, and its sender gets DONE (R313, R322). -/
theorem restDone_stop {n : Node} {w : RestWait} {op : PoolOp} (hk : w.kind = .stop) (hw : w.op = some op.order)
    (ho : n.opOf op.order = some op) (hs : op.side = .here) :
    (n.restDone w).opOf op.order = none ∧ (n.restDone w).core.rests = n.core.rests ∧
      (n.restDone w).sentTo (senderOf op.packet) = n.sentTo (senderOf op.packet) ++ n.finalReply op.packet .done [[]] false := by
  unfold Node.restDone
  rw [hk, hw]
  dsimp only [Node.endOpt]
  generalize hm : n.modCore _ = m
  have hmop : m.opOf op.order = some op := by rw [← hm]; exact ho
  obtain ⟨hgone, hsent⟩ := endOrder_ends .done m hmop hs
  obtain ⟨_, _, hrests⟩ := endOrder_motion op.order .done [] m
  refine ⟨hgone, hrests.trans (by rw [← hm]; rfl), hsent.trans (by rw [← hm]; rfl)⟩

/-! ### STOP -/

/-- A command that goes on leaves its operation committed in the pool. -/
theorem packetRow_goesOn {f : PoolOp → Node → Ans × Node} {p : Packet} {n m : Node} (h : n.runsNow p = true)
    (hf : f (n.opFrom p) (n.atCommit p) = (.wait, m)) (ho : m.opOf (n.opFrom p).order = (n.atCommit p).opOf (n.opFrom p).order) :
    n.goesOn p (n.packetRow f p) := by
  obtain ⟨_, hr⟩ := runsNow_spec p n h
  rw [atCommit_opOf p n h] at ho
  refine ⟨{ n.opFrom p with phase := .committed }, ?_, hr.packet, rfl⟩
  rw [packetRow_runsNow f p n h, hf]
  simp only [ho, Node.deliver]
  split
  · exact ho
  · rw [Node.opOf, accepted_core]
    exact ho

/-- A command that has ended its own operation by its commit is delivered no further. -/
theorem packetRow_of_ended {f : PoolOp → Node → Ans × Node} {p : Packet} {n m : Node} {a : Ans} (h : n.runsNow p = true)
    (hf : f (n.opFrom p) (n.atCommit p) = (a, m)) (ho : m.opOf (n.opFrom p).order = none) : n.packetRow f p = m := by
  rw [packetRow_runsNow f p n h, hf]
  simp only [ho]

/-- The slots and the outputs after a command that runs now are those that its effect leaves. -/
theorem packetRow_motion (f : PoolOp → Node → Ans × Node) {p : Packet} {n : Node} (h : n.runsNow p = true) :
    (n.packetRow f p).core.slots = (f (n.opFrom p) (n.atCommit p)).2.core.slots ∧
      (n.packetRow f p).core.outs = (f (n.opFrom p) (n.atCommit p)).2.core.outs := by
  have hcore := congrArg (fun k : Core => (k.slots, k.outs)) (packetRow_sameBut f p n h).core
  simpa only [Core.body, Prod.mk.injEq] using hcore

/-- The plan and the command of a slot that takes a STOP (R322). -/
def Slot.stopFor (o : Nat) (l : Limits) (s : Slot) : Slot := { s.planStop l with active := some (o, .stop) }

theorem Slot.planStop_stance (l : Limits) (s : Slot) : (s.planStop l).stance = s.stance := by
  unfold Slot.planStop
  split <;> rfl

theorem Slot.stopFor_stance (o : Nat) (l : Limits) (s : Slot) : (s.stopFor o l).stance = s.stance := s.planStop_stance l

/-- R315, R322: a STOP of a running slot outside a group ends its command, brakes its profile and takes it. -/
theorem stopNamed_of_running {op : PoolOp} {c : Ch} {n : Node} (hk : n.kind c ≠ .follower) (hrun : n.slotRunning c = true)
    (hact : ∀ a, (n.core.slots.get c).active = some a → a.1 ≠ op.order) :
    n.stopNamed op c = (n.endMotion c .aborted).modSlot c (Slot.stopFor op.order (n.limits c)) := by
  have hstance := endMotion_sameStance c .aborted n
  have hother : ((n.core.slots.get c).active.any fun a => a.1 == op.order) = false := by
    cases ha : (n.core.slots.get c).active with
    | none => rfl
    | some a => simpa using hact a ha
  have hstop : (n.endMotion c .aborted).stopSlot c = (n.endMotion c .aborted).modSlot c (Slot.planStop (n.limits c)) := by
    rw [Node.stopSlot, stopTarget_of_notFollower (by rwa [hstance.kind])]
    dsimp only
    rw [hstance.slotRunning, if_pos hrun, hstance.limits]
  unfold Node.stopNamed
  rw [stopTarget_of_notFollower hk]
  dsimp only [Option.getD]
  rw [hother, if_neg (by decide), hstop]
  unfold Node.modSlot Node.modCore
  simp only [Quad.get_set_same, Quad.set_set]
  rfl

theorem stopNamed_of_taken {op : PoolOp} {c : Ch} {n : Node} {k : MotionKind} (hk : n.kind c ≠ .follower)
    (hact : (n.core.slots.get c).active = some (op.order, k)) : n.stopNamed op c = n := by
  unfold Node.stopNamed
  rw [stopTarget_of_notFollower hk]
  simp [hact]

/-- The node whose named slots have taken a STOP, which waits for them to rest. -/
def Node.stopAll (op : PoolOp) (n : Node) : Node :=
  let m := eachOf (n.chans op.packet) (Node.stopNamed op) n
  m.withRests (m.core.rests ++ [{ op := some op.order, kind := .stop, chs := m.chans op.packet }])

theorem cmdStop_of_running {op : PoolOp} {n : Node} (h : n.allRunning op.packet = true) :
    cmdStop op n = (.wait, (n.stopAll op).settleRests) := by
  unfold cmdStop
  rw [h]
  rfl

/-- R322: a STOP of one moving slot brakes it and goes on. -/
theorem cmdStop_of_moving {op : PoolOp} {n : Node} {c : Ch} (hall : n.allRunning op.packet = true) (hr : n.core.rests = [])
    (hc : n.chans op.packet = [c]) (hk : n.kind c ≠ .follower)
    (hact : ∀ a, (n.core.slots.get c).active = some a → a.1 ≠ op.order)
    (hmoves : ¬((n.core.slots.get c).sp.v = 0 ∧ (n.core.slots.get c).sp.a = 0)) :
    ∃ m, cmdStop op n = (.wait, m) ∧ m.opOf op.order = n.opOf op.order ∧
      m.core.slots.get c = ((n.endMotion c .aborted).core.slots.get c).stopFor op.order (n.limits c) := by
  have hrun : n.slotRunning c = true := by
    rw [Node.allRunning, hc, List.all_cons, Bool.and_eq_true] at hall
    exact hall.1
  have hstop := stopNamed_of_running (op := op) hk hrun hact
  generalize hm : (n.endMotion c .aborted).modSlot c (Slot.stopFor op.order (n.limits c)) = m at hstop
  have hstance : m.SameStance n := by
    rw [← hm]
    exact (modSlot_sameStance c _ _ (Slot.stopFor_stance _ _)).trans (endMotion_sameStance c .aborted n)
  have hrests : m.core.rests = [] := by rw [← hm]; exact endMotion_rests .aborted hr
  have hstopped : n.stopAll op = m.withRests [{ op := some op.order, kind := .stop, chs := [c] }] := by
    rw [Node.stopAll, hc]
    simp only [eachOf, List.foldl_cons, List.foldl_nil, hstop, hrests, hstance.chans, hc, List.nil_append]
  have hmoving : (m.withRests [{ op := some op.order, kind := .stop, chs := [c] }]).atRest c = false := by
    have hown : m.ownRest c = false := by
      rw [hstance.ownRest, Node.ownRest, hrun]
      cases hkind : n.kind c with
      | follower => exact absurd hkind hk
      | _ => simpa [LoopKind.profile] using hmoves
    exact (atRest_of_notFollower (n := m) (by rwa [hstance.kind])).trans hown
  refine ⟨_, cmdStop_of_running hall, ?_, ?_⟩
  all_goals
    rw [hstopped, settleRests_of_moving rfl rfl (List.cons_ne_nil c []) fun d hd => by rwa [List.mem_singleton.mp hd], ← hm]
  · exact endMotion_opOf_other .aborted hact
  · exact modSlot_same c _ _

theorem effect_stop_of_moving (s : State) (p : Packet) (c : Ch) (h : s.node.runsNow (asRow .stop p) = true)
    (hall : s.node.allRunning (asRow .stop p) = true) (hr : s.node.core.rests = []) (hc : s.node.chans (asRow .stop p) = [c])
    (hk : s.node.kind c ≠ .follower)
    (hact : ∀ a, (s.node.core.slots.get c).active = some a → a.1 ≠ (s.node.opFrom (asRow .stop p)).order)
    (hmoves : ¬((s.node.core.slots.get c).sp.v = 0 ∧ (s.node.core.slots.get c).sp.a = 0)) :
    Effect (.stop p) s fun m => s.node.goesOn (asRow .stop p) m ∧ (m.core.slots.get c).braking = true ∧
      (m.core.slots.get c).segs = stopSegs (s.node.limits c) (s.node.core.slots.get c).sp ∧
      (m.core.slots.get c).active = some ((s.node.opFrom (asRow .stop p)).order, .stop) := by
  obtain ⟨_, hrun⟩ := runsNow_spec _ _ h
  have hreads := fun {β : Type} (g : Node → β) hg => atCommit_reads g hg (asRow .stop p) s.node h
  have hslots := hreads (fun n => n.core.slots) fun _ => rfl
  have hlimits := hreads (fun n => n.limits c) fun _ => rfl
  obtain ⟨m, hcmd, hop, hslot⟩ := cmdStop_of_moving (op := s.node.opFrom (asRow .stop p))
    (n := s.node.atCommit (asRow .stop p)) (c := c)
    (by rw [hrun.packet, hreads (fun n => n.allRunning (asRow .stop p)) fun _ => rfl, hall])
    (by rw [hreads (fun n => n.core.rests) fun _ => rfl, hr])
    (by rw [hrun.packet, hreads (fun n => n.chans (asRow .stop p)) fun _ => rfl, hc])
    (by rwa [hreads (fun n => n.kind c) fun _ => rfl]) (by rwa [hslots]) (by rwa [hslots])
  refine ⟨_, rfl, packetRow_goesOn h hcmd hop, ?_⟩
  obtain ⟨hrow, _⟩ := packetRow_motion cmdStop h
  obtain ⟨_, _, _, hsp⟩ := (endMotion_sameStance c .aborted (s.node.atCommit (asRow .stop p))).parts c
  rw [hslots] at hsp
  rw [hrow, hcmd, hslot, hlimits, Slot.stopFor, Slot.planStop, hsp, if_neg hmoves]
  exact ⟨rfl, rfl, rfl⟩

/-- What stays as a STOP of slots at rest is named: how the slots stand, what replies rest on, no wait for rest, and of the commands none
but the STOP itself. -/
structure Node.StopsAtRest (o : Nat) (m n : Node) : Prop where
  stance : m.SameStance n
  ground : m.replyGround = n.replyGround
  rests : m.core.rests = []
  active : ∀ c, (m.core.slots.get c).active = none ∨ (m.core.slots.get c).active = some (o, .stop)

theorem stopNamed_stopsAtRest {op : PoolOp} {c : Ch} {m n : Node} (hk : n.kind c ≠ .follower) (hrun : n.slotRunning c = true)
    (h : m.StopsAtRest op.order n) : (m.stopNamed op c).StopsAtRest op.order n := by
  have hmk : m.kind c ≠ .follower := by rwa [h.stance.kind]
  rcases h.active c with hnone | htaken
  · have hstop := stopNamed_of_running (op := op) hmk (by rwa [h.stance.slotRunning]) fun a ha => absurd (hnone.symm.trans ha) nofun
    rw [hstop, endMotion_of_none _ hnone]
    refine ⟨(modSlot_sameStance c _ _ (Slot.stopFor_stance _ _)).trans h.stance, h.ground, h.rests, fun d => ?_⟩
    by_cases hd : d = c
    · rw [hd, modSlot_same]
      exact .inr rfl
    · rw [modSlot_other _ _ hd]
      exact h.active d
  · rwa [stopNamed_of_taken hmk htaken]

/-- R322: a STOP of slots at rest is done at once. -/
theorem cmdStop_of_rest {op : PoolOp} {n : Node} (hall : n.allRunning op.packet = true) (hr : n.core.rests = [])
    (hfree : ∀ c, n.kind c ≠ .follower ∧ (n.core.slots.get c).active = none)
    (hrest : ∀ c ∈ n.chans op.packet, (n.core.slots.get c).sp.v = 0 ∧ (n.core.slots.get c).sp.a = 0)
    (ho : n.opOf op.order = some { op with phase := .committed }) (hs : op.side = .here) :
    ∃ m, cmdStop op n = (.wait, m) ∧ m.opOf op.order = none ∧ m.core.rests = [] ∧
      m.sentTo (senderOf op.packet) = n.sentTo (senderOf op.packet) ++ n.finalReply op.packet .done [[]] false := by
  have hstops : (eachOf (n.chans op.packet) (Node.stopNamed op) n).StopsAtRest op.order n :=
    eachOf_keeps (fun m => m.StopsAtRest op.order n) (Node.stopNamed op) _
      (fun c hc m hm => stopNamed_stopsAtRest (hfree c).1 (List.all_eq_true.mp hall c hc) hm) n
      ⟨.refl n, rfl, hr, fun c => .inl (hfree c).2⟩
  generalize hm : eachOf (n.chans op.packet) (Node.stopNamed op) n = m at hstops
  have hstopped : n.stopAll op = m.withRests [{ op := some op.order, kind := .stop, chs := n.chans op.packet }] := by
    rw [Node.stopAll, hm, hstops.rests, hstops.stance.chans]
    rfl
  have hatRest : ∀ c ∈ n.chans op.packet, m.atRest c = true := fun c hc => by
    obtain ⟨hv, ha⟩ := hrest c hc
    rw [atRest_of_notFollower (by rw [hstops.stance.kind]; exact (hfree c).1), hstops.stance.ownRest]
    simp [Node.ownRest, hv, ha]
  have hpool : m.core.pool = n.core.pool := congrArg Prod.fst hstops.ground
  have htime : m.time = n.time := congrArg (fun g => g.2.1) hstops.ground
  have hsent : m.sentTo (senderOf op.packet) = n.sentTo (senderOf op.packet) := congrArg (fun g => g.2.2 (senderOf op.packet)) hstops.ground
  have hmop : m.opOf op.order = some { op with phase := .committed } := by rw [← ho, Node.opOf, hpool]; rfl
  obtain ⟨hgone, hrests, hreply⟩ := restDone_stop (n := m.withRests [])
    (w := { op := some op.order, kind := .stop, chs := n.chans op.packet }) (op := { op with phase := .committed }) rfl rfl hmop hs
  refine ⟨_, cmdStop_of_running hall, ?_⟩
  rw [hstopped, settleRests_of_rest rfl rfl hatRest]
  refine ⟨hgone, hrests, hreply.trans ?_⟩
  rw [← hsent]
  unfold Node.finalReply Node.tick16
  rw [← htime]
  rfl

theorem effect_stop_of_rest (s : State) (p : Packet) (h : s.node.runsNow (asRow .stop p) = true)
    (hall : s.node.allRunning (asRow .stop p) = true) (hr : s.node.core.rests = [])
    (hfree : ∀ c, s.node.kind c ≠ .follower ∧ (s.node.core.slots.get c).active = none)
    (hrest : ∀ c ∈ s.node.chans (asRow .stop p), (s.node.core.slots.get c).sp.v = 0 ∧ (s.node.core.slots.get c).sp.a = 0) :
    Effect (.stop p) s fun m => s.node.replies (asRow .stop p) .done [[]] m ∧
      m.opOf (s.node.opFrom (asRow .stop p)).order = none ∧ m.core.rests = [] := by
  obtain ⟨_, hrun⟩ := runsNow_spec _ _ h
  have hreads := fun {β : Type} (g : Node → β) hg => atCommit_reads g hg (asRow .stop p) s.node h
  have hslots := hreads (fun n => n.core.slots) fun _ => rfl
  have hkind := hreads Node.kind fun _ => rfl
  have hchans := hreads (fun n => n.chans (asRow .stop p)) fun _ => rfl
  obtain ⟨m, hcmd, hgone, hrests, hreply⟩ := cmdStop_of_rest (op := s.node.opFrom (asRow .stop p))
    (n := s.node.atCommit (asRow .stop p))
    (by rw [hrun.packet, hreads (fun n => n.allRunning (asRow .stop p)) fun _ => rfl, hall])
    (by rw [hreads (fun n => n.core.rests) fun _ => rfl, hr])
    (by rwa [hkind, hslots]) (by rwa [hrun.packet, hchans, hslots]) (atCommit_opOf _ _ h) hrun.side
  rw [hrun.packet] at hreply
  refine ⟨_, rfl, ?_⟩
  rw [packetRow_of_ended h hcmd hgone]
  obtain ⟨_, htime, _⟩ := atCommit_spec _ _ h
  refine ⟨hreply.trans ?_, hgone, hrests⟩
  unfold Node.finalReply Node.tick16
  rw [htime]

/-! ### PARK -/

/-- Which slots are parked, and which outputs. -/
def Node.parks (n : Node) : (Ch → Bool) × (Ch → Bool) := (fun c => (n.core.slots.get c).parked, fun c => (n.core.outs.get c).parked)

theorem modSlot_parks (c : Ch) (f : Slot → Slot) (hf : ∀ s, (f s).parked = s.parked) (n : Node) : (n.modSlot c f).parks = n.parks := by
  refine Prod.ext (funext fun d => ?_) rfl
  by_cases h : d = c
  · simp only [Node.parks, h, modSlot_same, hf]
  · simp only [Node.parks, modSlot_other f n h]

theorem mapSlots_parks (f : Slot → Slot) (hf : ∀ s, (f s).parked = s.parked) (n : Node) :
    (n.modCore fun k => { k with slots := k.slots.map f }).parks = n.parks :=
  Prod.ext (funext fun d => by simp only [Node.parks, modCore_core, Quad.get_map, hf]) rfl

theorem parks_of_motion {m n : Node} (hs : m.core.slots = n.core.slots) (ho : m.core.outs = n.core.outs) : m.parks = n.parks := by
  rw [Node.parks, hs, ho]
  rfl

theorem endOrder_parks (o : Nat) (st : Status) (ws : List Word) (n : Node) : (n.endOrder o st ws).parks = n.parks := by
  obtain ⟨hslots, houts, _⟩ := endOrder_motion o st ws n
  exact parks_of_motion hslots houts

theorem endOpt_parks (o : Option Nat) (st : Status) (ws : List Word) (n : Node) : (n.endOpt o st ws).parks = n.parks := by
  cases o with
  | none => rfl
  | some o => exact endOrder_parks o st ws n

theorem slotOff_parks (c : Ch) (n : Node) : (n.slotOff c).parks = n.parks := by
  have hengine := cease_engine .ferr c.val n
  obtain ⟨_, hslots, houts⟩ := engine_parts hengine
  exact parks_of_motion hslots houts

theorem parked_of_stance {s t : Slot} (h : s.stance = t.stance) : s.parked = t.parked := congrArg (fun x => x.2.1) h

theorem releaseMotion_parks (o : Nat) (n : Node) : (n.releaseMotion o).parks = n.parks :=
  mapSlots_parks (Slot.released o) (fun s => parked_of_stance (s.released_stance o)) n

theorem endMotion_parks (c : Ch) (st : Status) (n : Node) : (n.endMotion c st).parks = n.parks := by
  cases ha : (n.core.slots.get c).active with
  | none => rw [endMotion_of_none st ha]
  | some a => rw [endMotion_of_active st ha, endOrder_parks, releaseMotion_parks]

theorem stopSlot_parks (c : Ch) (n : Node) : (n.stopSlot c).parks = n.parks := by
  unfold Node.stopSlot
  split
  · split
    · exact modSlot_parks _ _ (fun s => parked_of_stance (s.planStop_stance _)) n
    · rfl
  · split <;> rfl

theorem stopBy_parks (c : Ch) (n : Node) : (n.stopBy c).parks = n.parks := by
  unfold Node.stopBy
  rw [stopSlot_parks]
  split
  · exact endMotion_parks _ _ n
  · rfl

theorem leaveGroup_parks (c : Ch) (n : Node) : (n.leaveGroup c).parks = n.parks := by
  unfold Node.leaveGroup
  dsimp only
  split
  · exact mapSlots_parks _ (fun s => by split <;> rfl) n
  · exact modSlot_parks c _ (fun _ => by exact rfl) n
  · rfl

theorem disable_parks (c : Ch) (n : Node) : (n.disable c).parks = n.parks := by
  unfold Node.disable
  rw [slotOff_parks, modSlot_parks c _ (fun _ => by exact rfl), leaveGroup_parks]

theorem loopsOff_parks (n : Node) : n.loopsOff.parks = n.parks :=
  eachCh_part Node.parks _ (fun c m => by rw [slotOff_parks, modSlot_parks c _ fun _ => by exact rfl]) n

theorem enterMode_parks (md : Mode) (n : Node) : (n.modCore fun k => { k with mode := md }).parks = n.parks := rfl

theorem restDone_parks (w : RestWait) (n : Node) : (n.restDone w).parks = n.parks := by
  unfold Node.restDone
  split
  · rw [endOpt_parks, mapSlots_parks _ fun s => by split <;> rfl]
  · exact endOpt_parks _ _ _ n
  · rw [endOpt_parks, enterMode_parks, loopsOff_parks]
  · rw [enterMode_parks, loopsOff_parks]

/-- Waits for rest that end park no slot and release none. -/
theorem settleRests_parks (n : Node) : n.settleRests.parks = n.parks := by
  unfold Node.settleRests
  refine eachOf_part Node.parks _ (fun w m => ?_) n.core.rests (n.withRests [])
  dsimp only
  have hdisabled : (if w.kind = .disable then eachOf (w.chs.filter m.atRest) Node.disable m else m).parks = m.parks := by
    split
    · exact eachOf_part Node.parks Node.disable disable_parks _ m
    · rfl
  split
  · rw [restDone_parks, hdisabled]
  · exact hdisabled

/-- Channel `c` is parked: its slot and its output (R323). -/
def Node.parkedAt (c : Ch) (n : Node) : Prop := (n.core.slots.get c).parked = true ∧ (n.core.outs.get c).parked = true

theorem parkedAt_of_parks {c : Ch} {m n : Node} (h : m.parks = n.parks) : m.parkedAt c ↔ n.parkedAt c := by
  have hs := congrFun (congrArg Prod.fst h) c
  have ho := congrFun (congrArg Prod.snd h) c
  simp only [Node.parks] at hs ho
  rw [Node.parkedAt, Node.parkedAt, hs, ho]

theorem modSlot_modOut_parkedAt {c d : Ch} {f : Slot → Slot} {g : AOut → AOut} {n : Node} (hf : ∀ s, (f s).parked = true)
    (hg : ∀ o, (g o).parked = true) (h : d = c ∨ n.parkedAt d) : ((n.modSlot c f).modOut c g).parkedAt d := by
  by_cases hd : d = c
  · rw [hd]
    exact ⟨(congrArg Slot.parked (modSlot_same c f n)).trans (hf _), (congrArg AOut.parked (modOut_same c g _)).trans (hg _)⟩
  · obtain ⟨hslot, hout⟩ := h.resolve_left hd
    exact ⟨(congrArg Slot.parked (modSlot_other f n hd)).trans hslot, (congrArg AOut.parked (modOut_other g _ hd)).trans hout⟩

theorem parkOne_parkedAt {c d : Ch} {n : Node} (h : d = c ∨ n.parkedAt d) : (n.parkOne c).parkedAt d := by
  unfold Node.parkOne
  rw [parkedAt_of_parks (slotOff_parks c _)]
  exact modSlot_modOut_parkedAt (fun _ => rfl) (fun _ => rfl) h

/-- R323: a PARK parks its slot and releases none. -/
theorem parkSlot_parkedAt {c d : Ch} {n : Node} (h : d = c ∨ n.parkedAt d) : (n.parkSlot c).parkedAt d := by
  unfold Node.parkSlot
  rw [parkedAt_of_parks (settleRests_parks _)]
  refine parkOne_parkedAt (h.imp id fun hd => ?_)
  split
  · rwa [parkedAt_of_parks (stopBy_parks c _), parkedAt_of_parks (endMotion_parks c .aborted n)]
  · rwa [parkedAt_of_parks (endMotion_parks c .aborted n)]

theorem cmdPark_of_running {op : PoolOp} {n : Node} (h : n.allRunning op.packet = true) :
    cmdPark op n = (.ok [], eachOf (n.chans op.packet) Node.parkSlot n) := by
  unfold cmdPark
  rw [h]
  rfl

theorem effect_park (s : State) (p : Packet) (h : s.node.runsNow (asRow .park p) = true)
    (hall : s.node.allRunning (asRow .park p) = true) :
    Effect (.park p) s fun m => ∀ c ∈ s.node.chans (asRow .park p), m.parkedAt c := by
  obtain ⟨_, hrun⟩ := runsNow_spec _ _ h
  have hchans := atCommit_reads (fun n => n.chans (asRow .park p)) (fun _ => rfl) _ s.node h
  have hrunning := atCommit_reads (fun n => n.allRunning (asRow .park p)) (fun _ => rfl) _ s.node h
  have hcmd := cmdPark_of_running (op := s.node.opFrom (asRow .park p)) (n := s.node.atCommit (asRow .park p))
    (by rw [hrun.packet, hrunning, hall])
  rw [hrun.packet, hchans] at hcmd
  obtain ⟨hslots, houts⟩ := packetRow_motion cmdPark h
  refine ⟨_, rfl, fun c hc => (parkedAt_of_parks (parks_of_motion hslots houts)).mpr ?_⟩
  rw [hcmd]
  exact eachOf_reaches (fun _ => True) Node.parkedAt Node.parkSlot (fun _ _ _ => trivial) (fun _ _ _ => parkSlot_parkedAt (.inl rfl))
    (fun _ _ _ _ hd => parkSlot_parkedAt (.inr hd)) _ _ trivial c hc

/-! ### Commands that end by themselves -/

/-- The operation has left the pool, and its sender got DONE (R80). -/
def Node.endsDone (op : PoolOp) (n m : Node) : Prop :=
  m.opOf op.order = none ∧
    m.sentTo (senderOf op.packet) = n.sentTo (senderOf op.packet) ++ n.finalReply op.packet .done [[]] false

/-- A row that takes its command from a slot and ends it is DONE, and leaves the slot as the change of it says. -/
theorem endsDone_of_modSlot {n : Node} {op : PoolOp} (c : Ch) (ho : n.opOf op.order = some op) (hs : op.side = .here)
    (f : Slot → Slot) :
    n.endsDone op ((n.modSlot c f).endOrder op.order .done []) ∧
      ((n.modSlot c f).endOrder op.order .done []).core.slots.get c = f (n.core.slots.get c) := by
  have hop : (n.modSlot c f).opOf op.order = some op := ho
  obtain ⟨hslots, _⟩ := endOrder_motion op.order .done [] (n.modSlot c f)
  exact ⟨endOrder_ends .done _ hop hs, by rw [hslots, modSlot_same]⟩

section
variable {s : State} {c : Ch} {op : PoolOp} (hup : s.node.up = true) (ho : s.node.opOf op.order = some op) (hs : op.side = .here)
include hup ho hs

/-- R307: a move that has arrived is DONE. -/
theorem effect_moveArrival (hact : (s.node.core.slots.get c).active = some (op.order, .move))
    (harr : (s.node.core.slots.get c).arrived = true) : Effect (.moveArrival c) s fun m => s.node.endsDone op m ∧
      (m.core.slots.get c).active = none ∧ (m.core.slots.get c).target = none := by
  refine effect_of_up rfl hup ?_
  unfold Node.moveArrived
  simp only [hact, harr, Bool.not_true, Bool.false_eq_true, if_false]
  obtain ⟨hdone, hslot⟩ := endsDone_of_modSlot c ho hs fun x => { x with active := none, arrived := false, target := none }
  exact ⟨hdone, by rw [hslot], by rw [hslot]⟩

/-- R322: a STOP whose slots have come to rest is DONE. -/
theorem effect_stopAtRest (w : RestWait) (hr : s.node.core.rests = [w]) (hk : w.kind = .stop) (hw : w.op = some op.order)
    (hall : w.chs.all s.node.atRest = true) (hc : s.node.atRest c = true) :
    Effect (.stopAtRest c) s fun m => s.node.endsDone op m ∧ m.core.rests = [] := by
  refine effect_of_up rfl hup ?_
  rw [hc, if_pos rfl, settleRests_of_rest hr hk (List.all_eq_true.mp hall)]
  obtain ⟨hgone, hrests, hsent⟩ := restDone_stop (n := s.node.withRests []) hk hw ho hs
  exact ⟨⟨hgone, hsent⟩, hrests⟩

/-- R312: a jog whose setpoint has reached its velocity is DONE, and the setpoint goes on. -/
theorem effect_jogVelocityReached (v : Int) (hact : (s.node.core.slots.get c).active = some (op.order, .jog))
    (hend : (s.node.core.slots.get c).planEnd = .velocity v) (hv : (s.node.core.slots.get c).sp.v = v)
    (ha : (s.node.core.slots.get c).sp.a = 0) : Effect (.jogVelocityReached c) s fun m => s.node.endsDone op m ∧
      (m.core.slots.get c).active = none ∧ (m.core.slots.get c).sp = (s.node.core.slots.get c).sp := by
  refine effect_of_up rfl hup ?_
  unfold Node.jogReached
  simp only [hact, hend, hv, ha, and_self, if_true]
  obtain ⟨hdone, hslot⟩ := endsDone_of_modSlot c ho hs fun x => { x with active := none }
  exact ⟨hdone, by rw [hslot], by rw [hslot]⟩

end

/-- Settles O32: the end of a slot's earlier command leaves how the slots stand, so a STOP brakes the profile it finds or has nothing to
wait for; a PARK parks its slot and nothing after it releases one; and a row that ends a command drops its operation behind the reply. -/
theorem motionEnds : Obligations.MotionEnds :=
  ⟨fun s p c h hall hr hc hk hact hmoves => effect_stop_of_moving s p c h hall hr hc hk hact hmoves, effect_stop_of_rest, effect_park,
    fun _ _ _ hup ho hs => ⟨effect_moveArrival hup ho hs, effect_stopAtRest hup ho hs, effect_jogVelocityReached hup ho hs⟩⟩

end Sys2Proof.Machine
end

section
/-!
PROOFS. CLRN and the wave commands (10_analog_outputs.md R345 to R354, R357, R359 to R361): the clears that follow the pin, WAVE_LOAD,
WAVE_PLAY and WAVE_STOP.
-/
namespace Sys2Proof.Machine

/-! ### CLRN -/

theorem startClear_same (c : Ch) (n : Node) : ((n.startClear c).core.outs.get c).cleared = true := by
  unfold Node.startClear
  split
  · assumption
  · rw [modOut_same]

theorem startClear_keeps {c d : Ch} {n : Node} (h : (n.core.outs.get c).cleared = true) :
    ((n.startClear d).core.outs.get c).cleared = true := by
  by_cases hd : c = d
  · rw [hd, startClear_same]
  · unfold Node.startClear
    split
    · exact h
    · rwa [modOut_other _ n hd]

theorem startClear_params (c : Ch) (n : Node) : (n.startClear c).core.params = n.core.params := by
  unfold Node.startClear
  split <;> rfl

theorem clearsLow_power (n : Node) : n.clearsLow.power = n.power := by
  refine eachCh_part Node.power _ (fun c m => ?_) n
  unfold Node.startClear
  split
  · split <;> rfl
  · rfl

/-- R359: every output that takes part is cleared while CLRN is low. -/
theorem clearsLow_cleared (n : Node) (c : Ch) (h : n.parN Pid.dacClren c.val = 1) : (n.clearsLow.core.outs.get c).cleared = true := by
  refine eachCh_reaches (fun m => m.core.params = n.core.params)
    (fun c m => n.parN Pid.dacClren c.val = 1 → (m.core.outs.get c).cleared = true) _
    (fun c m hm => ?params) (fun c m hm hc => ?own) (fun c d m hkept hc => ?other) n rfl c h
  case params =>
    split
    · rwa [startClear_params]
    · exact hm
  case own =>
    have hpar : m.parN Pid.dacClren c.val = 1 := by rwa [Node.parN, hm]
    rw [if_pos hpar]
    exact startClear_same c m
  case other =>
    split
    · exact startClear_keeps (hkept hc)
    · exact hkept hc

theorem endClear_power (c : Ch) (n : Node) : (n.endClear c).power = n.power := by
  unfold Node.endClear
  split
  · rfl
  · dsimp only
    split <;> rfl

/-- The outputs after the end of a clear: only the output named changes, and it is cleared no more (R361). -/
theorem endClear_outs (c : Ch) (n : Node) : ∃ o : AOut, o.cleared = false ∧ (n.endClear c).core.outs = n.core.outs.set c o := by
  unfold Node.endClear
  split
  case isTrue h => exact ⟨n.core.outs.get c, by simpa using h, (Quad.set_get_self _ _).symm⟩
  case isFalse =>
    dsimp only
    split <;> exact ⟨_, rfl, rfl⟩

theorem eachCh_endClear (n : Node) (c : Ch) : ((eachCh Node.endClear n).core.outs.get c).cleared = false := by
  refine eachCh_reaches (fun _ => True) (fun c m => (m.core.outs.get c).cleared = false) _ (fun _ _ _ => trivial)
    (fun c m _ => ?own) (fun c d m hc => ?other) n trivial c
  case own =>
    obtain ⟨o, ho, houts⟩ := endClear_outs c m
    rwa [houts, Quad.get_set_same]
  case other =>
    obtain ⟨o, ho, houts⟩ := endClear_outs d m
    by_cases hd : c = d
    · rwa [houts, hd, Quad.get_set_same]
    · rwa [houts, Quad.get_set_other _ _ _ _ hd]

/-- A change of a pin that the core, while it is up, acts on. -/
theorem effect_of_pin {c : Instr} {s : State} {f : Power → Power} {g : Node → Node} {P : Node → Prop}
    (hrow : exec c s = s.upd fun n => (n.modPower f).whenUp g) (hup : s.node.up = true) (h : P (g (s.node.modPower f))) :
    Effect c s P :=
  ⟨(s.node.modPower f).whenUp g, hrow, (whenUp_of_up g (s.node.modPower f) hup).symm ▸ h⟩

/-- Settles O14: a clear that has started is kept by what follows it in the row, and the end of one clear touches no other output. -/
theorem clrnClearsOutputs : Obligations.ClrnClearsOutputs := by
  refine ⟨fun s t hup => effect_of_pin rfl hup ?fall, fun s t hup => effect_of_pin rfl hup ?rise⟩
  all_goals
    rw [Node.clrnEvent, event_power, event_core]
  case fall => exact ⟨congrArg Power.clrn (clearsLow_power _), fun c h => clearsLow_cleared _ c h⟩
  case rise => exact ⟨congrArg Power.clrn (eachCh_part Node.power Node.endClear endClear_power _), eachCh_endClear _⟩

/-! ### Wave memory and tables -/

/-- R347: a region filled with zero codes reads zero, and every other place as before. -/
theorem WaveMem.get_zero (m : WaveMem) (base len i : Nat) :
    (m.zero base len).get i = if base ≤ i ∧ i < base + len then 0 else m.get i := by
  induction m with
  | nil => exact (ite_self (WaveMem.get [] i)).symm
  | cons e es ih =>
    unfold WaveMem.zero at ih ⊢
    rw [List.filter_cons, WaveMem.get_cons]
    split
    case isTrue hkept =>
      rw [WaveMem.get_cons, ih]
      by_cases hi : e.1 = i
      · have hout : ¬ (base ≤ i ∧ i < base + len) := by
          simp only [Bool.or_eq_true, decide_eq_true_eq] at hkept
          omega
        rw [if_pos hi, if_neg hout, if_pos hi]
      · rw [if_neg hi, if_neg hi]
    case isFalse hgone =>
      rw [ih]
      by_cases hi : e.1 = i
      · have hin : base ≤ i ∧ i < base + len := by
          simp only [Bool.or_eq_true, decide_eq_true_eq] at hgone
          omega
        rw [if_pos hin, if_pos hin]
      · rw [if_neg hi]

/-- R346: samples written from a place on read in order from there, and every other place reads as before. -/
theorem WaveMem.get_putAll (vs : List (BitVec 18)) (m : WaveMem) (a i : Nat) (h : m.wf = true) :
    (m.putAll a vs).get i = if a ≤ i then (vs[i - a]?).getD (m.get i) else m.get i := by
  induction vs generalizing m a with
  | nil => rw [WaveMem.putAll, List.getElem?_nil, Option.getD_none, ite_self]
  | cons v vs ih =>
    rw [WaveMem.putAll, ih _ _ (WaveMem.put_wf m a v h), WaveMem.get_put m a i v h]
    rcases Nat.lt_trichotomy i a with hlt | rfl | hgt
    · rw [if_neg (by omega), if_neg (by omega), if_neg (by omega)]
    · rw [if_neg (by omega), if_pos rfl, if_pos (Nat.le_refl i), Nat.sub_self, List.getElem?_cons_zero, Option.getD_some]
    · obtain ⟨k, rfl⟩ := Nat.exists_eq_add_of_lt hgt
      have hplace : a + k + 1 - a = k + 1 := by omega
      have hrest : a + k + 1 - (a + 1) = k := by omega
      rw [if_pos (by omega), if_neg (by omega), if_pos (by omega), hplace, hrest, List.getElem?_cons_succ]

theorem WaveMem.get_putAll_listed {vs : List (BitVec 18)} {m : WaveMem} {i : Nat} {v : BitVec 18} (a : Nat) (h : m.wf = true)
    (hv : vs[i]? = some v) : (m.putAll a vs).get (a + i) = v := by
  rw [WaveMem.get_putAll vs m a _ h, if_pos (Nat.le_add_right a i), Nat.add_sub_cancel_left, hv, Option.getD_some]

theorem WaveMem.get_putAll_outside {vs : List (BitVec 18)} {m : WaveMem} {a i : Nat} (h : m.wf = true)
    (hi : i < a ∨ a + vs.length ≤ i) : (m.putAll a vs).get i = m.get i := by
  rw [WaveMem.get_putAll vs m a i h]
  rcases hi with hbefore | hbehind
  · rw [if_neg (by omega)]
  · rw [List.getElem?_eq_none (by omega), Option.getD_none, ite_self]

theorem Waves.table_setTable {w : Waves} {t : Nat} (x : WaveTable) (h : t < w.tables.length) : (w.setTable t x).table t = x := by
  rw [Waves.table, Waves.setTable, listSet_getElem?_same, List.getElem?_eq_getElem h]
  rfl

/-! ### The word of a WAVE_LOAD -/

/-- Word 0 of a packet as WAVE_LOAD reads it (R346): the operation, the table, the place, the number of samples, and whether the table
persists. -/
structure WaveLoadWord (q : Packet) (kind t place count : Nat) (persist : Bool) : Prop where
  kind : fld (pw q 0) 5 4 = kind
  table : fld (pw q 0) 3 0 = t
  place : fld (pw q 0) 21 8 = place
  count : fld (pw q 0) 36 22 = count
  persist : bitOf (pw q 0) 6 = persist

/-- The operation of WAVE_LOAD is named beside the other fields of its word. -/
theorem withBits_waveLoad_fields {v : Nat} (hv : v < 4) (p : Packet) :
    fld (pw (withBits 4 2 v p) 0) 3 0 = fld (pw p 0) 3 0 ∧ fld (pw (withBits 4 2 v p) 0) 21 8 = fld (pw p 0) 21 8 ∧
      fld (pw (withBits 4 2 v p) 0) 36 22 = fld (pw p 0) 36 22 ∧ bitOf (pw (withBits 4 2 v p) 0) 6 = bitOf (pw p 0) 6 := by
  unfold withBits
  split
  · exact ⟨rfl, rfl, rfl, rfl⟩
  · rename_i x xs hws
    have hx := x.isLt
    simp only [pw, hws, List.getD_cons_zero, fld, wN, bitOf, BitVec.getLsbD, Nat.testBit_eq_decide_div_mod_eq, BitVec.toNat_ofNat,
      Nat.shiftRight_eq_div_pow, decide_eq_decide]
    omega

theorem opcodeOf_waveLoad (v : Nat) (p : Packet) : opcodeOf (withBits 4 2 v (asRow .waveLoad p)) = some .waveLoad := by
  rw [opcodeOf_withBits, opcodeOf_asRow]

/-- The word of a WAVE_LOAD that runs now names the operation of its row, and is otherwise the packet's. -/
theorem waveLoad_word {v : Nat} (hv : v < 4) {p : Packet} {n : Node} (h : n.runsNow (withBits 4 2 v (asRow .waveLoad p)) = true) :
    WaveLoadWord (withBits 4 2 v (asRow .waveLoad p)) v (fld (pw p 0) 3 0) (fld (pw p 0) 21 8) (fld (pw p 0) 36 22)
      (bitOf (pw p 0) 6) := by
  have hfit := runsNow_wordsFit _ n .waveLoad h (opcodeOf_waveLoad v p)
  have hne : p.words ≠ [] := fun he => by simp [wordsFit, withBits, he, pw, fld] at hfit
  obtain ⟨htable, hplace, hcount, hpersist⟩ := withBits_waveLoad_fields hv (asRow .waveLoad p)
  exact ⟨withBits_fld 4 1 v (asRow .waveLoad p) hne hv (by decide), htable, hplace, hcount, hpersist⟩

/-! ### What WAVE_LOAD does -/

/-- No playback uses a table (R348). -/
def Waves.unplayed (w : Waves) (t : Nat) : Prop := ∀ q ∈ w.plays, q.table ≠ t

theorem Waves.any_of_unplayed {w : Waves} {t : Nat} (h : w.unplayed t) : (w.plays.any fun q => q.table == t) = false :=
  List.any_eq_false.mpr fun q hq => by simpa using h q hq

section
variable {op : PoolOp} {n : Node} {t place count : Nat} {persist : Bool}

/-- R347: DEFINE of a region inside the memory that meets no other table. -/
theorem cmdWaveLoad_define (hw : WaveLoadWord op.packet 0 t place count persist) (hfree : n.core.waves.unplayed t)
    (hend : place + count ≤ 16384) (hmeet : n.core.waves.meetsOther t place count = false) :
    cmdWaveLoad op n = waveDefine t place count persist n := by
  obtain ⟨hkind, htable, hplace, hcount, hpersist⟩ := hw
  simp only [cmdWaveLoad, hkind, htable, hplace, hcount, hpersist, hmeet, Waves.any_of_unplayed hfree, Nat.not_lt.mpr hend,
    decide_false, BEq.rfl, Nat.reduceBEq, Bool.or_self, Bool.and_false, Bool.false_and, Bool.false_eq_true, ↓reduceIte]

/-- R346: DATA inside a FILLING table. -/
theorem cmdWaveLoad_data (hw : WaveLoadWord op.packet 1 t place count persist) (hfree : n.core.waves.unplayed t)
    (hstate : (n.core.waves.table t).state = .filling) (hend : place + count ≤ (n.core.waves.table t).len) :
    cmdWaveLoad op n = (.ok [], n.modWaves fun v =>
      { v with mem := v.mem.putAll ((n.core.waves.table t).base + place) ((samplesOf (op.packet.words.drop 1)).take count) }) := by
  obtain ⟨hkind, htable, hplace, hcount, -⟩ := hw
  simp only [cmdWaveLoad, hkind, htable, hplace, hcount, hstate, Waves.any_of_unplayed hfree, Nat.not_lt.mpr hend, decide_false,
    BEq.rfl, bne_self_eq_false, Nat.reduceBEq, Bool.or_self, Bool.or_false, Bool.and_false, Bool.false_and, Bool.false_eq_true,
    ↓reduceIte]

/-- R347, R349: SEAL of a FILLING table. -/
theorem cmdWaveLoad_seal (hw : WaveLoadWord op.packet 2 t place count persist) (hfree : n.core.waves.unplayed t)
    (hstate : (n.core.waves.table t).state = .filling) : cmdWaveLoad op n = waveSeal op t n := by
  obtain ⟨hkind, htable, -⟩ := hw
  simp only [cmdWaveLoad, hkind, htable, hstate, Waves.any_of_unplayed hfree, BEq.rfl, bne_self_eq_false, Nat.reduceBEq,
    Bool.or_self, Bool.or_true, Bool.and_false, Bool.false_and, Bool.false_eq_true, ↓reduceIte]

/-- R347: DELETE. -/
theorem cmdWaveLoad_delete (hw : WaveLoadWord op.packet 3 t place count persist) (hfree : n.core.waves.unplayed t) :
    cmdWaveLoad op n = (.ok [], (n.unpersist t).modWaves (Waves.setTable t {})) := by
  obtain ⟨hkind, htable, -⟩ := hw
  simp only [cmdWaveLoad, hkind, htable, Waves.any_of_unplayed hfree, Nat.reduceBEq, Bool.or_self, Bool.false_and,
    Bool.false_eq_true, ↓reduceIte]

end

theorem unpersist_core (t : Nat) (n : Node) : (n.unpersist t).core = n.core := by
  unfold Node.unpersist
  dsimp only
  split <;> rfl

/-- The node whose table is LOADED. -/
def Node.sealTable (t : Nat) (n : Node) : Node := n.modWaves (Waves.setTable t { n.core.waves.table t with state := .loaded })

/-- R347, R349: what SEAL does: a persistent table is written to the store, any other is done with its CRC. -/
theorem waveSeal_eq (op : PoolOp) (t : Nat) (n : Node) : waveSeal op t n =
    let samples := n.core.waves.samples t
    if (n.core.waves.table t).persist then
      (.wait, (n.sealTable t).storeWrite (.wave { table := t, base := (n.core.waves.table t).base, samples := samples })
        (some op.order) [wN (waveCrc samples)])
    else (.ok [wN (waveCrc samples)], n.sealTable t) := rfl

theorem waveSeal_core (op : PoolOp) (t : Nat) (n : Node) : (waveSeal op t n).2.core = (n.sealTable t).core := by
  rw [waveSeal_eq]
  dsimp only
  split <;> rfl

/-- The wave memory, the tables and the playbacks after a command that runs now are those that its effect leaves. -/
theorem packetRow_waves (f : PoolOp → Node → Ans × Node) {q : Packet} {n : Node} (h : n.runsNow q = true) :
    (n.packetRow f q).core.waves = (f (n.opFrom q) (n.atCommit q)).2.core.waves := by
  have hbody := congrArg Core.waves (packetRow_sameBut f q n h).core
  exact hbody

theorem atCommit_waves {q : Packet} {n : Node} (h : n.runsNow q = true) : (n.atCommit q).core.waves = n.core.waves :=
  atCommit_reads (fun n => n.core.waves) (fun _ => rfl) q n h

section
variable {q : Packet} {n : Node} {t place count : Nat} {persist : Bool} (h : n.runsNow q = true) (ht : t < n.core.waves.tables.length)
  (hfree : n.core.waves.unplayed t)
include h hfree

include ht in
/-- R347, R348: DEFINE gives a FILLING table of zero codes and leaves every other place. -/
theorem waveLoad_define (hw : WaveLoadWord q 0 t place count persist) (hend : place + count ≤ 16384)
    (hmeet : n.core.waves.meetsOther t place count = false) :
    (n.packetRow cmdWaveLoad q).core.waves.table t = { state := .filling, base := place, len := count, persist := persist } ∧
      ∀ i, (n.packetRow cmdWaveLoad q).core.waves.mem.get i =
        if place ≤ i ∧ i < place + count then 0 else n.core.waves.mem.get i := by
  obtain ⟨_, hr⟩ := runsNow_spec q n h
  have hwaves := atCommit_waves h
  rw [packetRow_waves cmdWaveLoad h,
    cmdWaveLoad_define (by rwa [hr.packet]) (by rwa [hwaves]) hend (by rwa [hwaves])]
  simp only [waveDefine, modWaves_core, unpersist_core, hwaves]
  exact ⟨Waves.table_setTable (w := n.core.waves) _ ht, WaveMem.get_zero n.core.waves.mem place count⟩

/-- R346: DATA writes its samples from their place in the table on, and nothing else of the memory or the tables. -/
theorem waveLoad_data (hw : WaveLoadWord q 1 t place count persist) (hstate : (n.core.waves.table t).state = .filling)
    (hend : place + count ≤ (n.core.waves.table t).len) :
    (n.packetRow cmdWaveLoad q).core.waves.tables = n.core.waves.tables ∧
      (n.packetRow cmdWaveLoad q).core.waves.mem =
        n.core.waves.mem.putAll ((n.core.waves.table t).base + place) ((samplesOf (q.words.drop 1)).take count) := by
  obtain ⟨_, hr⟩ := runsNow_spec q n h
  have hwaves := atCommit_waves h
  rw [packetRow_waves cmdWaveLoad h, cmdWaveLoad_data (by rwa [hr.packet]) (by rwa [hwaves]) (by rwa [hwaves]) (by rwa [hwaves])]
  simp only [modWaves_core, hwaves, hr.packet, and_self]

/-- R347: the command of a SEAL that runs now on a FILLING table. -/
theorem cmdWaveLoad_sealRuns (hw : WaveLoadWord q 2 t place count persist) (hstate : (n.core.waves.table t).state = .filling) :
    cmdWaveLoad (n.opFrom q) (n.atCommit q) = waveSeal (n.opFrom q) t (n.atCommit q) := by
  obtain ⟨_, hr⟩ := runsNow_spec q n h
  have hwaves := atCommit_waves h
  exact cmdWaveLoad_seal (by rwa [hr.packet]) (by rwa [hwaves]) (by rwa [hwaves])

/-- R347: SEAL makes the table LOADED and leaves the memory. -/
theorem waveLoad_seal (hw : WaveLoadWord q 2 t place count persist) (hstate : (n.core.waves.table t).state = .filling) :
    (n.packetRow cmdWaveLoad q).core.waves = n.core.waves.setTable t { n.core.waves.table t with state := .loaded } := by
  rw [packetRow_waves cmdWaveLoad h, cmdWaveLoad_sealRuns h hfree hw hstate, waveSeal_core, Node.sealTable, modWaves_core,
    atCommit_waves h]

/-- R347: SEAL of a table that does not persist is done with its CRC. -/
theorem waveLoad_seal_replies (hw : WaveLoadWord q 2 t place count persist) (hstate : (n.core.waves.table t).state = .filling)
    (hp : (n.core.waves.table t).persist = false) :
    n.replies q .done [[wN (waveCrc (n.core.waves.samples t))]] (n.packetRow cmdWaveLoad q) := by
  have hcmd := cmdWaveLoad_sealRuns h hfree hw hstate
  rw [waveSeal_eq, atCommit_waves h] at hcmd
  dsimp only at hcmd
  rw [hp, if_neg Bool.false_ne_true] at hcmd
  exact packetRow_replies h hcmd rfl

/-- R349: SEAL of a persistent table goes on with a store write of its samples. -/
theorem waveLoad_seal_goesOn (hw : WaveLoadWord q 2 t place count persist) (hstate : (n.core.waves.table t).state = .filling)
    (hp : (n.core.waves.table t).persist = true) :
    n.goesOn q (n.packetRow cmdWaveLoad q) ∧ ∃ w : StoreWrite, (n.packetRow cmdWaveLoad q).store.writes = n.store.writes ++ [w] ∧
      w.op = some (n.opFrom q).order ∧
      w.kind = .wave { table := t, base := (n.core.waves.table t).base, samples := n.core.waves.samples t } := by
  have hcmd := cmdWaveLoad_sealRuns h hfree hw hstate
  rw [waveSeal_eq, atCommit_waves h] at hcmd
  dsimp only at hcmd
  rw [hp, if_pos rfl] at hcmd
  have hstore : (n.atCommit q).store = n.store := atCommit_reads Node.store (fun _ => rfl) q n h
  refine ⟨packetRow_goesOn h hcmd rfl,
    { kind := .wave _, op := some _, words := [wN (waveCrc (n.core.waves.samples t))] }, ?_, rfl, rfl⟩
  rw [(packetRow_sameBut cmdWaveLoad q n h).store, hcmd, ← hstore]
  rfl

include ht in
/-- R347: DELETE frees the table and leaves the memory. -/
theorem waveLoad_delete (hw : WaveLoadWord q 3 t place count persist) :
    (n.packetRow cmdWaveLoad q).core.waves.table t = {} ∧ (n.packetRow cmdWaveLoad q).core.waves.mem = n.core.waves.mem := by
  obtain ⟨_, hr⟩ := runsNow_spec q n h
  have hwaves := atCommit_waves h
  rw [packetRow_waves cmdWaveLoad h, cmdWaveLoad_delete (by rwa [hr.packet]) (by rwa [hwaves]), modWaves_core, unpersist_core, hwaves]
  exact ⟨Waves.table_setTable _ ht, rfl⟩

end

/-! ### Playbacks that a WAVE_PLAY makes -/

/-- The node with one more playback. -/
def Node.withPlay (x : Playback) (n : Node) : Node := n.modWaves fun v => { v with plays := v.plays ++ [x] }

/-- The node with one more playback, whose run starts at P0 of the tick in progress. -/
def Node.startPlay (x : Playback) (n : Node) : Node :=
  ((n.withPlay x).waveStart x).modPlay x.op fun y => { y with start := n.time.p0e }

theorem waveEnter_pool (x : Playback) (j : Nat) (n : Node) : (n.waveEnter x j).core.pool = n.core.pool :=
  eachOf_part (fun m => m.core.pool) (fun c m => m.modOut c (writeInput (n.core.waves.sample x j))) (fun _ _ => rfl) x.outs n

theorem waveStart_pool (x : Playback) (n : Node) : (n.waveStart x).core.pool = n.core.pool := by
  unfold Node.waveStart
  split
  · rfl
  · exact waveEnter_pool x 0 n

theorem startPlay_opOf (x : Playback) (o : Nat) (n : Node) : (n.startPlay x).opOf o = n.opOf o := by
  have hpool : (n.startPlay x).core.pool = n.core.pool := waveStart_pool x (n.withPlay x)
  rw [Node.opOf, hpool]
  rfl

theorem mem_plays_modPlay {n : Node} {x : Playback} {op : Nat} (hx : x ∈ n.core.waves.plays) (hop : x.op = op)
    (f : Playback → Playback) : f x ∈ (n.modPlay op f).core.waves.plays :=
  List.mem_map.mpr ⟨x, hx, if_pos (beq_iff_eq.mpr hop)⟩

/-- R354: a playback under TICK timing that starts is running, and its sample 0 is in the input registers of its outputs. -/
theorem waveStart_of_tick {n : Node} {x : Playback} {d : Nat} (hd : x.timing = .tick d) (hx : x ∈ n.core.waves.plays) :
    (∃ y ∈ (n.waveStart x).core.waves.plays, y.op = x.op ∧ y.running = true ∧ y.outs = x.outs ∧ y.next = 1) ∧
      ∀ c ∈ x.outs, ((n.waveStart x).core.outs.get c).inreg = n.core.waves.sample x 0 := by
  unfold Node.waveStart
  rw [hd]
  dsimp only
  have hentered : x ∈ (n.waveEnter x 0).core.waves.plays := by rwa [waveEnter_waves]
  exact ⟨⟨_, mem_plays_modPlay hentered rfl _, rfl, rfl, rfl, rfl⟩, waveEnter_inreg x 0 n⟩

theorem startPlay_of_tick {n : Node} {x : Playback} {d : Nat} (hd : x.timing = .tick d) :
    (∃ y ∈ (n.startPlay x).core.waves.plays, y.op = x.op ∧ y.running = true ∧ y.outs = x.outs ∧
        y.start = n.time.p0e ∧ y.next = 1) ∧
      ∀ c ∈ x.outs, ((n.startPlay x).core.outs.get c).inreg = n.core.waves.mem.get (n.core.waves.table x.table).base := by
  have hadded : x ∈ (n.withPlay x).core.waves.plays := List.mem_append_right _ List.mem_cons_self
  have hfirst : (n.withPlay x).core.waves.sample x 0 = n.core.waves.mem.get (n.core.waves.table x.table).base := by
    rw [Waves.sample, Nat.zero_mod]
    rfl
  obtain ⟨⟨y, hy, hop, hrun, houts, hnext⟩, hreg⟩ := waveStart_of_tick hd hadded
  exact ⟨⟨_, mem_plays_modPlay hy hop _, hop, hrun, houts, rfl, hnext⟩, hfirst ▸ hreg⟩

/-! ### WAVE_PLAY -/

/-- The playback that a WAVE_PLAY makes (R350, R353). -/
def playbackFor (op : PoolOp) (n : Node) : Playback :=
  playOf op (n.chans op.packet) (n.time.p0e + ltSub (ltOf (pw op.packet 2) (pw op.packet 3)) n.time.lt)

/-- The playback of a packet that runs now is what its words ask for. -/
theorem playbackFor_opFrom {q : Packet} {n : Node} (h : n.runsNow q = true) : let x := playbackFor (n.opFrom q) n
    x.outs = n.chans q ∧ x.table = fld (pw q 0) 3 0 ∧ x.trigger = triggerOf (pw q 0) ∧
      x.start = n.time.p0e + ltSub (ltOf (pw q 2) (pw q 3)) n.time.lt ∧
      x.timing = if bitOf (pw q 0) 29 then .schedule (pw q 1).toNat else .tick (fld (pw q 1) 16 0) := by
  obtain ⟨_, hr⟩ := runsNow_spec q n h
  dsimp only [playbackFor, playOf]
  rw [hr.packet]
  exact ⟨rfl, rfl, rfl, rfl, rfl⟩

/-- The outputs and the table of a WAVE_PLAY suit it (R351, R352): every output takes waves and is free, and the table is LOADED. -/
def Node.playsOn (n : Node) (q : Packet) : Prop :=
  n.chans q ≠ [] ∧ (n.core.waves.table (fld (pw q 0) 3 0)).state = .loaded ∧ ∀ c ∈ n.chans q, n.src c = 1 ∧ n.playOn c = none

/-- The form and the time of a WAVE_PLAY suit it (R350, R353): SCHEDULE only with COMMAND and at a time to come, REARM neither with
COMMAND nor with LOOP. -/
def Node.playsAs (n : Node) (q : Packet) : Prop :=
  (bitOf (pw q 0) 29 = true → fld (pw q 0) 23 22 = 0 ∧ ltLe (ltOf (pw q 2) (pw q 3)) n.time.lt = false) ∧
    (bitOf (pw q 0) 28 = true → fld (pw q 0) 5 4 ≠ 1 ∧ fld (pw q 0) 23 22 ≠ 0)

/-- R350 to R354: a WAVE_PLAY that nothing refuses adds its playback, which starts at once for COMMAND and TICK. -/
theorem cmdWavePlay_of_playsOn {op : PoolOp} {n : Node} (hon : n.playsOn op.packet) (has : n.playsAs op.packet) :
    cmdWavePlay op n = (.wait,
      if (fld (pw op.packet 0) 23 22 == 0 && !bitOf (pw op.packet 0) 29) = true then n.startPlay (playbackFor op n)
      else n.withPlay (playbackFor op n)) := by
  obtain ⟨hnamed, hloaded, hfree⟩ := hon
  obtain ⟨hschedule, hrearm⟩ := has
  have hparam : ((bitOf (pw op.packet 0) 29 && !(fld (pw op.packet 0) 23 22 == 0)) ||
      (bitOf (pw op.packet 0) 28 && (fld (pw op.packet 0) 5 4 == 1 || fld (pw op.packet 0) 23 22 == 0)) ||
      (n.chans op.packet).isEmpty) = false := by
    simpa [hnamed] using ⟨fun h => (hschedule h).1, hrearm⟩
  have hsrc : ((n.chans op.packet).any fun c => n.src c != 1) = false :=
    List.any_eq_false.mpr fun c hc => by simp [(hfree c hc).1]
  have hplays : ((n.chans op.packet).any fun c => (n.playOn c).isSome) = false :=
    List.any_eq_false.mpr fun c hc => by simp [(hfree c hc).2]
  have htime : (bitOf (pw op.packet 0) 29 && ltLe (ltOf (pw op.packet 2) (pw op.packet 3)) n.time.lt) = false := by
    simpa using fun h => (hschedule h).2
  unfold cmdWavePlay
  dsimp only
  rw [hparam, hsrc, hplays, htime, hloaded, ← apply_ite (Prod.mk Ans.wait)]
  rfl

section
variable {q : Packet} {n : Node} (h : n.runsNow q = true) (hon : n.playsOn q)
include h hon

/-- A WAVE_PLAY that runs now finds its outputs, its table and the time as they were before the packet. -/
theorem cmdWavePlay_runs (has : n.playsAs q) : cmdWavePlay (n.opFrom q) (n.atCommit q) = (.wait,
    if (fld (pw q 0) 23 22 == 0 && !bitOf (pw q 0) 29) = true then (n.atCommit q).startPlay (playbackFor (n.opFrom q) n)
    else (n.atCommit q).withPlay (playbackFor (n.opFrom q) n)) := by
  obtain ⟨_, hr⟩ := runsNow_spec q n h
  have hreads := fun {β : Type} (g : Node → β) hg => atCommit_reads g hg q n h
  rw [cmdWavePlay_of_playsOn (by rwa [hr.packet, hreads (fun n => n.playsOn q) fun _ => rfl])
    (by rwa [hr.packet, hreads (fun n => n.playsAs q) fun _ => rfl]), hr.packet, hreads (playbackFor (n.opFrom q)) fun _ => rfl]

/-- R354: a WAVE_PLAY of COMMAND and TICK is running from P0 of its tick, with sample 0 in its outputs' input registers. -/
theorem wavePlay_starts (hcommand : fld (pw q 0) 23 22 = 0) (htick : bitOf (pw q 0) 29 = false) (honce : bitOf (pw q 0) 28 = false) :
    n.goesOn q (n.packetRow cmdWavePlay q) ∧
      (∃ x ∈ (n.packetRow cmdWavePlay q).core.waves.plays, x.op = (n.opFrom q).order ∧ x.running = true ∧ x.outs = n.chans q ∧
        x.start = n.time.p0e ∧ x.next = 1) ∧
      ∀ c ∈ n.chans q, ((n.packetRow cmdWavePlay q).core.outs.get c).inreg =
        n.core.waves.mem.get (n.core.waves.table (fld (pw q 0) 3 0)).base := by
  have hcmd := cmdWavePlay_runs h hon ⟨by simp [htick], by simp [honce]⟩
  have hnow : (fld (pw q 0) 23 22 == 0 && !bitOf (pw q 0) 29) = true := by simp [hcommand, htick]
  rw [if_pos hnow] at hcmd
  obtain ⟨houts, htable, -, -, htiming⟩ := playbackFor_opFrom h
  rw [htick, if_neg Bool.false_ne_true] at htiming
  obtain ⟨hplay, hreg⟩ := startPlay_of_tick (n := n.atCommit q) htiming
  rw [packetRow_waves cmdWavePlay h, (packetRow_motion cmdWavePlay h).2]
  refine ⟨packetRow_goesOn h hcmd (startPlay_opOf _ _ _), ?_⟩
  rw [houts, (atCommit_spec q n h).2.1] at hplay
  rw [houts, htable, atCommit_waves h] at hreg
  rw [hcmd]
  exact ⟨hplay, hreg⟩

/-- R350, R353: any other WAVE_PLAY waits for its trigger or its time, and enters no code. -/
theorem wavePlay_waits (has : n.playsAs q) (hlater : ¬(fld (pw q 0) 23 22 = 0 ∧ bitOf (pw q 0) 29 = false)) :
    n.goesOn q (n.packetRow cmdWavePlay q) ∧ (n.packetRow cmdWavePlay q).core.outs = n.core.outs ∧
      (n.packetRow cmdWavePlay q).core.waves.plays = n.core.waves.plays ++ [playbackFor (n.opFrom q) n] := by
  have hcmd := cmdWavePlay_runs h hon has
  rw [if_neg (by simpa using hlater)] at hcmd
  refine ⟨packetRow_goesOn h hcmd rfl, ?_, ?_⟩
  · rw [(packetRow_motion cmdWavePlay h).2, hcmd]
    exact atCommit_reads (fun n => n.core.outs) (fun _ => rfl) q n h
  · rw [packetRow_waves cmdWavePlay h, hcmd, ← atCommit_waves h]
    rfl

end

/-! ### WAVE_STOP -/

/-- R357: the playbacks that end one after the other are gone, and no other. -/
theorem eachOf_endPlay (xs : List Playback) (st : Status) (r : Nat) (n : Node) :
    (eachOf xs (fun x m => m.endPlay x st r) n).core.waves.plays =
      n.core.waves.plays.filter fun x => !(xs.any fun y => x.op == y.op) := by
  induction xs generalizing n with
  | nil => exact (List.filter_eq_self.mpr fun _ _ => rfl).symm
  | cons y ys ih =>
    refine (ih (n.endPlay y st r)).trans ?_
    rw [(endPlay_spec y st r n).1, List.filter_filter]
    exact List.filter_congr fun x _ => by rw [List.any_cons, Bool.not_or, Bool.and_comm, bne]

theorem effect_waveStop (s : State) (p : Packet) (h : s.node.runsNow (asRow .waveStop p) = true) :
    let mine := s.node.core.waves.plays.filter fun x => x.outs.any fun c => (s.node.chans (asRow .waveStop p)).contains c
    Effect (.waveStop p) s fun m =>
      m.core.waves.plays = s.node.core.waves.plays.filter fun x => !(mine.any fun y => x.op == y.op) := by
  obtain ⟨_, hr⟩ := runsNow_spec _ _ h
  have hwaves := atCommit_waves h
  have hchans := atCommit_reads (fun n => n.chans (asRow .waveStop p)) (fun _ => rfl) _ s.node h
  refine ⟨_, rfl, ?_⟩
  dsimp only
  rw [packetRow_waves cmdWaveStop h, cmdWaveStop, hr.packet]
  dsimp only
  rw [hchans, hwaves, eachOf_endPlay, hwaves]

/-! ### The wave commands -/

section
variable (s : State) (p : Packet)

/-- R346: DATA as its row gives it. -/
theorem effect_waveLoadData (hfree : s.node.core.waves.unplayed (fld (pw p 0) 3 0))
    (h : s.node.runsNow (withBits 4 2 1 (asRow .waveLoad p)) = true) :
    let x := s.node.core.waves.table (fld (pw p 0) 3 0)
    let first := x.base + fld (pw p 0) 21 8
    let count := fld (pw p 0) 36 22
    x.state = .filling → fld (pw p 0) 21 8 + count ≤ x.len → s.node.core.waves.mem.wf = true →
    Effect (.waveLoadData p) s fun m => m.core.waves.tables = s.node.core.waves.tables ∧
      (∀ i v, ((samplesOf (p.words.drop 1)).take count)[i]? = some v → m.core.waves.mem.get (first + i) = v) ∧
      ∀ i, i < first ∨ first + count ≤ i → m.core.waves.mem.get i = s.node.core.waves.mem.get i := by
  intro x first count hstate hend hwf
  obtain ⟨htables, hmem⟩ := waveLoad_data h hfree (waveLoad_word (by decide) h) hstate hend
  have hdrop : (withBits 4 2 1 (asRow .waveLoad p)).words.drop 1 = p.words.drop 1 := withBits_drop 4 2 1 (asRow .waveLoad p) 0
  rw [hdrop] at hmem
  refine ⟨_, rfl, htables, fun i v hv => ?_, fun i hi => ?_⟩
  · rw [hmem]
    exact WaveMem.get_putAll_listed _ hwf hv
  · rw [hmem]
    exact WaveMem.get_putAll_outside hwf
      (hi.imp_right fun hbehind => Nat.le_trans (Nat.add_le_add_left (List.length_take_le count _) first) hbehind)

/-- R347, R349: SEAL as its row gives it. -/
theorem effect_waveLoadSeal (ht : fld (pw p 0) 3 0 < s.node.core.waves.tables.length)
    (hfree : s.node.core.waves.unplayed (fld (pw p 0) 3 0)) (h : s.node.runsNow (withBits 4 2 2 (asRow .waveLoad p)) = true) :
    let t := fld (pw p 0) 3 0
    let x := s.node.core.waves.table t
    let d := withBits 4 2 2 (asRow .waveLoad p)
    x.state = .filling → Effect (.waveLoadSeal p) s fun m => m.core.waves.table t = { x with state := .loaded } ∧
      m.core.waves.mem = s.node.core.waves.mem ∧
      (x.persist = false → s.node.replies d .done [[wN (waveCrc (s.node.core.waves.samples t))]] m) ∧
      (x.persist = true → s.node.goesOn d m ∧ ∃ w : StoreWrite, m.store.writes = s.node.store.writes ++ [w] ∧
        w.op = some (s.node.opFrom d).order ∧
        w.kind = .wave { table := t, base := x.base, samples := s.node.core.waves.samples t }) := by
  intro t x d hstate
  have hword := waveLoad_word (by decide) h
  have hwaves := waveLoad_seal h hfree hword hstate
  refine ⟨_, rfl, ?_, (congrArg Waves.mem hwaves).trans rfl, waveLoad_seal_replies h hfree hword hstate,
    waveLoad_seal_goesOn h hfree hword hstate⟩
  rw [hwaves]
  exact Waves.table_setTable _ ht

end

/-- Settles O41: the word of each row names its operation and keeps its other fields; the waves read the same at the commit as before the
packet; and a command's answer leaves them alone, so what a row makes of them is what its command does. -/
theorem waveCommands : Obligations.WaveCommands := by
  refine ⟨fun s p => ?load, fun s p => ?play, effect_waveStop⟩
  case load =>
    intro t place count x a b d e hlen hfree
    have ht : t < s.node.core.waves.tables.length := hlen ▸ Nat.mod_lt _ (by decide)
    exact ⟨fun h hend hmeet => ⟨_, rfl, waveLoad_define h ht hfree (waveLoad_word (by decide) h) hend hmeet⟩,
      effect_waveLoadData s p hfree, effect_waveLoadSeal s p ht hfree,
      fun h => ⟨_, rfl, waveLoad_delete h ht hfree (waveLoad_word (by decide) h)⟩⟩
  case play =>
    intro q w outs h hnamed hloaded hfree
    have hon : s.node.playsOn q := ⟨hnamed, hloaded, hfree⟩
    obtain ⟨houts, -, htrig, hstart, htiming⟩ := playbackFor_opFrom h
    refine ⟨fun hcommand htick honce => ⟨_, rfl, wavePlay_starts h hon hcommand htick honce⟩,
      fun htrigger htick hloop => ⟨_, rfl, ?waits⟩, fun hcommand hsched honce hearly => ⟨_, rfl, ?scheduled⟩⟩
    case waits =>
      have has : s.node.playsAs q := ⟨fun hsched => absurd (htick.symm.trans hsched) Bool.false_ne_true,
        fun hrearm => ⟨fun hl => hloop ⟨hrearm, hl⟩, htrigger⟩⟩
      obtain ⟨hgoes, hcodes, hplays⟩ := wavePlay_waits h hon has fun hnow => htrigger hnow.1
      exact ⟨hgoes, hcodes, _, hplays, rfl, rfl, houts, htrig⟩
    case scheduled =>
      have has : s.node.playsAs q := ⟨fun _ => ⟨hcommand, hearly⟩,
        fun hrearm => absurd (honce.symm.trans hrearm) Bool.false_ne_true⟩
      obtain ⟨hgoes, hcodes, hplays⟩ := wavePlay_waits h hon has fun hnow => absurd (hnow.2.symm.trans hsched) Bool.false_ne_true
      exact ⟨hgoes, hcodes, _, hplays, rfl, houts, hstart, htiming.trans (if_pos hsched)⟩

end Sys2Proof.Machine
end

section
/-!
PROOFS. The fans (11_sound_heat_air.md R386 to R396, R398): FAN_SET, tach edges and silences, the judgement of a start, kicks, pauses,
probes and stops.
-/
namespace Sys2Proof.Machine

/-! ### One fan of the two -/

@[simp] theorem Duo.get_set_same {α : Type} (d : Duo α) (b : Bool) (x : α) : (d.set b x).get b = x := by
  cases b <;> rfl

theorem Duo.get_set_other {α : Type} (d : Duo α) {b c : Bool} (x : α) (h : c ≠ b) : (d.set b x).get c = d.get c := by
  cases b <;> cases c <;> simp_all [Duo.get, Duo.set]

@[simp] theorem modFan_same (b : Bool) (f : FanState → FanState) (n : Node) : (n.modFan b f).fan b = f (n.fan b) :=
  Duo.get_set_same _ b _

theorem modFan_other {b c : Bool} (f : FanState → FanState) (n : Node) (h : c ≠ b) : (n.modFan b f).fan c = n.fan c :=
  Duo.get_set_other _ _ h

theorem fan_of_sound {m n : Node} (h : m.core.sound = n.core.sound) (b : Bool) : m.fan b = n.fan b :=
  congrArg (fun s : Sound => s.fans.get b) h

/-- A reading of a fan that a change of a fan keeps is kept for both. -/
theorem modFan_reading {β : Type} (g : FanState → β) {b : Bool} {f : FanState → FanState} {n : Node}
    (h : g (f (n.fan b)) = g (n.fan b)) (c : Bool) : g ((n.modFan b f).fan c) = g (n.fan c) := by
  by_cases hc : c = b
  · rw [hc, modFan_same, h]
  · rw [modFan_other f n hc]

/-! ### Changes of the fans alone -/

/-- The node differs in its fans only. -/
def Node.FansOf (m n : Node) : Prop := ∃ x : Duo FanState, m = n.modSound fun s => { s with fans := x }

theorem Node.FansOf.refl (n : Node) : n.FansOf n := ⟨n.core.sound.fans, rfl⟩

theorem Node.FansOf.trans {a b c : Node} (h : a.FansOf b) (g : b.FansOf c) : a.FansOf c := by
  obtain ⟨x, rfl⟩ := h
  obtain ⟨y, rfl⟩ := g
  exact ⟨x, rfl⟩

/-- What does not read the fans reads the same. -/
theorem Node.FansOf.reads {β : Type} (g : Node → β) (hg : ∀ (x : Duo FanState) (n : Node), g (n.modSound fun s => { s with fans := x }) = g n)
    {m n : Node} (h : m.FansOf n) : g m = g n := by
  obtain ⟨x, rfl⟩ := h
  exact hg x n

theorem Node.FansOf.reported {m n : Node} (h : m.FansOf n) {f : FaultCode} {sc : Nat} (hr : n.reported f sc) : m.reported f sc := by
  obtain ⟨x, rfl⟩ := h
  exact hr

theorem modFan_fansOf (b : Bool) (f : FanState → FanState) (n : Node) : (n.modFan b f).FansOf n := ⟨_, rfl⟩

theorem eachFan_fansOf (f : Bool → Node → Node) (hf : ∀ b m, (f b m).FansOf m) (n : Node) : (eachFan f n).FansOf n :=
  (hf true _).trans (hf false n)

/-- Supervision begins, ends or stays as it is (R389): it moves a fan's phase and drops its watches, and nothing else. -/
theorem supervise_cases (b : Bool) (n : Node) : n.supervise b = n ∨
    ∃ p w l, n.supervise b = n.modFan b fun f => { f with phase := p, watch := w, lowSince := l } := by
  unfold Node.supervise
  dsimp only
  split
  case h_1 =>
    split
    · exact .inr ⟨_, _, _, rfl⟩
    · exact .inl rfl
  case h_5 => exact .inl rfl
  all_goals
    split
    · exact .inl rfl
    · exact .inr ⟨_, _, _, rfl⟩

theorem supervise_fansOf (b : Bool) (n : Node) : (n.supervise b).FansOf n := by
  rcases supervise_cases b n with h | ⟨p, w, l, h⟩ <;> rw [h]
  · exact .refl n
  · exact modFan_fansOf b _ n

theorem fanRefresh_fansOf (b : Bool) (n : Node) : (n.fanRefresh b).FansOf n :=
  (supervise_fansOf b _).trans ((modFan_fansOf b _ _).trans (modFan_fansOf b _ n))

theorem fansRefresh_fansOf (n : Node) : n.fansRefresh.FansOf n := eachFan_fansOf Node.fanRefresh fanRefresh_fansOf n

/-! ### What supervision and a change of duty leave of a fan -/

/-- A fan without its duties and its place in supervision: its tach and its conditions. -/
def FanState.lasting (f : FanState) : FanState := { f with srcDuty := 0, duty := 0, phase := .unsupervised, watch := none, lowSince := none }

theorem supervise_lasting (b c : Bool) (n : Node) : ((n.supervise b).fan c).lasting = (n.fan c).lasting := by
  rcases supervise_cases b n with h | ⟨p, w, l, h⟩ <;> rw [h]
  exact modFan_reading FanState.lasting rfl c

theorem fanRefresh_lasting (b c : Bool) (n : Node) : ((n.fanRefresh b).fan c).lasting = (n.fan c).lasting := by
  refine (supervise_lasting b c _).trans ?_
  exact (modFan_reading FanState.lasting (by exact rfl) c).trans (modFan_reading FanState.lasting (by exact rfl) c)

/-- The phases that supervision neither begins nor ends: a probe, the retry sequence, a fan held off. -/
def FanPhase.staged : FanPhase → Bool
  | .probing _ | .kicking .. | .pausing .. | .heldOff => true
  | _ => false

theorem supervise_of_staged {b : Bool} {n : Node} (h : (n.fan b).phase.staged = true) : n.supervise b = n := by
  unfold Node.supervise
  dsimp only
  split
  case h_5 => rfl
  all_goals
    rename_i hphase
    rw [hphase] at h
    exact nomatch h

theorem fanRefresh_of_staged {b : Bool} {n : Node} (h : (n.fan b).phase.staged = true) :
    ((n.fanRefresh b).fan b).phase = (n.fan b).phase := by
  unfold Node.fanRefresh
  dsimp only
  rw [supervise_of_staged (by rwa [modFan_same, modFan_same]), modFan_same, modFan_same]

/-- A running fan runs on, or supervision ends (R389). -/
theorem supervise_of_running {b : Bool} {n : Node} (h : (n.fan b).phase = .running) :
    ((n.supervise b).fan b).phase = .running ∨ ((n.supervise b).fan b).phase = .unsupervised := by
  simp only [Node.supervise, h]
  split
  · exact .inl h
  · exact .inr (congrArg FanState.phase (modFan_same b _ n))

theorem fanRefresh_of_running {b : Bool} {n : Node} (h : (n.fan b).phase = .running) :
    ((n.fanRefresh b).fan b).phase = .running ∨ ((n.fanRefresh b).fan b).phase = .unsupervised :=
  supervise_of_running (by rwa [modFan_same, modFan_same])

theorem supervise_other {b c : Bool} (n : Node) (h : c ≠ b) : (n.supervise b).fan c = n.fan c := by
  rcases supervise_cases b n with hs | ⟨p, w, l, hs⟩ <;> rw [hs]
  exact modFan_other _ n h

theorem fanRefresh_other {b c : Bool} (n : Node) (h : c ≠ b) : (n.fanRefresh b).fan c = n.fan c := by
  unfold Node.fanRefresh
  dsimp only
  rw [supervise_other _ h, modFan_other _ _ h, modFan_other _ _ h]

/-! ### What the fault manager and a class action leave of the sound-and-heat unit -/

@[simp] theorem trip_sound (f : FaultCode) (cls sc : Nat) (x : Word) (i : Bool) (n : Node) :
    (n.trip f cls sc x i).core.sound = n.core.sound := trip_part (fun n => n.core.sound) (fun _ _ => rfl) f cls sc x i n

@[simp] theorem cease_sound (f : FaultCode) (sc : Nat) (n : Node) : (n.cease f sc).core.sound = n.core.sound :=
  cease_part (fun n => n.core.sound) (fun _ _ => rfl) (fun _ _ _ _ _ => congrArg Core.sound (event_core _ _ _ _ _)) f sc n

@[simp] theorem fanCease_sound (f : FaultCode) (g : FanState → Bool) (n : Node) : (n.fanCease f g).core.sound = n.core.sound := by
  unfold Node.fanCease
  split
  · rfl
  · exact cease_sound f 0xFF n

/-- What a class action leaves (R503, R504): the sound-and-heat unit, and what is known of any fault but the loops' own. -/
structure Node.Spares (m n : Node) : Prop where
  sound : m.core.sound = n.core.sound
  reported : ∀ f sc, f ≠ .ferr → n.reported f sc → m.reported f sc

theorem Node.Spares.refl (n : Node) : n.Spares n := ⟨rfl, fun _ _ _ h => h⟩

theorem Node.Spares.trans {a b c : Node} (h : a.Spares b) (g : b.Spares c) : a.Spares c :=
  ⟨h.sound.trans g.sound, fun f sc hf hr => h.reported f sc hf (g.reported f sc hf hr)⟩

theorem spares_of_core {m n : Node} (hs : m.core.sound = n.core.sound) (hf : m.core.faults = n.core.faults) : m.Spares n :=
  ⟨hs, fun f sc _ hr => by
    unfold Node.reported
    rw [hf]
    exact hr⟩

theorem endOrder_spares (o : Nat) (st : Status) (ws : List Word) (n : Node) : (n.endOrder o st ws).Spares n := by
  have hbody := (endOrder_sameBut o st ws n).core
  have hsound := congrArg Core.sound hbody
  have hfaults := congrArg Core.faults hbody
  exact spares_of_core hsound hfaults

theorem endOpt_spares (o : Option Nat) (st : Status) (ws : List Word) (n : Node) : (n.endOpt o st ws).Spares n := by
  cases o with
  | none => exact .refl n
  | some o => exact endOrder_spares o st ws n

/-- An occurrence leaves the verdicts that wait and the instances (R516). -/
theorem occur_known (f : FaultCode) (sc : Nat) (k : OccKind) (cls : Nat) (r i : Bool) (x : Word) (n : Node) :
    (n.occur f sc k cls r i x).core.faults.verdicts = n.core.faults.verdicts ∧
      (n.occur f sc k cls r i x).core.faults.insts = n.core.faults.insts := by
  unfold Node.occur Node.formFault
  split <;> simp

/-- A cessation keeps the verdicts but for their mark, and the instances of every other fault (R506, R507). -/
theorem cease_known (g : FaultCode) (sd : Nat) (n : Node) :
    (n.cease g sd).core.faults.verdicts =
        n.core.faults.verdicts.map (fun v => if v.code == g && v.scope == sd then { v with ceased := true } else v) ∧
      ∀ i ∈ n.core.faults.insts, i.code ≠ g → i ∈ (n.cease g sd).core.faults.insts := by
  unfold Node.cease
  dsimp only
  split
  · exact ⟨rfl, fun i hi _ => hi⟩
  · split
    · exact ⟨rfl, fun i hi _ => hi⟩
    · split
      all_goals
        simp only [occur_known, modFaults_core, true_and]
        intro i hi hne
      · exact List.mem_filter.mpr ⟨hi, by simp [hne]⟩
      · exact List.mem_map.mpr ⟨i, hi, if_neg (by simp [hne])⟩

/-- The cessation of one fault takes no report of another back. -/
theorem cease_reported {f g : FaultCode} {sc : Nat} (sd : Nat) {n : Node} (hne : f ≠ g) (h : n.reported f sc) :
    (n.cease g sd).reported f sc := by
  obtain ⟨hverdicts, hinsts⟩ := cease_known g sd n
  refine h.imp (fun hv => ?_) (fun hi => ?_)
  · rw [hverdicts, List.any_map]
    refine (List.any_congr rfl fun v => ?_).trans hv
    dsimp only [Function.comp_apply]
    split <;> rfl
  · obtain ⟨i, hmem, hi⟩ := List.any_eq_true.mp hi
    have hcode : i.code = f := by simp only [Bool.and_eq_true, beq_iff_eq] at hi; exact hi.1.1
    exact List.any_eq_true.mpr ⟨i, hinsts i hmem (hcode ▸ hne), hi⟩

/-! A class action on a channel -/

theorem slotOff_spares (c : Ch) (n : Node) : (n.slotOff c).Spares n :=
  ⟨cease_sound .ferr c.val n, fun _ _ hne hr => cease_reported c.val hne hr⟩

theorem modCore_spares {g : Core → Core} (n : Node) (hs : (g n.core).sound = n.core.sound) (hf : (g n.core).faults = n.core.faults) :
    (n.modCore g).Spares n := spares_of_core hs hf

theorem modSlot_spares (c : Ch) (f : Slot → Slot) (n : Node) : (n.modSlot c f).Spares n := spares_of_core rfl rfl

theorem endMotion_spares (c : Ch) (st : Status) (n : Node) : (n.endMotion c st).Spares n := by
  unfold Node.endMotion
  split
  · exact .refl n
  · exact (endOrder_spares _ st [] _).trans (spares_of_core rfl rfl)

theorem stopSlot_spares (c : Ch) (n : Node) : (n.stopSlot c).Spares n := by
  unfold Node.stopSlot
  split
  · split
    · exact modSlot_spares _ _ n
    · exact .refl n
  · split
    · exact spares_of_core rfl rfl
    · exact .refl n

theorem stopBy_spares (c : Ch) (n : Node) : (n.stopBy c).Spares n := by
  refine (stopSlot_spares c _).trans ?_
  split
  · exact endMotion_spares _ .aborted n
  · exact .refl n

theorem leaveGroup_spares (c : Ch) (n : Node) : (n.leaveGroup c).Spares n := by
  unfold Node.leaveGroup
  dsimp only
  split
  · exact spares_of_core rfl rfl
  · exact modSlot_spares c _ n
  · exact .refl n

theorem disable_spares (c : Ch) (n : Node) : (n.disable c).Spares n :=
  (slotOff_spares c _).trans ((modSlot_spares c _ _).trans (leaveGroup_spares c n))

theorem eachOf_spares {α : Type} (f : α → Node → Node) (hf : ∀ x m, (f x m).Spares m) (xs : List α) (n : Node) : (eachOf xs f n).Spares n :=
  eachOf_keeps (fun m => m.Spares n) f xs (fun x _ m h => (hf x m).trans h) n (.refl n)

theorem loopsOff_spares (n : Node) : n.loopsOff.Spares n :=
  eachCh_keeps (fun m => m.Spares n) _ (fun c _ h => ((slotOff_spares c _).trans (modSlot_spares c _ _)).trans h) n (.refl n)

theorem restDone_spares (w : RestWait) (n : Node) : (n.restDone w).Spares n := by
  unfold Node.restDone
  split
  · exact (endOpt_spares w.op .done [] _).trans (spares_of_core rfl rfl)
  · exact endOpt_spares w.op .done [] n
  · exact (endOpt_spares w.op .done [] _).trans ((modCore_spares _ rfl rfl).trans (loopsOff_spares n))
  · exact (modCore_spares _ rfl rfl).trans (loopsOff_spares n)

theorem settleRests_spares (n : Node) : n.settleRests.Spares n := by
  unfold Node.settleRests
  refine (eachOf_spares _ (fun w m => ?_) n.core.rests (n.withRests [])).trans (spares_of_core rfl rfl)
  dsimp only
  have hdisabled : (if w.kind = .disable then eachOf (w.chs.filter m.atRest) Node.disable m else m).Spares m := by
    split
    · exact eachOf_spares Node.disable disable_spares _ m
    · exact .refl m
  split
  · exact (restDone_spares w _).trans hdisabled
  · exact (modCore_spares _ rfl rfl).trans hdisabled

theorem parkSlot_spares (c : Ch) (n : Node) : (n.parkSlot c).Spares n := by
  have hpark : ∀ m : Node, (m.parkOne c).Spares m := fun m => (slotOff_spares c _).trans (spares_of_core rfl rfl)
  refine (settleRests_spares _).trans ((hpark _).trans ?_)
  split
  · exact (stopBy_spares c _).trans (endMotion_spares c .aborted n)
  · exact endMotion_spares c .aborted n

theorem runAction_spares (c : Ch) (a : ClassAction) (n : Node) : (n.runAction c a).Spares n := by
  unfold Node.runAction
  split
  · exact .refl n
  · split
    · exact parkSlot_spares c n
    · split
      · exact parkSlot_spares c n
      · exact stopBy_spares c n

theorem fanAction_spares (b : Bool) (n : Node) : (n.fanAction b).Spares n :=
  eachOf_spares (fun x : Ch × ClassAction => Node.runAction x.1 x.2) (fun x => runAction_spares x.1 x.2) _ n

/-! ### Verdicts on a fan -/

/-- A verdict of no class action only waits for the fault manager, or its condition is known already. -/
theorem fanTrip_of_noAction {cls : Nat} (hc : cls ≠ 2) (f : FaultCode) (b : Bool) (x : Word) (i : Bool) (n : Node) :
    ∃ vs : List Verdict, n.fanTrip f cls b x i = n.modFaults fun y => { y with verdicts := y.verdicts ++ vs } := by
  have htrip : ∃ vs : List Verdict, n.trip f cls 0xFF x i = n.modFaults fun y => { y with verdicts := y.verdicts ++ vs } := by
    rcases trip_cases f cls 0xFF x i n with ⟨v, _, _, h⟩ | ⟨h, _⟩ <;> rw [h]
    · exact ⟨[v], rfl⟩
    · exact ⟨[], by simp [Node.modFaults, Node.modCore]⟩
  unfold Node.fanTrip
  dsimp only
  split
  · split
    · exact ⟨[_], rfl⟩
    · exact htrip
  · exact htrip

/-- A verdict on a fan is reported and leaves the fans as they are, whatever class action runs with it. -/
theorem fanTrip_spec {f : FaultCode} (hf : f ≠ .ferr) (cls : Nat) (b : Bool) (x : Word) (i : Bool) (n : Node) :
    (n.fanTrip f cls b x i).core.sound = n.core.sound ∧ (n.fanTrip f cls b x i).reported f 0xFF := by
  have htrip : (n.trip f cls 0xFF x i).core.sound = n.core.sound ∧ (n.trip f cls 0xFF x i).reported f 0xFF :=
    ⟨trip_sound f cls 0xFF x i n, trip_reported f cls 0xFF x i n⟩
  unfold Node.fanTrip
  split
  · split
    · have hwaits : (n.modFaults fun y => { y with verdicts := y.verdicts ++
          [{ code := f, cls := cls, scope := 0xFF, ctx := x, injected := i }] }).reported f 0xFF := .inl (by simp)
      split
      · have hspares := fanAction_spares b (n.modFaults fun y => { y with verdicts := y.verdicts ++
          [{ code := f, cls := cls, scope := 0xFF, ctx := x, injected := i }] })
        exact ⟨hspares.sound, hspares.reported f 0xFF hf hwaits⟩
      · exact ⟨rfl, hwaits⟩
    · exact htrip
  · exact htrip

/-! ### Tach edges -/

theorem edges_of_lasting {f g : FanState} (h : f.lasting = g.lasting) : f.edges = g.edges := by
  have := congrArg FanState.edges h
  exact this

theorem calEnd_of_some {n : Node} {c : Calib} (h : n.core.sound.cal = some c) (st : Status) (ws : List Word) :
    n.calEnd st ws = ((n.modSound fun s => { s with cal := none }).fansRefresh).endOrder c.op st ws := by
  simp only [Node.calEnd, h]

theorem fansRefresh_lasting (b : Bool) (n : Node) : (n.fansRefresh.fan b).lasting = (n.fan b).lasting :=
  (fanRefresh_lasting true b _).trans (fanRefresh_lasting false b n)

theorem calEnd_lasting (st : Status) (ws : List Word) (b : Bool) (n : Node) : ((n.calEnd st ws).fan b).lasting = (n.fan b).lasting := by
  cases h : n.core.sound.cal with
  | none => simp only [Node.calEnd, h]
  | some c =>
    rw [calEnd_of_some h, fan_of_sound (endOrder_spares c.op st ws _).sound]
    exact fansRefresh_lasting b _

theorem judgeEarly_cases (b : Bool) (n : Node) : n.judgeEarly b = n ∨ n.judgeEarly b = n.modFan b fun f => { f with phase := .running } := by
  unfold Node.judgeEarly
  split
  · split
    · exact .inr rfl
    · exact .inl rfl
  · exact .inl rfl

theorem judgeEarly_lasting (b c : Bool) (n : Node) : ((n.judgeEarly b).fan c).lasting = (n.fan c).lasting := by
  rcases judgeEarly_cases b n with h | h <;> rw [h]
  exact modFan_reading FanState.lasting rfl c

/-- The tach found present moves a fan's phase and conditions, and keeps its edges. -/
theorem tachSeen_edges (b : Bool) (n : Node) : ((n.tachSeen b).fan b).edges = (n.fan b).edges := by
  unfold Node.tachSeen
  dsimp only
  split
  · rfl
  · have hseen : ∀ f : FanState → FanState, (∀ x, (f x).edges = x.edges) → ∀ m : Node, ((m.modFan b f).fan b).edges = (m.fan b).edges :=
      fun f hf m => modFan_reading FanState.edges (hf _) b
    split <;> refine (edges_of_lasting (judgeEarly_lasting b b _)).trans ?_
    · exact hseen _ (fun _ => by exact rfl) n
    · split
      · refine (edges_of_lasting (fanRefresh_lasting b b _)).trans ?_
        rw [fan_of_sound (fanCease_sound _ _ _), fan_of_sound (fanCease_sound _ _ _)]
        exact (hseen _ (fun _ => by exact rfl) _).trans (hseen _ (fun _ => by exact rfl) n)
      · rw [fan_of_sound (fanCease_sound _ _ _), fan_of_sound (fanCease_sound _ _ _)]
        exact (hseen _ (fun _ => by exact rfl) _).trans (hseen _ (fun _ => by exact rfl) n)

theorem tachEdge_edges {b : Bool} {n : Node} (hp : n.core.faults.points = []) :
    ((n.tachEdge b).fan b).edges = n.now :: (n.fan b).edges.filter fun e => decide (n.now < e + 1000000000) := by
  unfold Node.tachEdge
  rw [injecting_of_none n _ _ hp, if_neg Bool.false_ne_true]
  dsimp only
  rw [tachSeen_edges]
  split
  · rw [edges_of_lasting (calEnd_lasting _ _ b _), modFan_same]
  · rw [modFan_same]

/-! ### A tach that turns silent -/

/-- What a fan's tach has shown: its edges, whether it was present, and since when it is silent. -/
def FanState.tach (f : FanState) : List Nat × Bool × Nat := (f.edges, f.present, f.silentSince)

theorem tach_of_lasting {f g : FanState} (h : f.lasting = g.lasting) : f.tach = g.tach := by
  have := congrArg FanState.tach h
  exact this

/-- What both tachs have shown. -/
def Node.tachs (n : Node) : Bool → List Nat × Bool × Nat := fun b => (n.fan b).tach

theorem tachs_of_sound {m n : Node} (h : m.core.sound = n.core.sound) : m.tachs = n.tachs :=
  funext fun b => congrArg FanState.tach (fan_of_sound h b)

theorem modFan_tachs (b : Bool) {f : FanState → FanState} (hf : ∀ x, (f x).tach = x.tach) (n : Node) : (n.modFan b f).tachs = n.tachs :=
  funext fun c => modFan_reading FanState.tach (hf _) c

theorem supervise_tachs (b : Bool) (n : Node) : (n.supervise b).tachs = n.tachs := funext fun c => tach_of_lasting (supervise_lasting b c n)

theorem fanRefresh_tachs (b : Bool) (n : Node) : (n.fanRefresh b).tachs = n.tachs := funext fun c => tach_of_lasting (fanRefresh_lasting b c n)

theorem wireVerdict_tachs (b : Bool) (n : Node) : (n.wireVerdict b).tachs = n.tachs := by
  unfold Node.wireVerdict
  dsimp only
  rw [tachs_of_sound (fanTrip_spec (by decide) 1 b _ _ _).1, supervise_tachs, modFan_tachs b fun _ => by exact rfl]

theorem lastKick_tachs (b : Bool) (n : Node) : (n.lastKick b).tachs = n.tachs := by
  unfold Node.lastKick
  dsimp only
  have htrip := tachs_of_sound (fanTrip_spec (f := .fanBlocked) (by decide) (n.parN Pid.fanBlockclass (idx b)) b (fanCtx b)
    ((n.modFan b fun f => { f with phase := .heldOff }).injecting .fanBlocked 0xFF) (n.modFan b fun f => { f with phase := .heldOff })).1
  rw [fanRefresh_tachs]
  split
  · rw [htrip, modFan_tachs b fun _ => by exact rfl]
  · rw [tachs_of_sound (fanAction_spares b _).sound, htrip, modFan_tachs b fun _ => by exact rfl]

theorem startKick_tachs (b : Bool) (k : Nat) (n : Node) : (n.startKick b k).tachs = n.tachs := by
  unfold Node.startKick
  split
  · exact lastKick_tachs b n
  · rw [fanRefresh_tachs, modFan_tachs b fun _ => by exact rfl]

theorem blockedVerdict_tachs (b : Bool) (n : Node) : (n.blockedVerdict b).tachs = n.tachs := by
  unfold Node.blockedVerdict
  dsimp only
  rw [startKick_tachs, tachs_of_sound (fanTrip_spec (by decide) 1 b _ _ _).1, modFan_tachs b fun _ => by exact rfl]

theorem silentVerdict_tachs (b st tu : Bool) (n : Node) : (n.silentVerdict b st tu).tachs = n.tachs := by
  unfold Node.silentVerdict
  split
  · exact wireVerdict_tachs b n
  · split
    · exact blockedVerdict_tachs b n
    · rw [supervise_tachs, modFan_tachs b fun _ => by exact rfl]

theorem modSound_probe_tachs (p : Option Probe) (n : Node) : (n.modSound fun s => { s with probe := p }).tachs = n.tachs := rfl

theorem startProbe_tachs (b st : Bool) (n : Node) : (n.startProbe b st).tachs = n.tachs := by
  unfold Node.startProbe
  dsimp only
  split
  · exact modFan_tachs b (fun _ => by exact rfl) n
  · rw [fanRefresh_tachs, modSound_probe_tachs, modFan_tachs b fun _ => by exact rfl]

theorem endProbe_tachs (n : Node) : n.endProbe.tachs = n.tachs := by
  unfold Node.endProbe
  split
  · rfl
  · dsimp only
    rw [fanRefresh_tachs, modFan_tachs _ fun _ => by exact rfl, modSound_probe_tachs]

theorem judgeSilent_tachs (b st : Bool) (n : Node) : (n.judgeSilent b st).tachs = n.tachs := by
  unfold Node.judgeSilent
  split
  · exact silentVerdict_tachs b st true n
  · exact silentVerdict_tachs b st false n
  · exact startProbe_tachs b st n

/-- The mark of a tach that has turned silent, and the end of its duct's fault (R390, R395). -/
def Node.markSilent (b : Bool) (n : Node) : Node :=
  (n.modFan b fun f => { f with present := false, silentSince := n.now, lowSince := none, duct := false }).fanCease .ductBlocked FanState.duct

theorem markSilent_tach (b : Bool) (n : Node) : ((n.markSilent b).fan b).tach = ((n.fan b).edges, false, n.now) := by
  rw [Node.markSilent, fan_of_sound (fanCease_sound _ _ _), modFan_same]
  rfl

/-- Whatever is judged when a tach turns silent, its mark stays (R390). -/
theorem tachSilent_tachs {b : Bool} {n : Node} (hpresent : (n.fan b).present = true) (hsilent : n.tachPresent b = false) :
    (n.tachSilent b).tachs = (n.markSilent b).tachs := by
  have hown : ∀ (m : Node) (c : Prop) [Decidable c], (if c then m.judgeSilent b false else m).tachs = m.tachs := fun m c _ => by
    split
    · exact judgeSilent_tachs b false m
    · rfl
  unfold Node.tachSilent
  simp only [hpresent, hsilent, Bool.not_true, Bool.or_self, Bool.false_eq_true, if_false]
  rw [hown]
  split
  · rw [judgeSilent_tachs, endProbe_tachs, Node.markSilent]
  · rfl

/-! ### The end of a start judgement -/

theorem tachPresent_of_reads {m n : Node} {b : Bool} (hp : m.core.params = n.core.params) (ht : m.time = n.time)
    (hf : m.core.faults.points = n.core.faults.points) (he : (m.fan b).edges = (n.fan b).edges) : m.tachPresent b = n.tachPresent b := by
  unfold Node.tachPresent Node.rpm Node.parN Node.now Node.injecting Node.point
  rw [hp, ht, hf, he]

/-- A kick that the sequence still has starts (R392). -/
theorem startKick_of_left {b : Bool} {k : Nat} {n : Node} (h : k ≤ n.parN Pid.fanRetries (idx b)) : n.startKick b k =
    (n.modFan b fun f => { f with phase := .kicking k (n.now + 1000000000) (n.tachPresent b) }).fanRefresh b :=
  if_neg (Nat.not_lt.mpr h)

/-- A refresh keeps a stage that a fan has just entered. -/
theorem refresh_enters {b : Bool} {p : FanPhase} (n : Node) (hp : p.staged = true) :
    (((n.modFan b fun f => { f with phase := p }).fanRefresh b).fan b).phase = p := by
  rw [fanRefresh_of_staged (by rwa [modFan_same]), modFan_same]

/-- R391, R392: a fan judged still at its start is reported blocked and kicked. -/
theorem blockedVerdict_spec {b : Bool} {n : Node} (hr : 1 ≤ n.parN Pid.fanRetries (idx b)) :
    (n.blockedVerdict b).reported .fanBlocked 0xFF ∧ ((n.blockedVerdict b).fan b).blocked = true ∧
      ((n.blockedVerdict b).fan b).phase = .kicking 1 (n.now + 1000000000) (n.tachPresent b) := by
  unfold Node.blockedVerdict
  dsimp only
  generalize hm : n.modFan b (fun f => { f with blocked := true, lowSince := none }) = m
  have hfan : m.fan b = { n.fan b with blocked := true, lowSince := none } := by rw [← hm, modFan_same]
  have hsame : m.FansOf n := hm ▸ modFan_fansOf b _ n
  obtain ⟨vs, htrip⟩ := fanTrip_of_noAction (by decide : (1 : Nat) ≠ 2) .fanBlocked b (fanCtx b) (m.injecting .fanBlocked 0xFF) m
  have hrep := (fanTrip_spec (by decide : FaultCode.fanBlocked ≠ .ferr) 1 b (fanCtx b) (m.injecting .fanBlocked 0xFF) m).2
  rw [htrip] at hrep ⊢
  have hpresent : m.tachPresent b = n.tachPresent b :=
    tachPresent_of_reads (hsame.reads (fun n => n.core.params) fun _ _ => rfl) (hsame.reads Node.time fun _ _ => rfl)
      (hsame.reads (fun n => n.core.faults.points) fun _ _ => rfl) (by rw [hfan])
  have hnow : m.now = n.now := hsame.reads Node.now fun _ _ => rfl
  have hleft : m.parN Pid.fanRetries (idx b) = n.parN Pid.fanRetries (idx b) :=
    hsame.reads (fun n => n.parN Pid.fanRetries (idx b)) fun _ _ => rfl
  rw [startKick_of_left (hleft ▸ hr)]
  refine ⟨(fanRefresh_fansOf b _).reported ((modFan_fansOf b _ _).reported hrep), ?_, ?_⟩
  · have hlasting := congrArg FanState.blocked (fanRefresh_lasting b b ((m.modFaults fun y => { y with verdicts := y.verdicts ++ vs }).modFan b
      fun f => { f with phase := .kicking 1 (m.now + 1000000000) (m.tachPresent b) }))
    refine hlasting.trans ?_
    rw [modFan_same]
    exact congrArg FanState.blocked hfan
  · refine (refresh_enters _ rfl).trans ?_
    rw [← hnow, ← hpresent]
    rfl

section
variable {b : Bool} {n : Node} (hp : n.core.faults.points = [])
include hp

section
variable {v : Int} {began ends : Nat} (hx : (n.fan b).phase = .judging v began ends) (he : ends ≤ n.now)
include hx he

/-- R391: with the tach present and the air risen the fan runs. -/
theorem judgementEnd_of_risen (ht : n.tachPresent b = true) (ha : n.airRisen b v began = true) :
    n.judgementEnd b = n.modFan b fun f => { f with phase := .running } := by
  simp only [Node.judgementEnd, hx, if_neg (Nat.not_lt.mpr he), injecting_of_none n _ _ hp, ht, ha, Bool.false_eq_true, if_true, if_false]

/-- R395, R396: with the tach present and no rise the fan is unproven, and its duct is blocked where it has a velocity. -/
theorem judgementEnd_of_unrisen (ht : n.tachPresent b = true) (ha : n.airRisen b v began = false) :
    ((n.judgementEnd b).fan b).phase = .unproven ∧
      ((n.fanPath b).isSome = true → (n.ductV b).isSome = true → (n.judgementEnd b).reported .ductBlocked 0xFF) := by
  simp only [Node.judgementEnd, hx, if_neg (Nat.not_lt.mpr he), injecting_of_none n _ _ hp, ht, ha, Bool.false_eq_true, if_true, if_false]
  generalize hm : n.modFan b (fun f => { f with phase := .unproven }) = m
  have hphase : (m.fan b).phase = .unproven := by rw [← hm, modFan_same]
  have hsame : m.FansOf n := hm ▸ modFan_fansOf b _ n
  rw [← hsame.reads (fun n => n.fanPath b) fun _ _ => rfl, ← hsame.reads (fun n => n.ductV b) fun _ _ => rfl]
  split
  · rename_i hpath
    exact ⟨hphase, fun h => by rw [hpath] at h; exact nomatch h⟩
  · split
    · rename_i hnone
      exact ⟨hphase, fun _ h => by rw [Option.isNone_iff_eq_none.mp hnone] at h; exact nomatch h⟩
    · refine ⟨?_, fun _ _ => trip_reported _ _ _ _ _ _⟩
      rw [fan_of_sound (trip_sound _ _ _ _ _ _), modFan_same]
      exact hphase

/-- R391, R392: without the tach and without a duct velocity the fan is judged still. -/
theorem judgementEnd_of_silent (ht : n.tachPresent b = false) (hv : n.ductV b = none) : n.judgementEnd b = n.blockedVerdict b := by
  have hstill : n.judgeSilent b true = n.blockedVerdict b := by
    simp only [Node.judgeSilent, Node.attribute, hv, Node.silentVerdict, Bool.false_eq_true, if_true, if_false]
  simp only [Node.judgementEnd, hx, if_neg (Nat.not_lt.mpr he), injecting_of_none n _ _ hp, ht, hstill, Node.silentVerdict,
    Bool.false_eq_true, if_true, if_false, ite_self]

end

/-! ### The retry sequence -/

section
variable {k ends : Nat} {seen : Bool} (hx : (n.fan b).phase = .kicking k ends seen) (he : ends ≤ n.now)
include hx he

/-- R392: a kick that the tach has shown frees the fan. -/
theorem kickEnd_of_seen (ht : (seen || n.tachPresent b) = true) : n.kickEnd b =
    ((n.modFan b fun f => { f with phase := .running, blocked := false }).fanCease .fanBlocked FanState.blocked).fanRefresh b := by
  simp only [Node.kickEnd, hx, if_neg (Nat.not_lt.mpr he), injecting_of_none n _ _ hp, ht, Bool.not_false, Bool.and_self,
    Bool.false_eq_true, if_true, if_false]

/-- R392: after a failed kick that is not the last the sequence pauses. -/
theorem kickEnd_of_left (ht : (seen || n.tachPresent b) = false) (hk : k < n.parN Pid.fanRetries (idx b)) :
    n.kickEnd b = (n.modFan b fun f => { f with phase := .pausing k (n.now + 5000000000) }).fanRefresh b := by
  simp only [Node.kickEnd, hx, if_neg (Nat.not_lt.mpr he), injecting_of_none n _ _ hp, ht, Bool.false_and, Bool.false_eq_true, if_false,
    if_neg (Nat.not_le.mpr hk)]

theorem kickEnd_of_last (ht : (seen || n.tachPresent b) = false) (hk : n.parN Pid.fanRetries (idx b) ≤ k) : n.kickEnd b = n.lastKick b := by
  simp only [Node.kickEnd, hx, if_neg (Nat.not_lt.mpr he), injecting_of_none n _ _ hp, ht, Bool.false_and, Bool.false_eq_true, if_false,
    if_pos hk]

end

end

theorem seenKick_spec (b : Bool) (n : Node) :
    let m := ((n.modFan b fun f => { f with phase := .running, blocked := false }).fanCease .fanBlocked FanState.blocked).fanRefresh b
    (m.fan b).blocked = false ∧ ((m.fan b).phase = .running ∨ (m.fan b).phase = .unsupervised) := by
  have hfan : ((n.modFan b fun f => { f with phase := .running, blocked := false }).fanCease .fanBlocked FanState.blocked).fan b =
      { n.fan b with phase := .running, blocked := false } := by rw [fan_of_sound (fanCease_sound _ _ _), modFan_same]
  refine ⟨(congrArg FanState.blocked (fanRefresh_lasting b b _)).trans ?_, fanRefresh_of_running ?_⟩
  · exact congrArg FanState.blocked hfan
  · rw [hfan]

/-- R392: the fan that the last kick has not freed is held off, and reported, whatever its class action does. -/
theorem lastKick_spec (b : Bool) (n : Node) : ((n.lastKick b).fan b).phase = .heldOff ∧ (n.lastKick b).reported .fanBlocked 0xFF := by
  unfold Node.lastKick
  dsimp only
  generalize hm : n.modFan b (fun f => { f with phase := .heldOff }) = m
  have hphase : (m.fan b).phase = .heldOff := by rw [← hm, modFan_same]
  obtain ⟨hsound, hrep⟩ := fanTrip_spec (by decide : FaultCode.fanBlocked ≠ .ferr) (n.parN Pid.fanBlockclass (idx b)) b (fanCtx b)
    (m.injecting .fanBlocked 0xFF) m
  generalize m.fanTrip .fanBlocked (n.parN Pid.fanBlockclass (idx b)) b (fanCtx b) (m.injecting .fanBlocked 0xFF) = x at hsound hrep ⊢
  have hspares : (if n.parN Pid.fanBlockclass (idx b) = 2 then x else x.fanAction b).Spares x := by
    split
    · exact .refl x
    · exact fanAction_spares b x
  have hheld : ((if n.parN Pid.fanBlockclass (idx b) = 2 then x else x.fanAction b).fan b).phase = .heldOff := by
    rw [fan_of_sound (hspares.sound.trans hsound), hphase]
  exact ⟨(fanRefresh_of_staged (by rw [hheld]; rfl)).trans hheld,
    (fanRefresh_fansOf b _).reported (hspares.reported _ _ (by decide) hrep)⟩

theorem pauseEnd_of_due {b : Bool} {n : Node} {k ends : Nat} (hx : (n.fan b).phase = .pausing k ends) (he : ends ≤ n.now) :
    n.pauseEnd b = n.startKick b (k + 1) := by
  simp only [Node.pauseEnd, hx, if_neg (Nat.not_lt.mpr he)]

/-! ### The end of a probe -/

/-- The probed fan runs again, and the probe is over (R390). -/
theorem endProbe_spec {n : Node} {r : Probe} (hr : n.core.sound.probe = some r) : n.endProbe.core.sound.probe = none ∧
    n.endProbe.core.params = n.core.params ∧ n.endProbe.time = n.time ∧ n.endProbe.core.faults = n.core.faults ∧
    (∀ c, (n.endProbe.fan c).lasting = (n.fan c).lasting) ∧ ∀ c, c ≠ r.fan → n.endProbe.fan c = n.fan c := by
  have hend : n.endProbe = ((n.modSound fun s => { s with probe := none }).modFan r.fan fun f => { f with phase := .running }).fanRefresh r.fan := by
    simp only [Node.endProbe, hr]
  have hsame : n.endProbe.FansOf (n.modSound fun s => { s with probe := none }) :=
    hend ▸ (fanRefresh_fansOf r.fan _).trans (modFan_fansOf r.fan _ _)
  refine ⟨hsame.reads (fun n => n.core.sound.probe) fun _ _ => rfl, hsame.reads (fun n => n.core.params) fun _ _ => rfl,
    hsame.reads Node.time fun _ _ => rfl, hsame.reads (fun n => n.core.faults) fun _ _ => rfl, fun c => ?_, fun c hc => ?_⟩
  · rw [hend, fanRefresh_lasting]
    exact modFan_reading FanState.lasting (by exact rfl) c
  · rw [hend, fanRefresh_other _ hc, modFan_other _ _ hc]
    rfl

/-- R393, R394: a fan judged turning has lost its tach wire. -/
theorem wireVerdict_spec (b : Bool) (n : Node) : (n.wireVerdict b).reported .tachWire 0xFF ∧ ((n.wireVerdict b).fan b).wire = true ∧
    (n.wireVerdict b).core.sound.probe = n.core.sound.probe ∧ ∀ c, c ≠ b → (n.wireVerdict b).fan c = n.fan c := by
  unfold Node.wireVerdict
  dsimp only
  generalize hm : n.modFan b (fun f => { f with
    phase := .running, wire := true, watch := none, held := decide (n.parN Pid.fanSrc (idx b) ≠ 2)
    srcDuty := if decide (n.parN Pid.fanSrc (idx b) ≠ 2) = true then f.duty else f.srcDuty
    lowSince := if (n.ductV b).any (fun v => decide (v < n.airMin b)) = true then some n.now else none }) = m
  have hwire : (m.fan b).wire = true := by rw [← hm, modFan_same]
  have hsame : (m.supervise b).FansOf n := (supervise_fansOf b m).trans (hm ▸ modFan_fansOf b _ n)
  obtain ⟨hsound, hrep⟩ := fanTrip_spec (by decide : FaultCode.tachWire ≠ .ferr) 1 b (fanCtx b) (m.injecting .tachWire 0xFF) (m.supervise b)
  refine ⟨hrep, ?_, ?_, fun c hc => ?_⟩
  · rw [fan_of_sound hsound]
    exact (congrArg FanState.wire (supervise_lasting b b m)).trans hwire
  · rw [hsound]
    exact hsame.reads (fun n => n.core.sound.probe) fun _ _ => rfl
  · rw [fan_of_sound hsound, supervise_other m hc, ← hm, modFan_other _ n hc]

/-- R393: a fan judged not turning while it runs is watched; its conditions stay, and so does the other fan. -/
theorem watchVerdict_spec (b : Bool) (n : Node) : ((n.silentVerdict b false false).fan b).wire = (n.fan b).wire ∧
    (((n.silentVerdict b false false).fan b).phase = .running ∨ ((n.silentVerdict b false false).fan b).phase = .unsupervised) ∧
    (n.silentVerdict b false false).core.sound.probe = n.core.sound.probe ∧
    ∀ c, c ≠ b → (n.silentVerdict b false false).fan c = n.fan c := by
  simp only [Node.silentVerdict, Bool.false_eq_true, if_false]
  refine ⟨?_, supervise_of_running (by rw [modFan_same]), ?_, fun c hc => ?_⟩
  · refine (congrArg FanState.wire (supervise_lasting b b _)).trans ?_
    rw [modFan_same]
    rfl
  · exact (supervise_fansOf b _).reads (fun n => n.core.sound.probe) fun _ _ => rfl
  · rw [supervise_other _ hc, modFan_other _ n hc]

/-- Whether the drop of the duct velocity shows that the probed fan was turning (R390). -/
def Node.probeTurning (n : Node) (b : Bool) (r : Probe) : Bool :=
  r.vp.any fun v => decide (r.vb * n.par Pid.fanAirdrop (idx b) ≤ 100 * (r.vb - v))

/-- R390: at its end a probe of a silent running fan gives its verdict; the other fan runs on. -/
theorem probeEnd_of_due {b : Bool} {n : Node} {r : Probe} (hr : n.core.sound.probe = some r) (hx : (n.fan b).phase = .probing false)
    (hb : r.fan = b) (he : r.ends ≤ n.now) (ht : n.tachPresent b = false) (ho : (n.fan (!b)).phase = .running) :
    n.probeEnd b = n.endProbe.silentVerdict b false (n.probeTurning b r) := by
  obtain ⟨_, hparams, htime, hfaults, hlasting, hother⟩ := endProbe_spec hr
  have hsilent : n.endProbe.tachPresent b = false :=
    (tachPresent_of_reads hparams htime (congrArg Faults.points hfaults) (edges_of_lasting (hlasting b))).trans ht
  have hruns : ∀ tu, ((n.endProbe.silentVerdict b false tu).fan (!b)).phase = .running := fun tu => by
    have hne : (!b) ≠ b := Bool.not_ne_self b
    have hstays : (n.endProbe.silentVerdict b false tu).fan (!b) = n.endProbe.fan (!b) := by
      cases tu with
      | false => exact (watchVerdict_spec b _).2.2.2 _ hne
      | true => exact (wireVerdict_spec b _).2.2.2 _ hne
    rw [hstays, hother _ (hb ▸ hne), ho]
  simp only [Node.probeEnd, hr, hx, hb, bne_self_eq_false, Nat.not_lt.mpr he, decide_false, Bool.or_self, Bool.false_eq_true, if_false,
    hsilent]
  simp only [Node.probeTurning, hruns]

theorem probeEnd_spec {b : Bool} {n : Node} {r : Probe} (hr : n.core.sound.probe = some r) (hx : (n.fan b).phase = .probing false)
    (hb : r.fan = b) (he : r.ends ≤ n.now) (ht : n.tachPresent b = false) (ho : (n.fan (!b)).phase = .running) :
    (n.probeEnd b).core.sound.probe = none ∧
      (n.probeTurning b r = true → (n.probeEnd b).reported .tachWire 0xFF ∧ ((n.probeEnd b).fan b).wire = true) ∧
      (n.probeTurning b r = false → ((n.probeEnd b).fan b).wire = (n.fan b).wire ∧ ((n.probeEnd b).fan b).phase ≠ .probing false) := by
  obtain ⟨hnone, _, _, _, hlasting, _⟩ := endProbe_spec hr
  rw [probeEnd_of_due hr hx hb he ht ho]
  cases n.probeTurning b r with
  | true =>
    obtain ⟨hrep, hwire, hprobe, _⟩ := wireVerdict_spec b n.endProbe
    exact ⟨hprobe.trans hnone, fun _ => ⟨hrep, hwire⟩, fun h => nomatch h⟩
  | false =>
    obtain ⟨hwire, hphase, hprobe, _⟩ := watchVerdict_spec b n.endProbe
    refine ⟨hprobe.trans hnone, fun h => (nomatch h), fun _ => ⟨hwire.trans ?_, fun h => ?_⟩⟩
    · have := congrArg FanState.wire (hlasting b)
      exact this
    · rw [h] at hphase
      exact hphase.elim (fun h => nomatch h) (fun h => nomatch h)

/-! ### Times that pass -/

/-- R393: the watch of a fan that is still silent reports it stopped. -/
theorem stoptime_spec {b : Bool} {n : Node} {e : Nat} (hw : (n.fan b).watch = some e) (he : e ≤ n.now) (hs : (n.fan b).stopped = false)
    (ht : n.tachPresent b = false) (hv : n.supervised b = true) :
    (n.stoptime b).reported .fanStopped 0xFF ∧ ((n.stoptime b).fan b).stopped = true := by
  have hdue : n.stoptime b = (n.modFan b fun f => { f with watch := none, lowSince := none, stopped := true }).fanTrip .fanStopped 2 b
      (fanCtx b) false := by
    simp only [Node.stoptime, hw, hs, ht, hv, Option.any_some, he, decide_true, Bool.true_or, Bool.not_true, Bool.or_self,
      Bool.false_eq_true, if_false]
  rw [hdue]
  obtain ⟨hsound, hrep⟩ := fanTrip_spec (by decide : FaultCode.fanStopped ≠ .ferr) 2 b (fanCtx b) false
    (n.modFan b fun f => { f with watch := none, lowSince := none, stopped := true })
  exact ⟨hrep, by rw [fan_of_sound hsound, modFan_same]⟩

theorem any_passed {o : Option Nat} {e d t : Nat} (ho : o = some e) (he : e + d ≤ t) : (o.any fun e => decide (e + d ≤ t)) = true := by
  rw [ho, Option.any_some, decide_eq_true he]

/-- R395: a duct velocity low for the stop time under a running fan reports the duct blocked. -/
theorem ductTimeout_spec {b : Bool} {n : Node} {e : Nat} (hl : (n.fan b).lowSince = some e)
    (he : e + n.parN Pid.fanStoptime (idx b) * 1000000 ≤ n.now) (hpath : (n.fanPath b).isSome = true) (hd : (n.fan b).duct = false)
    (ht : n.tachPresent b = true) (hm : n.dutyPar Pid.fanMinduty b ≤ (n.fan b).duty) (hv : (n.ductV b).isSome = true) :
    (n.ductTimeout b).reported .ductBlocked 0xFF ∧ ((n.ductTimeout b).fan b).duct = true := by
  obtain ⟨p, hp⟩ := Option.isSome_iff_exists.mp hpath
  have hlow := any_passed hl he
  have hdue : n.ductTimeout b = (n.modFan b fun f => { f with duct := true }).trip .ductBlocked 1 0xFF (wN (idx p)) false := by
    simp only [Node.ductTimeout, hp, hlow, hd, ht, decide_eq_true hm, hv, Bool.not_false, Bool.and_self, if_true]
  rw [hdue]
  exact ⟨trip_reported _ _ _ _ _ _, by rw [fan_of_sound (trip_sound _ _ _ _ _ _), modFan_same]⟩

/-! ### FAN_SET -/

/-- The items that FAN_SET writes: the source and the fixed duty of either fan. -/
def fanItemIds : List Nat := [pidAt Pid.fanSrc 0, pidAt Pid.fanDuty 0, pidAt Pid.fanSrc 1, pidAt Pid.fanDuty 1]

theorem fanItem_written {id : Nat} (h : id ∈ fanItemIds) (old v : Word) (n : Node) : n.itemWritten id old v = n.fansWritten := by
  simp only [fanItemIds, List.mem_cons, List.not_mem_nil, or_false] at h
  rcases h with rfl | rfl | rfl | rfl <;> rfl

/-- They are no input mode, no item of the emulation or of an offset, and no limit of a profile. -/
theorem fanItem_plain : ∀ id ∈ fanItemIds, (paramBase id == Pid.inMode) = false ∧
    (id / 1024 == 0x0A || paramBase id == Pid.posOffset) = false ∧ ∀ c : Ch, limitOf c id = false := by
  decide

theorem cease_params (f : FaultCode) (sc : Nat) (n : Node) : (n.cease f sc).core.params = n.core.params :=
  cease_part (fun n => n.core.params) (fun _ _ => rfl) (fun _ _ _ _ _ => congrArg Core.params (event_core _ _ _ _ _)) f sc n

theorem ceaseAll_params (fs : List FaultCode) (sc : Nat) (n : Node) : (n.ceaseAll fs sc).core.params = n.core.params :=
  eachOf_part (fun n => n.core.params) (fun f m => m.cease f sc) (fun f m => cease_params f sc m) fs n

theorem soundStopped_params (n : Node) : n.soundStopped.core.params = n.core.params := by
  have hrtds : ∀ (scs : List Nat) (m : Node),
      (eachOf scs (fun sc m => m.ceaseAll [.rtdOpen, .rtdShort, .rtdHot] sc) m).core.params = m.core.params :=
    eachOf_part (fun n => n.core.params) (fun sc m => m.ceaseAll [.rtdOpen, .rtdShort, .rtdHot] sc) (ceaseAll_params _)
  unfold Node.soundStopped
  dsimp only
  rw [hrtds, cease_params]
  rfl

theorem fansWritten_params (n : Node) : n.fansWritten.core.params = n.core.params := by
  unfold Node.fansWritten
  split
  · exact (eachFan_fansOf Node.supervise supervise_fansOf n).reads (fun n => n.core.params) fun _ _ => rfl
  · exact ((fansRefresh_fansOf _).reads (fun n => n.core.params) fun _ _ => rfl).trans (soundStopped_params n)

/-- R571: a write of fans' items leaves the working set as it was but for them. -/
theorem writeItems_params_of_fans {items : List (Nat × Word)} (h : ∀ e ∈ items, e.1 ∈ fanItemIds) (n : Node) :
    (n.writeItems items).core.params = n.core.params.putAll items := by
  have hmode : (items.filter fun e => paramBase e.1 == Pid.inMode && n.core.params.get e.1 != e.2) = [] :=
    List.filter_eq_nil_iff.mpr fun e he => by rw [(fanItem_plain e.1 (h e he)).1]; exact Bool.false_ne_true
  have hmoves : (items.any fun e => e.1 / 1024 == 0x0A || paramBase e.1 == Pid.posOffset) = false :=
    List.any_eq_false.mpr fun e he => by rw [(fanItem_plain e.1 (h e he)).2.1]; exact Bool.false_ne_true
  have hlimit : ∀ c : Ch, (items.any fun e => limitOf c e.1) = false :=
    fun c => List.any_eq_false.mpr fun e he => by rw [(fanItem_plain e.1 (h e he)).2.2 c]; exact Bool.false_ne_true
  simp only [Node.writeItems, hmode, hmoves, hlimit, Bool.false_eq_true, if_false]
  refine (eachCh_part (fun n => n.core.params) _ (fun _ _ => rfl) _).trans ?_
  exact eachOf_keeps (fun m => m.core.params = n.core.params.putAll items) _ items
    (fun e he m hm => by rw [fanItem_written (h e he), fansWritten_params, hm]) _ rfl

theorem effect_fanSet (s : State) (p : Packet) (h : s.node.runsNow (asRow .fanSet p) = true) :
    Effect (.fanSet p) s fun m => m.core.params = s.node.core.params.putAll
      (([false, true].filter fun b => bitOf (pw p 0) (idx b)).flatMap fun b =>
        (pidAt Pid.fanSrc (idx b), wN (fld (pw p 0) 3 2)) ::
          if fld (pw p 0) 3 2 = 0 then [(pidAt Pid.fanDuty (idx b), wN (fld (pw p 0) 13 4))] else []) := by
  obtain ⟨_, hrun⟩ := runsNow_spec _ _ h
  have hbody := congrArg Core.params (packetRow_sameBut cmdFanSet _ _ h).core
  have hparams := atCommit_reads (fun n => n.core.params) (fun _ => rfl) _ _ h
  refine ⟨_, rfl, ?_⟩
  refine Eq.trans hbody ?_
  show (Node.writeItems _ _).core.params = _
  rw [hrun.packet, writeItems_params_of_fans, hparams]
  · rfl
  · intro e he
    obtain ⟨b, _, he⟩ := List.mem_flatMap.mp he
    have hid : e.1 = pidAt Pid.fanSrc (idx b) ∨ e.1 = pidAt Pid.fanDuty (idx b) := by
      split at he <;> simp only [List.mem_cons, List.not_mem_nil, or_false] at he
      · exact he.imp (congrArg Prod.fst) (congrArg Prod.fst)
      · exact .inl (congrArg Prod.fst he)
    cases b <;> rcases hid with hid | hid <;> rw [hid] <;> decide

/-- Settles O44: the rows of the fans with no pitch point armed. A judgement moves only its fan; the class action that follows a verdict
spares the fans and what is known of them (`fanTrip_spec`); and a refresh of the duty keeps a fan's conditions and its stage. -/
theorem fans : Obligations.Fans := by
  refine ⟨effect_fanSet, fun s f t hup hp => ?_⟩
  intro b n x
  refine ⟨effect_of_up rfl hup (tachEdge_edges (n := n) hp), fun hpresent hsilent => effect_of_up rfl hup ?silent,
    fun v began ends hx he => ⟨?risen, ?unrisen, ?blocked⟩, fun k ends seen hx he => ⟨?seen, ?pauses, ?held⟩, ?pause, ?probe, ?stop, ?duct⟩
  case silent =>
    have htach := (congrFun (tachSilent_tachs (n := n) hpresent hsilent) b).trans (markSilent_tach b n)
    exact ⟨congrArg (fun y => y.2.1) htach, congrArg (fun y => y.2.2) htach⟩
  case risen =>
    refine fun ht ha => effect_of_up rfl hup ?_
    rw [judgementEnd_of_risen (n := n) hp hx he ht ha, modFan_same]
  case unrisen => exact fun ht ha => effect_of_up rfl hup (judgementEnd_of_unrisen (n := n) hp hx he ht ha)
  case blocked =>
    refine fun ht hv hr => effect_of_up rfl hup ?_
    have hkicked := blockedVerdict_spec (n := n) hr
    rwa [ht, ← judgementEnd_of_silent (n := n) hp hx he ht hv] at hkicked
  case seen =>
    refine fun ht => effect_of_up rfl hup ?_
    rw [kickEnd_of_seen (n := n) hp hx he ht]
    exact seenKick_spec b n
  case pauses =>
    refine fun ht hk => effect_of_up rfl hup ?_
    rw [kickEnd_of_left (n := n) hp hx he ht hk]
    exact refresh_enters n rfl
  case held =>
    refine fun ht hk => effect_of_up rfl hup ?_
    rw [kickEnd_of_last (n := n) hp hx he ht hk]
    exact lastKick_spec b n
  case pause =>
    refine fun k ends hx he hk => effect_of_up rfl hup ?_
    rw [pauseEnd_of_due (n := n) hx he, startKick_of_left (n := n) hk]
    exact refresh_enters n rfl
  case probe =>
    intro r st hr hx hb he ht hst ho
    subst hst
    exact effect_of_up rfl hup (probeEnd_spec (n := n) hr hx hb he ht ho)
  case stop =>
    rintro ⟨e, hw, he⟩ hs ht hv
    exact effect_of_up rfl hup (stoptime_spec (n := n) hw he hs ht hv)
  case duct => exact fun e hl he hpath hd ht hm hv => effect_of_up rfl hup (ductTimeout_spec (n := n) hl he hpath hd ht hm hv)

end Sys2Proof.Machine
end

section
/-!
PROOFS. Sound and heat (11_sound_heat_air.md R368 to R383, R398): the three reads, the measuring rounds, and the zero-flow calibration.
-/
namespace Sys2Proof.Machine

/-! ### The reads -/

/-- A command that answers with words of the node and changes nothing replies with the words before its packet. -/
theorem answersWith_words {oc : Opcode} {p : Packet} {n : Node} {f : PoolOp → Node → Ans × Node} (g : Node → List Word)
    (hf : ∀ op m, f op m = (.ok (g m), m)) (hg : ∀ m, g m.body = g m) (ha : oc.answersLater = false)
    (h : n.runsNow (asRow oc p) = true) : n.answersWith (asRow oc p) .done [g n] false (n.packetRow f (asRow oc p)) :=
  answersWith_reader f _ n h .done [g n] false (by rw [hf, atCommit_reads g hg _ n h]; rfl)
    (notAccepted _ n oc h (opcodeOf_asRow oc p) ha)

/-! ### A round starts -/

/-- R368: outside a calibration a round starts at a multiple of SND.ROUND, with the items in force. -/
theorem startRound_of_due {n : Node} (hrun : n.roundsRun = true) (hc : n.core.sound.cal = none) (hr : n.core.sound.round = none)
    (ht : n.time.lt % (n.parN Pid.sndRound 0 * 1000000) = 0) : n.startRound.core.sound.round = some
      { start := n.p0Stamp, items := n.core.params, pathA := pathFitted n.core.params false,
        pathB := pathFitted n.core.params true, rtds := true, cal := false } := by
  have hrounds : n.core.sound.noRounds = false := by
    simp only [Node.roundsRun, Bool.and_eq_true, Bool.not_eq_true'] at hrun
    exact hrun.1
  simp only [Node.startRound, hrounds, hr, hc, Node.normalRound, hrun, ht, Option.isSome_none, Bool.or_self, Bool.false_eq_true, if_false,
    beq_self_eq_true, Bool.and_self, if_true]
  rfl

/-! ### A round is published -/

/-- The unit's rounds and results: all of it but the fans, the calibration and the probe. -/
def Node.measured (n : Node) : Sound := { n.core.sound with fans := ⟨{}, {}⟩, cal := none, probe := none }

theorem measured_of_sound {m n : Node} (h : m.core.sound = n.core.sound) : m.measured = n.measured := by
  rw [Node.measured, h]
  rfl

theorem Node.FansOf.measured {m n : Node} (h : m.FansOf n) : m.measured = n.measured := h.reads Node.measured fun _ _ => rfl

@[simp] theorem useInjection_sound (f : FaultCode) (sc k : Nat) (n : Node) : (n.useInjection f sc k).core.sound = n.core.sound := by
  unfold Node.useInjection
  split <;> rfl

/-- Each detector of a scope trips or ceases, and uses up its injection. -/
theorem rtdVerdicts_sound (ps : ParamMem) (n : Node) : (n.rtdVerdicts ps).core.sound = n.core.sound := by
  have hjudge : ∀ (f : FaultCode) (cls sc : Nat) (cond unused : Bool) (m : Node),
      (if unused then (if cond then m.trip f cls sc 0 (m.injecting f sc) else m.cease f sc)
        else (if cond then m.trip f cls sc 0 (m.injecting f sc) else m.cease f sc).useInjection f sc 1).core.sound = m.core.sound :=
    fun f cls sc cond unused m => by
      simp only [apply_ite (fun n : Node => n.core.sound), useInjection_sound, trip_sound, cease_sound, ite_self]
  exact eachOf_part (fun n => n.core.sound) _ (fun sc m => (hjudge _ _ _ _ _ _).trans ((hjudge _ _ _ _ _ _).trans (hjudge _ _ _ _ _ m))) _ n

theorem mediumVerdict_sound (ps : ParamMem) (n : Node) : (n.mediumVerdict ps).core.sound = n.core.sound := by
  simp only [Node.mediumVerdict, apply_ite (fun n : Node => n.core.sound), useInjection_sound, trip_sound, cease_sound, ite_self]

theorem calEnd_measured (st : Status) (ws : List Word) (n : Node) : (n.calEnd st ws).measured = n.measured := by
  cases h : n.core.sound.cal with
  | none => simp only [Node.calEnd, h]
  | some c =>
    rw [calEnd_of_some h, measured_of_sound (endOrder_spares c.op st ws _).sound, (fansRefresh_fansOf _).measured]
    rfl

theorem collect_measured (r : RoundRun) (n : Node) : (n.collect r).measured = n.measured := by
  unfold Node.collect
  split
  · rfl
  · dsimp only
    split <;> rfl

theorem probeTake_measured (start : Nat) (n : Node) : (n.probeTake start).measured = n.measured := by
  unfold Node.probeTake
  split <;> rfl

theorem airflowStep_fansOf (ps : ParamMem) (b : Bool) (n : Node) : (n.airflowStep ps b).FansOf n := by
  unfold Node.airflowStep
  split
  · exact .refl n
  · split
    · exact .refl n
    · exact modFan_fansOf b _ n

theorem judgeEarly_fansOf (b : Bool) (n : Node) : (n.judgeEarly b).FansOf n := by
  rcases judgeEarly_cases b n with h | h <;> rw [h]
  · exact .refl n
  · exact modFan_fansOf b _ n

theorem fanAir_measured (b : Bool) (n : Node) : (n.fanAir b).measured = n.measured :=
  (measured_of_sound (fanCease_sound _ _ _)).trans (modFan_fansOf b _ n).measured

/-- What a published round has the fans, the detectors, the calibration and the probe do leaves the results as published. -/
theorem publishRound_spec {n : Node} {r : RoundRun} (x : RoundData) (hr : n.core.sound.round = some r) (hp : n.core.faults.points = []) :
    ∃ m : Node, (n.publishRound x).measured = m.measured ∧ m.core.sound.round = none ∧ m.core.sound.published = true ∧
      m.core.sound.last = r.start ∧
      m.core.sound.lastSeq = (if n.core.sound.published then n.core.sound.lastSeq + 1 else 0) ∧
      m.core.sound.rtds = n.rtdResults r x ∧
      (r.pathA = true → m.core.sound.paths.a =
        pathResult r.items false n.core.sound.level.a (x.paths.get false) (airRef r.items (n.rtdResults r x)) false) ∧
      (r.pathB = true → m.core.sound.paths.b =
        pathResult r.items true n.core.sound.level.b (x.paths.get true) (airRef r.items (n.rtdResults r x)) false) := by
  have hfans : ∀ m : Node, (eachFan (fun b m => ((m.fanRefresh b).judgeEarly b).fanAir b) m).measured = m.measured := fun m => by
    have hone : ∀ (b : Bool) (m : Node), (((m.fanRefresh b).judgeEarly b).fanAir b).measured = m.measured := fun b m =>
      (fanAir_measured b _).trans ((judgeEarly_fansOf b _).trans (fanRefresh_fansOf b m)).measured
    exact (hone true _).trans (hone false m)
  have hflow : ∀ m : Node, (if r.cal then m else eachFan (Node.airflowStep r.items) m).measured = m.measured := fun m => by
    split
    · rfl
    · exact (eachFan_fansOf _ (airflowStep_fansOf r.items) m).measured
  have habort : ∀ (c : Bool) (m : Node), (if c then m.calAbort else m).measured = m.measured := fun c m => by
    split
    · exact calEnd_measured .aborted [] m
    · rfl
  have hverdicts : ∀ m : Node, ((if r.rtds then m.rtdVerdicts r.items else m).mediumVerdict r.items).measured = m.measured := fun m => by
    refine measured_of_sound ((mediumVerdict_sound _ _).trans ?_)
    split
    · exact rtdVerdicts_sound r.items m
    · rfl
  unfold Node.publishRound
  rw [hr]
  dsimp only
  refine ⟨_, (hfans _).trans ((hflow _).trans ((probeTake_measured _ _).trans ((collect_measured r _).trans ((habort _ _).trans (hverdicts _))))),
    rfl, rfl, rfl, rfl, rfl, fun ha => ?_, fun hb => ?_⟩
  · have hinj : (n.atT (max n.time.dt n.time.outat)).injecting .medium 0xFF = false := injecting_of_none _ _ _ hp
    simp only [modSound_core, RoundRun.has, ha, hinj]
    rfl
  · simp only [modSound_core, RoundRun.has, hb]
    rfl

theorem effect_soundRoundPublish (s : State) (x : RoundData) (r : RoundRun) (hup : s.node.up = true)
    (hr : s.node.core.sound.round = some r) (hp : s.node.core.faults.points = []) :
    Effect (.soundRoundPublish x) s fun m =>
      let ref := airRef r.items (s.node.rtdResults r x)
      m.core.sound.round = none ∧ m.core.sound.published = true ∧ m.core.sound.last = r.start ∧
      m.core.sound.lastSeq = (if s.node.core.sound.published then s.node.core.sound.lastSeq + 1 else 0) ∧
      m.core.sound.rtds = s.node.rtdResults r x ∧
      (r.pathA = true → m.core.sound.paths.a = pathResult r.items false s.node.core.sound.level.a (x.paths.get false) ref false) ∧
      (r.pathB = true → m.core.sound.paths.b = pathResult r.items true s.node.core.sound.level.b (x.paths.get true) ref false) := by
  obtain ⟨m, hm, hround, hpublished, hlast, hseq, hrtds, ha, hb⟩ := publishRound_spec x hr hp
  have hround' := congrArg Sound.round hm
  have hpublished' := congrArg Sound.published hm
  have hlast' := congrArg Sound.last hm
  have hseq' := congrArg Sound.lastSeq hm
  have hrtds' := congrArg Sound.rtds hm
  have hpaths := congrArg Sound.paths hm
  exact effect_of_up rfl hup ⟨hround'.trans hround, hpublished'.trans hpublished, hlast'.trans hlast, hseq'.trans hseq, hrtds'.trans hrtds,
    fun h => (congrArg Duo.a hpaths).trans (ha h), fun h => (congrArg Duo.b hpaths).trans (hb h)⟩

/-! ### The start of a zero-flow calibration -/

theorem supervise_duty (b c : Bool) (n : Node) : ((n.supervise b).fan c).duty = (n.fan c).duty := by
  rcases supervise_cases b n with h | ⟨p, w, l, h⟩ <;> rw [h]
  exact modFan_reading FanState.duty (by exact rfl) c

/-- R378: while a calibration stands no fan turns. -/
theorem fanRefresh_duty_of_cal {b : Bool} {n : Node} (h : n.core.sound.cal.isSome = true) : ((n.fanRefresh b).fan b).duty = 0 := by
  unfold Node.fanRefresh
  dsimp only
  rw [supervise_duty, modFan_same]
  exact if_pos h

theorem fansForCal_fansOf (n : Node) : n.fansForCal.FansOf n :=
  eachFan_fansOf _ (fun b _ => (fanRefresh_fansOf b _).trans (modFan_fansOf b _ _)) n

theorem fansForCal_duty {n : Node} (h : n.core.sound.cal.isSome = true) (b : Bool) : (n.fansForCal.fan b).duty = 0 := by
  have hcal : ∀ m : Node, m.FansOf n → m.core.sound.cal.isSome = true := fun m hm =>
    (hm.reads (fun n => n.core.sound.cal.isSome) fun _ _ => rfl).trans h
  cases b with
  | true => exact fanRefresh_duty_of_cal (hcal _ ((modFan_fansOf _ _ _).trans ((fanRefresh_fansOf _ _).trans (modFan_fansOf _ _ n))))
  | false =>
    refine (congrArg FanState.duty ((fanRefresh_other _ (by decide)).trans (modFan_other _ _ (by decide)))).trans ?_
    exact fanRefresh_duty_of_cal (hcal _ (modFan_fansOf _ _ n))

/-- The calibration that a ZERO_FLOW_CAL starts under an order number (R378). -/
def calibFor (o : Nat) (q : Packet) (n : Node) : Calib :=
  { op := o, pathA := bitOf (pw q 0) 0, pathB := bitOf (pw q 0) 1
    waitEnd := n.now + n.parN Pid.sndCalwait 0 * 1000000000, want := n.parN Pid.sndCaln 0 }

/-- R377: the node may calibrate the paths that a packet names. -/
structure Node.MayCalibrate (n : Node) (q : Packet) : Prop where
  named : (bitOf (pw q 0) 0 || bitOf (pw q 0) 1) = true
  fittedA : bitOf (pw q 0) 0 = true → pathFitted n.core.params false = true
  fittedB : bitOf (pw q 0) 1 = true → pathFitted n.core.params true = true
  cool : n.isActive .overtemp 0xFF = false
  mild : ∀ r ∈ n.core.sound.rtds.toList, r.warn = false
  free : n.core.sound.cal = none
  idleA : (n.fan false).engaged = false
  idleB : (n.fan true).engaged = false

theorem cmdZeroFlowCal_of_may {op : PoolOp} {n : Node} (h : n.MayCalibrate op.packet) :
    cmdZeroFlowCal op n = (.wait, (n.modSound fun s => { s with cal := some (calibFor op.order op.packet n) }).fansForCal) := by
  obtain ⟨hnamed, hA, hB, hcool, hmild, hfree, hidleA, hidleB⟩ := h
  have hunfit : ∀ on fit : Bool, (on = true → fit = true) → (on && !fit) = false := by decide
  have hhot : (n.core.sound.rtds.toList.any fun r => r.enabled && r.valid && r.warn) = false :=
    List.any_eq_false.mpr fun r hr => by rw [hmild r hr, Bool.and_false]; exact Bool.false_ne_true
  simp only [cmdZeroFlowCal, hnamed, hunfit _ _ hA, hunfit _ _ hB, hcool, hhot, hfree, hidleA, hidleB, Option.isSome_none, Bool.not_true,
    Bool.or_self, Bool.false_eq_true, if_false]
  rfl

theorem mayCalibrate_atCommit {q p : Packet} {n : Node} (hq : n.runsNow q = true) (h : n.MayCalibrate p) : (n.atCommit q).MayCalibrate p := by
  have hparams := atCommit_reads (fun n => n.core.params) (fun _ => rfl) q n hq
  have hsound := atCommit_reads (fun n => n.core.sound) (fun _ => rfl) q n hq
  have hcool := atCommit_reads (fun n => n.isActive .overtemp 0xFF) (fun _ => rfl) q n hq
  exact ⟨h.named, hparams ▸ h.fittedA, hparams ▸ h.fittedB, hcool.trans h.cool, hsound ▸ h.mild, hsound ▸ h.free,
    (fan_of_sound hsound false) ▸ h.idleA, (fan_of_sound hsound true) ▸ h.idleB⟩

/-- R378: a calibration that may start waits with both fans at 0 %. -/
theorem effect_zeroFlowCal (s : State) (p : Packet) (h : s.node.runsNow (asRow .zeroFlowCal p) = true)
    (hmay : s.node.MayCalibrate (asRow .zeroFlowCal p)) :
    Effect (.zeroFlowCal p) s fun m => s.node.goesOn (asRow .zeroFlowCal p) m ∧ (m.fan false).duty = 0 ∧ (m.fan true).duty = 0 ∧
      m.core.sound.cal = some (calibFor (s.node.opFrom (asRow .zeroFlowCal p)).order (asRow .zeroFlowCal p) s.node) := by
  obtain ⟨_, hrun⟩ := runsNow_spec _ _ h
  have hcmd := cmdZeroFlowCal_of_may (op := s.node.opFrom (asRow .zeroFlowCal p)) (n := s.node.atCommit (asRow .zeroFlowCal p))
    (by rw [hrun.packet]; exact mayCalibrate_atCommit h hmay)
  rw [hrun.packet, atCommit_reads (calibFor _ _) (fun _ => rfl) _ _ h] at hcmd
  have hsound := congrArg Core.sound (packetRow_sameBut cmdZeroFlowCal _ _ h).core
  rw [hcmd] at hsound
  refine ⟨_, rfl, packetRow_goesOn h hcmd ?_, ?_, ?_, (congrArg Sound.cal hsound).trans ?_⟩
  · exact (fansForCal_fansOf _).reads (fun n => n.opOf _) fun _ _ => rfl
  · exact (congrArg FanState.duty (fan_of_sound hsound false)).trans (fansForCal_duty rfl false)
  · exact (congrArg FanState.duty (fan_of_sound hsound true)).trans (fansForCal_duty rfl true)
  · exact (fansForCal_fansOf _).reads (fun n => n.core.sound.cal) fun _ _ => rfl

/-! ### The end of a zero-flow calibration -/

/-- R381: a calibration that ends leaves the working set. -/
theorem calEnd_spec {n : Node} {c : Calib} (h : n.core.sound.cal = some c) (st : Status) (ws : List Word) :
    (n.calEnd st ws).core.sound.cal = none ∧ (n.calEnd st ws).core.params = n.core.params := by
  rw [calEnd_of_some h, (endOrder_spares c.op st ws _).sound, endOrder_params]
  exact ⟨(fansRefresh_fansOf _).reads (fun n => n.core.sound.cal) fun _ _ => rfl,
    (fansRefresh_fansOf _).reads (fun n => n.core.params) fun _ _ => rfl⟩

section
variable {n : Node} {c : Calib} (hc : n.core.sound.cal = some c)
include hc

/-- R378: with both tachs silent at the end of the wait the collection begins. -/
theorem calQuiet_of_silent (hn : c.nextRound = none) (ha : n.tachPresent false = false) (hb : n.tachPresent true = false)
    (hw : c.waitEnd ≤ n.now) : n.calQuiet.core.sound.cal = some { c with nextRound := some n.now } := by
  simp only [Node.calQuiet, hc, hn, ha, hb, decide_eq_true hw, Option.isSome_none, Bool.not_false, Bool.or_true, Bool.and_self,
    Bool.false_eq_true, if_true, if_false]
  rfl

/-- R378: with a tach present at the end of the wait the calibration ends. -/
theorem calQuiet_of_turning (hn : c.nextRound = none) (ha : n.tachPresent false = true) (hw : c.waitEnd ≤ n.now) :
    n.calQuiet = n.calEnd .calUnstable [] := by
  simp only [Node.calQuiet, hc, hn, ha, decide_eq_true hw, Option.isSome_none, Bool.not_true, Bool.false_and, Bool.false_eq_true, if_true,
    if_false]

/-- R379: a collection with a bad round changes no item. -/
theorem calDone_of_bad (hn : c.nextRound.isSome = true) (hbad : c.bad = true) : n.calDone = n.calEnd .calUnstable [] := by
  simp only [Node.calDone, hc, Option.isNone_eq_false_iff.mpr hn, hbad, Bool.true_or, Bool.not_true, Bool.or_self, Bool.false_eq_true,
    if_true, if_false]

/-- R379, R380: a good collection of path A alone sets its zero flow and saves it. -/
theorem calDone_of_good {z d : Int} (hn : c.nextRound.isSome = true) (hbad : c.bad = false) (hw : c.want ≤ c.rounds)
    (ha : c.pathA = true) (hb : c.pathB = false) (hj : calJudge c.a = some (z, d)) : n.calDone =
      (((n.modCore fun k => { k with params := k.params.putAll [(pidAt Pid.sndZero 0, wI z)] }).saveZero
        [(pidAt Pid.sndZero 0, wI z)]).calEnd .done [wI z, wI d]) := by
  simp only [Node.calDone, hc, Option.isNone_eq_false_iff.mpr hn, hbad, decide_eq_true hw, ha, hb, hj, Bool.false_or, Bool.not_true,
    Bool.or_self, Bool.false_eq_true, if_true, if_false, Option.isNone_some, Bool.and_false, Bool.false_and]
  rfl

end

theorem saveZero_core (items : List (Nat × Word)) (n : Node) : (n.saveZero items).core = n.core := by
  unfold Node.saveZero
  dsimp only
  split <;> rfl

/-- Settles O43: the reads answer with words of the node as it stood before their packet; what follows a publication leaves the published
results (`publishRound_spec`; the first round bears sequence 0, log entry 56); and a calibration that ends leaves the working set, but for
the zero flow that its collection gave. -/
theorem soundAndHeat : Obligations.SoundAndHeat := by
  refine ⟨fun s p => ⟨fun h => ?soundRead, fun h => ?rtdRead, fun h => ?fanRead⟩,
    fun s hup hrun hc hr ht => effect_of_up rfl hup (startRound_of_due hrun hc hr ht), effect_soundRoundPublish, fun s p => ?calibrates,
    fun s t c hup hc => ?_⟩
  case soundRead =>
    exact ⟨_, rfl, answersWith_words (fun m => m.roundWords ++ m.core.sound.paths.a.report ++ m.core.sound.paths.b.report)
      (fun _ _ => rfl) (fun _ => rfl) rfl h⟩
  case rtdRead =>
    exact ⟨_, rfl, answersWith_words (fun m => m.roundWords ++ m.core.sound.rtds.toList.flatMap RtdResult.report)
      (fun _ _ => rfl) (fun _ => rfl) rfl h⟩
  case fanRead =>
    exact ⟨_, rfl, answersWith_words (fun m => m.fanWords false ++ m.fanWords true) (fun _ _ => rfl) (fun _ => rfl) rfl h⟩
  case calibrates =>
    exact fun h hnamed hA hB hcool hmild hfree hidleA hidleB => effect_zeroFlowCal s p h ⟨hnamed, hA, hB, hcool, hmild, hfree, hidleA, hidleB⟩
  intro n
  have hcal : n.core.sound.cal = some c := hc
  refine ⟨fun hn ha hb hw => effect_of_up rfl hup (calQuiet_of_silent hcal hn ha hb hw), fun hn ha hw => effect_of_up rfl hup ?turning,
    fun z d hn hbad hw ha hb hj => effect_of_up rfl hup ?good, fun hn hbad => effect_of_up rfl hup ?bad⟩
  case turning =>
    rw [calQuiet_of_turning hcal hn ha hw]
    exact calEnd_spec hcal .calUnstable []
  case bad =>
    rw [calDone_of_bad hcal hn hbad]
    exact calEnd_spec hcal .calUnstable []
  case good =>
    rw [calDone_of_good hcal hn hbad hw ha hb hj]
    have hsaved := saveZero_core [(pidAt Pid.sndZero 0, wI z)]
      (n.modCore fun k => { k with params := k.params.putAll [(pidAt Pid.sndZero 0, wI z)] })
    obtain ⟨hnone, hparams⟩ := calEnd_spec ((congrArg (fun k : Core => k.sound.cal) hsaved).trans hcal) .done [wI z, wI d]
    exact ⟨hnone, hparams.trans (congrArg Core.params hsaved)⟩

end Sys2Proof.Machine
end

section
/-!
PROOFS. The queue and the step, the talk of the clients, STATUS, the TAP, and the reading and refusing of items
(02_commands_and_clients.md, 17_opcode_reference.md, 18_pins_and_host_port.md).
-/
namespace Sys2Proof.Machine

/-! ### The queue -/

/-- Settles O1: the step is its match on the queue, and an empty queue idles by log entry 3. -/
theorem stepRunsTheFrontCommand : Obligations.StepRunsTheFrontCommand := ⟨fun _ _ _ => rfl, fun _ => rfl⟩

/-- The node that a command makes of a node behind which nothing waits. -/
def Node.afterAlone (c : Instr) (n : Node) : Node :=
  match exec c { node := n, pending := [] } with
  | .next s => s.node
  | _ => n

/-- The row of each command is a change of the node alone, so the queue takes no part in it. -/
theorem exec_eq_afterAlone (c : Instr) (n : Node) (rest : List Instr) :
    exec c { node := n, pending := rest } = .next { node := n.afterAlone c, pending := rest } := by
  cases c <;> rfl

/-- Settles O2: what a command makes of the node with an empty queue it makes of it with any. -/
theorem everyCommandHasAnEffect : Obligations.EveryCommandHasAnEffect :=
  fun c s => ⟨Node.afterAlone c, fun rest => exec_eq_afterAlone c s.node rest⟩

/-! ### Commands that only read -/

/-- Settles O3: PING's row is a command that only reads, and its words are those of the packet. -/
theorem pingReturnsItsWords : Obligations.PingReturnsItsWords := by
  intro s p h
  obtain ⟨_, hr⟩ := runsNow_spec _ _ h
  refine ⟨_, rfl, answersWith_reader cmdPing _ s.node h _ _ _ ?_ (notAccepted _ _ _ h (opcodeOf_asRow _ _) rfl)⟩
  rw [cmdPing, hr.packet]
  rfl

/-- Settles O16: PARAM_READ's row is a command that only reads, at the node as it stands at the commit. -/
theorem paramReadReturnsTheValues : Obligations.ParamReadReturnsTheValues := by
  intro s p h
  obtain ⟨_, hr⟩ := runsNow_spec _ _ h
  refine ⟨_, rfl, answersWith_reader cmdParamRead _ s.node h _ _ _ ?_ (notAccepted _ _ _ h (opcodeOf_asRow _ _) rfl)⟩
  have hid : (s.node.atCommit (asRow .paramRead p)).localId = s.node.localId :=
    atCommit_reads Node.localId (fun _ => rfl) _ s.node h
  rw [cmdParamRead, hr.packet, hid]
  rfl

/-- Settles O18: where the judgement of the items fails, the row answers with it and leaves the node of the commit. -/
theorem refusedWritesWriteNothing : Obligations.RefusedWritesWriteNothing := by
  intro s p st ws h hj
  obtain ⟨_, hr⟩ := runsNow_spec _ _ h
  have hitems : (s.node.atCommit (asRow .paramWrite p)).localItems (asRow .paramWrite p) = s.node.localItems (asRow .paramWrite p) :=
    atCommit_reads (fun n => n.localItems (asRow .paramWrite p)) (fun _ => rfl) _ s.node h
  refine ⟨_, rfl, answersWith_reader cmdParamWrite _ s.node h _ _ _ ?_ (notAccepted _ _ _ h (opcodeOf_asRow _ _) rfl)⟩
  rw [cmdParamWrite, hr.packet, hitems, Node.writeJudged, hr.client, asRow_sender, hj]

/-! ### Commands that change their sender's record -/

theorem clientRec_client (c : Client) (n : Node) : (n.clientRec c).client = c := by
  unfold Node.clientRec
  cases hf : n.clients.find? fun r => r.client == c with
  | none => rfl
  | some r => simpa using List.find?_some hf

/-- A final reply changes no more of a client's record than the replay cache. -/
theorem finish_clientRec (c : Client) (p : Packet) (st : Status) (ch : List (List Word)) (g : Bool) (k : Nat) (n : Node) :
    ((n.finish p st ch g k).clientRec c).subs = (n.clientRec c).subs ∧
      ((n.finish p st ch g k).clientRec c).refuted = (n.clientRec c).refuted := by
  have hrec : ∀ ps, (n.emitAll (senderOf p) ps).clientRec c = n.clientRec c := fun ps => by simp [Node.clientRec]
  unfold Node.finish Node.cacheReply
  split
  · rw [clientRec_setClient]
    split
    next hc =>
      have hc : c = senderOf p := hc.trans (clientRec_client _ _)
      subst hc
      exact ⟨by rw [hrec], by rw [hrec]⟩
    next => exact ⟨by rw [hrec], by rw [hrec]⟩
  · exact ⟨by rw [hrec], by rw [hrec]⟩

/-- A command that is answered at its commit, and of the node changes its sender's record alone. -/
structure Node.TalksTo (p : Packet) (st : Status) (ws : List Word) (r : ClientRec) (n m : Node) : Prop where
  sent : m.sentTo (senderOf p) = n.sentTo (senderOf p) ++ n.finalReply p st [ws] false
  body : m.body = n.body
  subs : (m.clientRec (senderOf p)).subs = r.subs
  refuted : (m.clientRec (senderOf p)).refuted = r.refuted

theorem packetRow_talksTo {f : PoolOp → Node → Ans × Node} {p : Packet} {n : Node} {st : Status} {ws : List Word} {r : ClientRec}
    (h : n.runsNow p = true) (hacc : acceptedOnArrival p = false) (hr : r.client = senderOf p)
    (hf : f (n.opFrom p) (n.atCommit p) = (.final st [ws] false, (n.atCommit p).setClient r)) :
    n.TalksTo p st ws r (n.packetRow f p) := by
  obtain ⟨hbody, htime, _, _, hsent⟩ := atCommit_spec p n h
  have hrow := packetRow_final f p n _ h st [ws] false hf (congrArg Core.pool (setClient_core r _))
  have hrec : (((n.atCommit p).setClient r).dropOp (n.opFrom p).order).clientRec (senderOf p) = r := by
    show ((n.atCommit p).setClient r).clientRec (senderOf p) = r
    rw [clientRec_setClient, if_pos hr.symm]
  obtain ⟨hsubs, hrefuted⟩ := finish_clientRec (senderOf p) p st [ws] false ((n.atCommit p).setClient r).tick16
    (((n.atCommit p).setClient r).dropOp (n.opFrom p).order)
  rw [hrec] at hsubs hrefuted
  rw [hrow]
  refine ⟨?_, ?_, hsubs, hrefuted⟩
  · rw [finish_sentTo, if_pos rfl, dropOp_sentTo, setClient_sentTo, hsent, if_neg (by simp [hacc]), Node.finalReply, Node.tick16,
      Node.tick16, setClient_time, htime]
  · rw [finish_body, dropOp_body, setClient_body, hbody]

theorem atCommit_clientRec {p : Packet} {n : Node} (h : n.runsNow p = true) : (n.atCommit p).clientRec = n.clientRec := by
  funext c
  rw [Node.clientRec, Node.clientRec, (atCommit_spec p n h).2.2.1]

/-! ### SUBSCRIBE -/

theorem opcodeOf_subscribe (k : Nat) (p : Packet) : opcodeOf (withBits 0 2 k (asRow .subscribe p)) = some .subscribe := by
  rw [opcodeOf_withBits, opcodeOf_asRow]

/-- The word of a SUBSCRIBE that runs now names the operation of its row (R565). -/
theorem subscribe_fld {k : Nat} (hk : k < 4) {p : Packet} {n : Node}
    (h : n.runsNow (withBits 0 2 k (asRow .subscribe p)) = true) : fld (pw (withBits 0 2 k (asRow .subscribe p)) 0) 1 0 = k := by
  have hfit := runsNow_wordsFit _ n .subscribe h (opcodeOf_subscribe k p)
  have hne : p.words ≠ [] := fun he => by simp [wordsFit, withBits, he, pw, fld] at hfit
  exact withBits_fld 0 1 k (asRow .subscribe p) hne hk (by decide)

theorem listedCodes_withBits (k : Nat) (p : Packet) : listedCodes (withBits 0 2 k (asRow .subscribe p)) = listedCodes p := by
  have hdrop : (withBits 0 2 k (asRow .subscribe p)).words.drop 1 = p.words.drop 1 := withBits_drop 0 2 k (asRow .subscribe p) 0
  rw [listedCodes, listedCodes, hdrop]

theorem effect_subscribe {c : Instr} {s : State} {p : Packet} {k : Nat} {new : List EventCode}
    (hrow : exec c s = s.upd (Node.packetRow cmdSubscribe (withBits 0 2 k (asRow .subscribe p))))
    (hnew : subscribed (withBits 0 2 k (asRow .subscribe p)) (s.node.clientRec (senderOf p)).subs = new)
    (h : s.node.runsNow (withBits 0 2 k (asRow .subscribe p)) = true) :
    Effect c s fun m => (m.clientRec (senderOf p)).subs = new ∧ m.body = s.node.body ∧
      m.sentTo (senderOf p) = s.node.sentTo (senderOf p) ++
        s.node.finalReply (withBits 0 2 k (asRow .subscribe p)) .done [[wN new.length]] false := by
  refine ⟨_, hrow, ?_⟩
  obtain ⟨_, hr⟩ := runsNow_spec _ _ h
  have hsender : senderOf (withBits 0 2 k (asRow .subscribe p)) = senderOf p := by rw [withBits_sender, asRow_sender]
  have htalk := packetRow_talksTo (f := cmdSubscribe) (st := .done) (ws := [wN new.length])
    (r := { s.node.clientRec (senderOf p) with subs := new }) h
    (notAccepted _ _ _ h (opcodeOf_subscribe k p) rfl) ((clientRec_client _ _).trans hsender.symm)
    (by rw [cmdSubscribe, hr.client, hr.packet, atCommit_clientRec h, hsender, hnew]; rfl)
  rw [← hsender]
  exact ⟨htalk.subs, htalk.body, htalk.sent⟩

/-- Settles O5: the operation that a row's bits name gives the new set, and the sender's record takes it. -/
theorem subscribeChangesTheSet : Obligations.SubscribeChangesTheSet := by
  refine fun s p => ⟨fun h => effect_subscribe rfl ?set h, fun h => effect_subscribe rfl ?add h,
    fun h => effect_subscribe rfl ?remove h, fun h => effect_subscribe rfl ?all h⟩
  case set => simp only [subscribed, subscribe_fld (by decide) h, listedCodes_withBits]
  case add => simp only [subscribed, subscribe_fld (by decide) h, listedCodes_withBits]
  case remove => simp only [subscribed, subscribe_fld (by decide) h, listedCodes_withBits]
  case all => simp only [subscribed, subscribe_fld (by decide) h]

/-! ### REPLAY and DESCRIBE -/

theorem opcodeOf_replay (k : Nat) (p : Packet) : opcodeOf (withBits 12 1 k (asRow .replay p)) = some .replay := by
  rw [opcodeOf_withBits, opcodeOf_asRow]

/-- The word of a REPLAY that runs now names the operation of its row beside the tag (R566). -/
theorem replay_word {k : Nat} (hk : k < 2) {p : Packet} {n : Node} (h : n.runsNow (withBits 12 1 k (asRow .replay p)) = true) :
    bitOf (pw (withBits 12 1 k (asRow .replay p)) 0) 12 = decide (k = 1) ∧
      fld (pw (withBits 12 1 k (asRow .replay p)) 0) 11 0 = fld (pw p 0) 11 0 := by
  have hfit := runsNow_wordsFit _ n .replay h (opcodeOf_replay k p)
  unfold withBits at hfit ⊢
  split at hfit
  next hws =>
    rw [asRow_words] at hws
    simp [wordsFit, hws] at hfit
  next x xs hws =>
    have hx := x.isLt
    rw [asRow_words] at hws
    simp only [hws, pw, List.getD_cons_zero, fld, wN, bitOf, BitVec.getLsbD, Nat.testBit_eq_decide_div_mod_eq,
      BitVec.toNat_ofNat, Nat.shiftRight_eq_div_pow, decide_eq_decide]
    omega

theorem effect_replay {s : State} {p : Packet} {e : CachedReply} (h : s.node.runsNow (withBits 12 1 0 (asRow .replay p)) = true)
    (he : ((s.node.clientRec (senderOf p)).cache.find? fun x => x.tag.toNat == fld (pw p 0) 11 0) = some e) :
    Effect (.replay p) s fun m =>
      m.sentTo (senderOf p) = s.node.sentTo (senderOf p) ++ (e.pkts.map fun r => { r with replayed := true }) ++
        s.node.finalReply (withBits 12 1 0 (asRow .replay p)) .done [[1]] false ∧ m.body = s.node.body := by
  refine ⟨_, rfl, ?_⟩
  obtain ⟨_, hr⟩ := runsNow_spec _ _ h
  obtain ⟨hbody, htime, _, _, hsent⟩ := atCommit_spec _ _ h
  obtain ⟨hlist, htag⟩ := replay_word (by decide) h
  have hsender : senderOf (withBits 12 1 0 (asRow .replay p)) = senderOf p := by rw [withBits_sender, asRow_sender]
  have hacc := notAccepted _ _ _ h (opcodeOf_replay 0 p) rfl
  have hcmd : cmdReplay (s.node.opFrom (withBits 12 1 0 (asRow .replay p))) (s.node.atCommit (withBits 12 1 0 (asRow .replay p))) =
      (.final .done [[1]] false, (s.node.atCommit (withBits 12 1 0 (asRow .replay p))).emitAll (senderOf p)
        (e.pkts.map fun r => { r with replayed := true })) := by
    simp only [cmdReplay, hr.packet, hr.client, hsender, hlist, atCommit_clientRec h, htag, he]
    rfl
  rw [packetRow_final cmdReplay _ _ _ h _ _ _ hcmd (congrArg Core.pool (emitAll_core _ _ _))]
  constructor
  · rw [finish_sentTo, hsender, if_pos rfl, dropOp_sentTo, emitAll_sentTo, if_pos rfl, hsent, if_neg (by simp [hacc]),
      Node.finalReply, Node.tick16, Node.tick16, emitAll_time, htime]
  · rw [finish_body, dropOp_body, emitAll_body, hbody]

/-- Settles O6: a cached reply goes out again before REPLAY's own; the list and DESCRIBE only read, the one the sender's cache and the other
the lock and the revision. The silicon revision is log entry 8. -/
theorem replayAndDescribe : Obligations.ReplayAndDescribe := by
  refine ⟨fun s p e h he => effect_replay h he, fun s p h => ⟨_, rfl, ?list⟩, fun s p h => ⟨_, rfl, ?describe⟩⟩
  case list =>
    obtain ⟨_, hr⟩ := runsNow_spec _ _ h
    refine answersWith_reader cmdReplay _ s.node h _ _ _ ?_ (notAccepted _ _ _ h (opcodeOf_replay 1 p) rfl)
    obtain ⟨hlist, _⟩ := replay_word (by decide) h
    simp only [cmdReplay, hr.packet, hr.client, hlist, atCommit_clientRec h, withBits_sender, asRow_sender]
    rfl
  case describe =>
    refine answersWith_reader cmdDescribe _ s.node h _ _ _ ?_ (notAccepted _ _ _ h (opcodeOf_asRow _ _) rfl)
    rw [cmdDescribe, atCommit_reads Node.describeWords (fun _ => rfl) _ s.node h]
    rfl

/-! ### STATUS -/

/-- Where ACCEPTED does not go out on arrival, the packets on their way are those of before (R77). -/
theorem atCommit_underway {p : Packet} {n : Node} (h : n.runsNow p = true) (hacc : acceptedOnArrival p = false) :
    (n.atCommit p).stream = n.stream ∧ (n.atCommit p).host = n.host := by
  obtain ⟨_, hr⟩ := runsNow_spec p n h
  obtain ⟨due, _, hm⟩ := hr.fresh
  unfold Node.atCommit
  rw [hm, poolIn_eq, hacc, Node.touchSession]
  cases p.port <;> exact ⟨rfl, rfl⟩

/-- Settles O10: the words of STATUS read the same at the commit as before the packet, and its sender's record loses the refutation bit. -/
theorem statusReturnsS40 : Obligations.StatusReturnsS40 := by
  intro s p h
  have hacc := notAccepted _ _ _ h (opcodeOf_asRow .status p) rfl
  obtain ⟨_, hr⟩ := runsNow_spec _ _ h
  obtain ⟨hstream, hhost⟩ := atCommit_underway h hacc
  have hevents : (s.node.atCommit (asRow .status p)).eventsPending = s.node.eventsPending := by
    funext c
    rw [Node.eventsPending, Node.eventsPending, hstream, hhost]
  have hs40 := atCommit_reads Node.s40 (fun _ => rfl) _ s.node h
  have hword := atCommit_reads Node.steepWord (fun _ => rfl) _ s.node h
  have htalk := packetRow_talksTo (f := cmdStatus) (st := .done)
    (r := { s.node.clientRec (senderOf p) with refuted := false }) h hacc (clientRec_client _ _)
    (by rw [cmdStatus, hr.client, atCommit_clientRec h, hs40, hword, hevents]; rfl)
  exact ⟨_, rfl, htalk.sent, htalk.refuted, htalk.body⟩

/-! ### KEY_SET -/

theorem opcodeOf_keySet (k : Nat) (p : Packet) : opcodeOf (withBits 0 1 k (asRow .keySet p)) = some .keySet := by
  rw [opcodeOf_withBits, opcodeOf_asRow]

/-- The word of a KEY_SET that runs now names the operation of its row (R567). -/
theorem keySet_fld {k : Nat} (hk : k < 2) {p : Packet} {n : Node} (h : n.runsNow (withBits 0 1 k (asRow .keySet p)) = true) :
    fld (pw (withBits 0 1 k (asRow .keySet p)) 0) 0 0 = k := by
  have hfit := runsNow_wordsFit _ n .keySet h (opcodeOf_keySet k p)
  have hne : p.words ≠ [] := fun he => by simp [wordsFit, withBits, he, pw, fld] at hfit
  exact withBits_fld 0 0 k (asRow .keySet p) hne hk (by decide)

/-- KEY_SET at its commit: the key of its words where it sets one, and the write of the node page that serves it. -/
theorem keySet_store {q : Packet} {n : Node} (h : n.runsNow q = true) :
    (n.packetRow cmdKeySet q).store = { n.store with
      key := if fld (pw q 0) 0 0 = 0 then some (BitVec.ofNat 128
        ((((pw q 1).toNat * 2 ^ 32 + (pw q 2).toNat) * 2 ^ 32 + (pw q 3).toNat) * 2 ^ 32 + (pw q 4).toNat)) else none
      writes := n.store.writes ++ [{ kind := .nodePage, op := some (n.opFrom q).order, words := [] }] } ∧
    (n.packetRow cmdKeySet q).core.body = n.core.body := by
  obtain ⟨_, hr⟩ := runsNow_spec q n h
  have hbody := (atCommit_spec q n h).1
  have hsame := packetRow_sameBut cmdKeySet q n h
  rw [hsame.store, hsame.core, ← body_store hbody, ← body_core hbody, cmdKeySet, hr.packet]
  exact ⟨rfl, rfl⟩

/-- Settles O7: both rows are KEY_SET at its commit, told apart by the operation bit. -/
theorem keySetChangesTheKey : Obligations.KeySetChangesTheKey := by
  refine fun s p => ⟨fun h => ⟨_, rfl, ?set⟩, fun h => ⟨_, rfl, ?erase⟩⟩
  case set =>
    have hkey := keySet_store h
    rw [keySet_fld (by decide) h] at hkey
    simpa only [withBits_pw_succ, asRow_pw, if_true] using hkey
  case erase =>
    have hkey := keySet_store h
    rw [keySet_fld (by decide) h] at hkey
    exact hkey

/-! ### The TAP -/

/-- The node with an instruction and its cells in the port (R602). -/
def Node.selects (ir : Nat) (cells : Option (BitVec 86)) (n : Node) : Node :=
  n.modPower fun p => { p with tapIr := ir, boundary := cells.getD p.boundary }

theorem tapTo_eq (ir : Nat) (cells : Option (BitVec 86)) (t : Nat) (n : Node) :
    n.tapTo ir cells t = (n.selects ir cells).whenCellar fun m =>
      if [0, 2, 3].contains ir then (m.atT t).holdCore (some .coreReset)
      else if [0, 2, 3].contains n.power.tapIr && (m.atT t).mayRun then
        { m.atT t with restart := { (m.atT t).restart with trigger := .coreReset } }.beginSteep
      else m.atT t := rfl

/-- An instruction that holds the core comes into force with its cells, and the core is held (R604). -/
theorem tapTo_holds {ir : Nat} {cells : Option (BitVec 86)} {t : Nat} {n : Node} (hir : [0, 2, 3].contains ir = true)
    (hv : n.power.vcel = true) (hc : n.power.cresetn = true) :
    (n.tapTo ir cells t).power = { n.power with tapIr := ir, boundary := cells.getD n.power.boundary } ∧
      (n.tapTo ir cells t).core.run = .held := by
  rw [tapTo_eq, whenCellar_of_on _ (n.selects ir cells) hv hc, if_pos hir]
  exact ⟨holdCore_power _ _, holdCore_run _ _⟩

/-- Where no instruction held the core, one that does not hold it changes the port alone (R602). -/
theorem tapTo_passes {ir : Nat} {cells : Option (BitVec 86)} {t : Nat} {n : Node} (hir : [0, 2, 3].contains ir = false)
    (hwas : [0, 2, 3].contains n.power.tapIr = false) :
    (n.tapTo ir cells t).power = { n.power with tapIr := ir, boundary := cells.getD n.power.boundary } ∧
      (n.tapTo ir cells t).core = n.core := by
  simp only [tapTo_eq, hir, hwas, Bool.false_and, Bool.false_eq_true, if_false]
  unfold Node.whenCellar
  split <;> exact ⟨rfl, rfl⟩

/-- A core that an instruction held starts a Steep of a core reset when another one replaces it, where it may run (R604). -/
theorem tapTo_restarts {ir : Nat} {cells : Option (BitVec 86)} {t : Nat} {n : Node} (hir : [0, 2, 3].contains ir = false)
    (hwas : [0, 2, 3].contains n.power.tapIr = true) (hv : n.power.vcel = true) (hr : n.power.resetn = true)
    (hc : n.power.cresetn = true) (hg : n.power.railsGood = true) :
    ∃ r, (n.tapTo ir cells t).core.run = .steep r ∧ r.trigger = .coreReset := by
  let m := (n.selects ir cells).atT t
  have hmay : m.mayRun = true := by
    have hp : m.power = { n.power with tapIr := ir, boundary := cells.getD n.power.boundary } := rfl
    simp only [Node.mayRun, hp, hv, hr, hc, hg, hir]
    rfl
  have hrow : n.tapTo ir cells t = { m with restart := { m.restart with trigger := .coreReset } }.beginSteep := by
    rw [tapTo_eq, whenCellar_of_on _ (n.selects ir cells) hv hc, if_neg (by rw [hir]; decide), if_pos (by rw [hwas]; exact hmay)]
  rw [hrow]
  exact ⟨_, (beginSteep_of_mayRun { m with restart := { m.restart with trigger := .coreReset } } hmay).2, rfl⟩

/-- Settles O15: each row is its instruction's code, of which 0, 2 and 3 hold the core. -/
theorem tapInstructions : Obligations.TapInstructions := by
  refine ⟨fun s t cells hv hc => ⟨⟨_, rfl, tapTo_holds rfl hv hc⟩, ⟨_, rfl, tapTo_holds rfl hv hc⟩, ⟨_, rfl, tapTo_holds rfl hv hc⟩⟩,
    fun s t cells hwas => ⟨⟨_, rfl, tapTo_passes rfl hwas⟩, ⟨_, rfl, tapTo_passes rfl hwas⟩, ⟨_, rfl, tapTo_passes rfl hwas⟩⟩,
    fun s t cells hwas hv hr hc hg c hmem => ?_⟩
  simp only [List.mem_cons, List.not_mem_nil, or_false] at hmem
  obtain rfl | rfl | rfl := hmem <;> exact ⟨_, rfl, tapTo_restarts rfl hwas hv hr hc hg⟩

/-! ### PARAM_RESTORE of a slot that failed its CRC -/

/-- A node in CASK with a session of client 7, a maintainer, whose previous configuration stands in slot B; the latest Steep found that
slot's CRC failed (R97). -/
def previousConfigBad : State :=
  let n := State.reset.node
  { pending := []
    node := { n with
      power := { n.power with vcel := true, railsGood := true }
      core := { n.core with run := .up, mode := .cask }
      store := { n.store with configs := ⟨{ generation := 2 }, { generation := 1 }⟩, cfgBad := ⟨false, true⟩ }
      sessions := [{ id := 7, cls := .maintainer, nonce := 5, lastNs := 0 }] } }

/-- A packet of client 7 without words. -/
def noWords : Packet :=
  { port := .line, opcode := 0, client := 7, tag := 1, greenOk := false, finalOnly := false, scheduled := false, mask := 0, tick := 0
    words := [], mac := none }

theorem previousConfigBad_runsNow : previousConfigBad.node.runsNow (asRow .paramRestore noWords) = true := by decide +kernel

theorem exec_paramRestore (p : Packet) (s : State) :
    exec (.paramRestore p) s = .next { s with node := s.node.packetRow cmdParamRestore (asRow .paramRestore p) } := rfl

/-- R542: the previous configuration cannot be restored, so nothing is written. -/
theorem previousConfigBad_writes :
    (previousConfigBad.node.packetRow cmdParamRestore (asRow .paramRestore noWords)).store.writes = [] := by decide +kernel

/-- Refutes O20: PARAM_RESTORE is refused where the slot of the previous configuration failed its CRC at the latest Steep (R97, R542,
log entry 68), and the statement does not shut that slot out. -/
theorem not_configurationsAreSavedAndRestored : ¬ Obligations.ConfigurationsAreSavedAndRestored := by
  intro h
  obtain ⟨_, hrestore, _⟩ := h
  obtain ⟨_, _, hwrites, _⟩ := (hrestore previousConfigBad noWords previousConfigBad_runsNow rfl (by decide)).of_row
    (exec_paramRestore noWords previousConfigBad)
  rw [previousConfigBad_writes] at hwrites
  exact absurd hwrites (by decide)

end Sys2Proof.Machine
end

section
/-!
PROOFS. What leaves the sparse memories of a node as they are (95_what_each_step_holds.md): all operations but a few. The operations stand
in the order of their definitions' use: each lemma rests on those above it.
-/
namespace Sys2Proof.Machine

/-! ### The memories of a node -/

/-- The contents of the sparse memories: the working set, wave memory, and the two image slots. -/
abbrev Mems := ParamMem × WaveMem × ByteMem × ByteMem

/-- Every memory is in canonical form. -/
def Mems.wf (x : Mems) : Bool := x.1.wf && x.2.1.wf && x.2.2.1.wf && x.2.2.2.wf

/-- The memories as the node holds them. -/
def Node.mems (n : Node) : Mems := (n.core.params, n.core.waves.mem, n.store.images.a.bytes, n.store.images.b.bytes)

theorem memWf_eq (n : Node) : n.memWf = n.mems.wf := rfl

@[simp] theorem mems_ite {b : Prop} [Decidable b] (m n : Node) : (if b then m else n).mems = if b then m.mems else n.mems :=
  apply_ite Node.mems b m n

/-- A node whose core and store are another's has its memories. -/
@[simp] theorem mems_mk (p t c s k st ss h r hd a sw l la f) (m : Node) :
    (Node.mk p t c s k st ss h m.store r hd a sw l la m.core f).mems = m.mems := rfl

theorem mems_of_same {m n : Node} (hc : m.core.body = n.core.body) (hs : m.store = n.store) : m.mems = n.mems := by
  have hp : m.core.params = n.core.params := by have := congrArg Core.params hc; exact this
  have hw : m.core.waves.mem = n.core.waves.mem := by have := congrArg (fun k : Core => k.waves.mem) hc; exact this
  simp only [Node.mems, hp, hw, hs]

theorem Node.SameBut.mems {m n : Node} (h : m.SameBut n) : m.mems = n.mems := mems_of_same h.core h.store

/-! ### Changes of one part -/

theorem modCore_mems (f : Core → Core) (n : Node) :
    (n.modCore f).mems = ((f n.core).params, (f n.core).waves.mem, n.store.images.a.bytes, n.store.images.b.bytes) := rfl

/-- A change of the core that keeps its memories keeps the node's. -/
@[simp] theorem modCore_mems_of (f : Core → Core) (n : Node)
    (h : ((f n.core).params, (f n.core).waves.mem) = (n.core.params, n.core.waves.mem)) : (n.modCore f).mems = n.mems := by
  obtain ⟨hp, hw⟩ := Prod.mk.inj h
  rw [modCore_mems, hp, hw, Node.mems]

/-- A change of the store that keeps the image slots keeps the memories. -/
@[simp] theorem modStore_mems_of (f : Store → Store) (n : Node) (h : (f n.store).images = n.store.images) :
    (n.modStore f).mems = n.mems := by simp only [Node.mems, modStore_core, modStore_store, h]

@[simp] theorem modWaves_mems_of (f : Waves → Waves) (n : Node) (h : (f n.core.waves).mem = n.core.waves.mem) :
    (n.modWaves f).mems = n.mems := by simp only [Node.mems, modWaves_core, modWaves_store, h]

@[simp] theorem modLine_mems (f : Line → Line) (n : Node) : (n.modLine f).mems = n.mems := (rfl)
@[simp] theorem modLane_mems (f : Lane → Lane) (n : Node) : (n.modLane f).mems = n.mems := (rfl)
@[simp] theorem modHost_mems (f : HostPort → HostPort) (n : Node) : (n.modHost f).mems = n.mems := (rfl)
@[simp] theorem modPower_mems (f : Power → Power) (n : Node) : (n.modPower f).mems = n.mems := (rfl)
@[simp] theorem modTime_mems (f : TimeBase → TimeBase) (n : Node) : (n.modTime f).mems = n.mems := (rfl)
@[simp] theorem modFront_mems (c : Ch) (f : Front → Front) (n : Node) : (n.modFront c f).mems = n.mems := (rfl)
@[simp] theorem modPos_mems (c : Ch) (f : Pos → Pos) (n : Node) : (n.modPos c f).mems = n.mems := (rfl)
@[simp] theorem modSlot_mems (c : Ch) (f : Slot → Slot) (n : Node) : (n.modSlot c f).mems = n.mems := (rfl)
@[simp] theorem modOut_mems (c : Ch) (f : AOut → AOut) (n : Node) : (n.modOut c f).mems = n.mems := (rfl)
@[simp] theorem modFaults_mems (f : Faults → Faults) (n : Node) : (n.modFaults f).mems = n.mems := (rfl)
@[simp] theorem modSound_mems (f : Sound → Sound) (n : Node) : (n.modSound f).mems = n.mems := (rfl)
@[simp] theorem modFan_mems (b : Bool) (f : FanState → FanState) (n : Node) : (n.modFan b f).mems = n.mems := (rfl)
@[simp] theorem modPlay_mems (op : Nat) (f : Playback → Playback) (n : Node) : (n.modPlay op f).mems = n.mems := (rfl)
@[simp] theorem modCmp_mems (i : Nat) (f : CmpOut → CmpOut) (n : Node) : (n.modCmp i f).mems = n.mems := (rfl)
@[simp] theorem modInst_mems (f : FaultCode) (sc : Nat) (g : FaultInst → FaultInst) (n : Node) : (n.modInst f sc g).mems = n.mems := (rfl)
@[simp] theorem setClient_mems (r : ClientRec) (n : Node) : (n.setClient r).mems = n.mems := (setClient_sameBut r n).mems
@[simp] theorem atT_mems (t : Nat) (n : Node) : (n.atT t).mems = n.mems := (rfl)

/-! ### Changes one after the other -/

@[simp] theorem eachOf_mems {α : Type} (f : α → Node → Node) (hf : ∀ x m, (f x m).mems = m.mems) (xs : List α) (n : Node) :
    (eachOf xs f n).mems = n.mems := eachOf_part Node.mems f hf xs n

@[simp] theorem eachCh_mems (f : Ch → Node → Node) (hf : ∀ c m, (f c m).mems = m.mems) (n : Node) : (eachCh f n).mems = n.mems :=
  eachCh_part Node.mems f hf n

@[simp] theorem eachFan_mems (f : Bool → Node → Node) (hf : ∀ c m, (f c m).mems = m.mems) (n : Node) : (eachFan f n).mems = n.mems := by
  simp only [eachFan, hf]

@[simp] theorem whenUp_mems (f : Node → Node) (hf : ∀ m, (f m).mems = m.mems) (n : Node) : (n.whenUp f).mems = n.mems := by
  simp [Node.whenUp, hf]

@[simp] theorem whenCellar_mems (f : Node → Node) (hf : ∀ m, (f m).mems = m.mems) (n : Node) : (n.whenCellar f).mems = n.mems := by
  simp [Node.whenCellar, hf]

/-! ### The operations that touch no memory -/

@[simp] theorem touchSession_mems (p : Packet) (n : Node) : (n.touchSession p).mems = n.mems := by
  unfold Node.touchSession
  split <;> simp

@[simp] theorem emit_mems (d : Client) (isEvent : Bool) (p : ReplyPkt) (n : Node) : (n.emit d isEvent p).mems = n.mems := by
  simp [Node.emit]

@[simp] theorem emitAll_mems (d : Client) (ps : List ReplyPkt) (n : Node) : (n.emitAll d ps).mems = n.mems := by simp [Node.emitAll]

@[simp] theorem answer_mems (p : Packet) (s : Status) (ws : List Word) (n : Node) : (n.answer p s ws).mems = n.mems := by
  simp [Node.answer]

@[simp] theorem cacheReply_mems (c : Client) (tag : BitVec 12) (ps : List ReplyPkt) (n : Node) :
    (n.cacheReply c tag ps).mems = n.mems := by simp [Node.cacheReply]

@[simp] theorem finish_mems (p : Packet) (s : Status) (chunks : List (List Word)) (green : Bool) (tick : Nat) (n : Node) :
    (n.finish p s chunks green tick).mems = n.mems := by simp [Node.finish]

@[simp] theorem accepted_mems (p : Packet) (due : Nat) (n : Node) : (n.accepted p due).mems = n.mems := by simp [Node.accepted]

@[simp] theorem laneSend_mems (p : LinePort) (m : LaneMsg) (n : Node) : (n.laneSend p m).mems = n.mems := (rfl)

@[simp] theorem poolIn_mems (p : Packet) (due : Nat) (scheduled : Bool) (side : RelaySide) (n : Node) :
    (n.poolIn p due scheduled side).2.mems = n.mems := by simp [Node.poolIn]

@[simp] theorem arrive_mems (p : Packet) (lenOk : Bool) (first : Nat) (n : Node) : (n.arrive p lenOk first).2.mems = n.mems := by
  unfold Node.arrive
  dsimp only
  (repeat' split) <;> simp

@[simp] theorem dropOp_mems (o : Nat) (n : Node) : (n.dropOp o).mems = n.mems := (rfl)

@[simp] theorem endOp_mems (op : PoolOp) (s : Status) (chunks : List (List Word)) (green : Bool) (n : Node) :
    (n.endOp op s chunks green).mems = n.mems := by
  unfold Node.endOp
  split <;> simp

@[simp] theorem markCommitted_mems (o : Nat) (n : Node) : (n.markCommitted o).mems = n.mems := (rfl)

@[simp] theorem deliver_mems (op : PoolOp) (a : Ans) (n : Node) : (n.deliver op a).mems = n.mems := by
  unfold Node.deliver
  split <;> simp

@[simp] theorem cmdPing_mems (op : PoolOp) (n : Node) : (cmdPing op n).2.mems = n.mems := (rfl)

@[simp] theorem cmdOpenSession_mems (op : PoolOp) (n : Node) : (cmdOpenSession op n).2.mems = n.mems := by
  unfold cmdOpenSession
  dsimp only
  split <;> simp

@[simp] theorem endWhole_mems (op : PoolOp) (s : Status) (n : Node) : (n.endWhole op s).mems = n.mems := by simp [Node.endWhole]

@[simp] theorem endOrder_mems (o : Nat) (s : Status) (ws : List Word) (n : Node) : (n.endOrder o s ws).mems = n.mems := by
  unfold Node.endOrder
  split <;> simp

@[simp] theorem endOpt_mems (o : Option Nat) (s : Status) (ws : List Word) (n : Node) : (n.endOpt o s ws).mems = n.mems := by
  unfold Node.endOpt
  split <;> simp

@[simp] theorem endMotion_mems (c : Ch) (st : Status) (n : Node) : (n.endMotion c st).mems = n.mems := by
  unfold Node.endMotion
  split <;> simp

@[simp] theorem stopSlot_mems (c : Ch) (n : Node) : (n.stopSlot c).mems = n.mems := by
  unfold Node.stopSlot
  (repeat' split) <;> simp

@[simp] theorem stopBy_mems (c : Ch) (n : Node) : (n.stopBy c).mems = n.mems := by
  unfold Node.stopBy
  split <;> simp

@[simp] theorem releaseChannels_mems (id : BitVec 8) (n : Node) : (n.releaseChannels id).mems = n.mems := by simp [Node.releaseChannels]

@[simp] theorem releasePair_mems (id : BitVec 8) (n : Node) : (n.releasePair id).mems = n.mems := by simp [Node.releasePair]

@[simp] theorem dropEvents_mems (c : Client) (n : Node) : (n.dropEvents c).mems = n.mems := by
  unfold Node.dropEvents
  split <;> simp

@[simp] theorem cmdSubscribe_mems (op : PoolOp) (n : Node) : (cmdSubscribe op n).2.mems = n.mems := by simp [cmdSubscribe]

@[simp] theorem cmdReplay_mems (op : PoolOp) (n : Node) : (cmdReplay op n).2.mems = n.mems := by
  unfold cmdReplay
  dsimp only
  (repeat' split) <;> simp

@[simp] theorem cmdDescribe_mems (op : PoolOp) (n : Node) : (cmdDescribe op n).2.mems = n.mems := (rfl)

@[simp] theorem storeWrite_mems (k : WriteKind) (op : Option Nat) (ws : List Word) (n : Node) :
    (n.storeWrite k op ws).mems = n.mems := (rfl)

@[simp] theorem cmdKeySet_mems (op : PoolOp) (n : Node) : (cmdKeySet op n).2.mems = n.mems := (rfl)

@[simp] theorem eventTo_mems (ev : EventCode) (scope : Nat) (st : Stamp) (ws : List Word) (r : ClientRec) (n : Node) :
    (n.eventTo ev scope st ws r).mems = n.mems := by simp [Node.eventTo]

@[simp] theorem event_mems (ev : EventCode) (scope : Nat) (st : Stamp) (ws : List Word) (n : Node) :
    (n.event ev scope st ws).mems = n.mems := by simp [Node.event]

@[simp] theorem dropHop_mems (h : HopEntry) (n : Node) : (n.dropHop h).mems = n.mems := (rfl)

@[simp] theorem hopEnd_mems (h : HopEntry) (reason : Nat) (ignored : Bool) (tx : Option Stamp) (n : Node) :
    (n.hopEnd h reason ignored tx).mems = n.mems := by simp [Node.hopEnd]

@[simp] theorem abortArm_mems (c : Ch) (b : Bool) (n : Node) : (n.abortArm c b).mems = n.mems := by
  unfold Node.abortArm
  split <;> simp

@[simp] theorem waveEnd_mems (p : Playback) (reason : Nat) (n : Node) : (n.waveEnd p reason).mems = n.mems := by simp [Node.waveEnd]

@[simp] theorem endPlay_mems (p : Playback) (s : Status) (reason : Nat) (n : Node) : (n.endPlay p s reason).mems = n.mems := by
  simp [Node.endPlay]

@[simp] theorem clearArmed_mems (n : Node) : n.clearArmed.mems = n.mems := by simp [Node.clearArmed]

@[simp] theorem formFault_mems (w : FaultWindow) (count : Nat) (n : Node) : (n.formFault w count).mems = n.mems := by
  simp [Node.formFault]

@[simp] theorem occur_mems (f : FaultCode) (scope : Nat) (kind : OccKind) (cls : Nat) (raised injected : Bool) (ctx : Word) (n : Node) :
    (n.occur f scope kind cls raised injected ctx).mems = n.mems := by
  unfold Node.occur
  split <;> simp

@[simp] theorem cease_mems (f : FaultCode) (scope : Nat) (n : Node) : (n.cease f scope).mems = n.mems := by
  unfold Node.cease
  dsimp only
  split <;> simp

@[simp] theorem slotOff_mems (c : Ch) (n : Node) : (n.slotOff c).mems = n.mems := by simp [Node.slotOff]

@[simp] theorem loopsOff_mems (n : Node) : n.loopsOff.mems = n.mems := by simp [Node.loopsOff]

@[simp] theorem abandonMotion_mems (n : Node) : n.abandonMotion.mems = n.mems := by
  unfold Node.abandonMotion
  dsimp only
  split <;> simp

@[simp] theorem endForming_mems (s : Status) (n : Node) : (n.endForming s).mems = n.mems := by simp [Node.endForming]

@[simp] theorem supervise_mems (b : Bool) (n : Node) : (n.supervise b).mems = n.mems := by
  unfold Node.supervise
  dsimp only
  split <;> simp

@[simp] theorem fanRefresh_mems (b : Bool) (n : Node) : (n.fanRefresh b).mems = n.mems := by simp [Node.fanRefresh]

@[simp] theorem fansRefresh_mems (n : Node) : n.fansRefresh.mems = n.mems := by simp [Node.fansRefresh]

@[simp] theorem calEnd_mems (st : Status) (ws : List Word) (n : Node) : (n.calEnd st ws).mems = n.mems := by
  unfold Node.calEnd
  split <;> simp

@[simp] theorem calAbort_mems (n : Node) : n.calAbort.mems = n.mems := by simp [Node.calAbort]

@[simp] theorem leaveGroup_mems (c : Ch) (n : Node) : (n.leaveGroup c).mems = n.mems := by
  unfold Node.leaveGroup
  split <;> simp

@[simp] theorem disable_mems (c : Ch) (n : Node) : (n.disable c).mems = n.mems := by simp [Node.disable]

@[simp] theorem restDone_mems (w : RestWait) (n : Node) : (n.restDone w).mems = n.mems := by
  unfold Node.restDone
  split <;> simp

@[simp] theorem settleRests_mems (n : Node) : n.settleRests.mems = n.mems := by simp [Node.settleRests]

@[simp] theorem ceaseAll_mems (fs : List FaultCode) (scope : Nat) (n : Node) : (n.ceaseAll fs scope).mems = n.mems := by
  simp [Node.ceaseAll]

@[simp] theorem readyLatches_mems (c : Ch) (n : Node) : (n.readyLatches c).mems = n.mems := by simp [Node.readyLatches]

@[simp] theorem refutedEvent_mems (c : Ch) (w : EvWindow) (count : Nat) (n : Node) : (n.refutedEvent c w count).mems = n.mems := by
  simp [Node.refutedEvent]

@[simp] theorem refute_mems (c : Ch) (r : Int) (origin : Nat) (st : Stamp) (catchUp : Int) (n : Node) :
    (n.refute c r origin st catchUp).mems = n.mems := by
  unfold Node.refute
  split <;> simp

@[simp] theorem judgeFired_mems (handle : Nat) (n : Node) : (n.judgeFired handle).mems = n.mems := by
  unfold Node.judgeFired
  (repeat' split) <;> simp

@[simp] theorem unconfirmedEvent_mems (f : FiredEntry) (n : Node) : (n.unconfirmedEvent f).mems = n.mems := by
  simp [Node.unconfirmedEvent]

@[simp] theorem unconfirmed_mems (c : Ch) (n : Node) : (n.unconfirmed c).mems = n.mems := by simp [Node.unconfirmed]

@[simp] theorem endExtrap_mems (w : ExtrapWait) (ws : List Word) (n : Node) : (n.endExtrap w ws).mems = n.mems := by
  unfold Node.endExtrap
  dsimp only
  split <;> simp

@[simp] theorem valueReady_mems (w : ExtrapWait) (n : Node) : (n.valueReady w).mems = n.mems := by
  unfold Node.valueReady
  split <;> simp

@[simp] theorem stopWait_mems (w : ExtrapWait) (n : Node) : (n.stopWait w).mems = n.mems := by simp [Node.stopWait]

@[simp] theorem extrapolateStop_mems (c : Ch) (n : Node) : (n.extrapolateStop c).mems = n.mems := by simp [Node.extrapolateStop]

@[simp] theorem posStop_mems (c : Ch) (n : Node) : (n.posStop c).mems = n.mems := by simp [Node.posStop]

@[simp] theorem stopTracking_mems (c : Ch) (n : Node) : (n.stopTracking c).mems = n.mems := by
  unfold Node.stopTracking
  dsimp only
  (repeat' split) <;> simp

@[simp] theorem stopChannel_mems (c : Ch) (n : Node) : (n.stopChannel c).mems = n.mems := by
  unfold Node.stopChannel
  split <;> simp

@[simp] theorem endAuto_mems (n : Node) : n.endAuto.mems = n.mems := (rfl)

@[simp] theorem emuAnchor_mems (c : Ch) (n : Node) : (n.emuAnchor c).mems = n.mems := (rfl)

@[simp] theorem emuLeave_mems (c : Ch) (n : Node) : (n.emuLeave c).mems = n.mems := by simp [Node.emuLeave]

@[simp] theorem leaveCask_mems (n : Node) : n.leaveCask.mems = n.mems := by simp [Node.leaveCask]

@[simp] theorem startChannel_mems (c : Ch) (n : Node) : (n.startChannel c).mems = n.mems := by simp [Node.startChannel]

@[simp] theorem measureEntry_mems (c : Ch) (n : Node) : (n.measureEntry c).mems = n.mems := by simp [Node.measureEntry]

@[simp] theorem enterTrack_mems (op : Option Nat) (n : Node) : (n.enterTrack op).mems = n.mems := by simp [Node.enterTrack]

@[simp] theorem caskToTrack_mems (op : PoolOp) (n : Node) : (caskToTrack op n).2.mems = n.mems := by
  unfold caskToTrack
  dsimp only
  (repeat' split) <;> simp

@[simp] theorem driveToTrack_mems (op : PoolOp) (n : Node) : (driveToTrack op n).2.mems = n.mems := by
  unfold driveToTrack
  split <;> simp

@[simp] theorem cmdToTrack_mems (op : PoolOp) (n : Node) : (cmdToTrack op n).2.mems = n.mems := by
  unfold cmdToTrack
  dsimp only
  split <;> simp

@[simp] theorem startSlot_mems (c : Ch) (n : Node) : (n.startSlot c).mems = n.mems := by simp [Node.startSlot]

@[simp] theorem disarmAtDrive_mems (n : Node) : n.disarmAtDrive.mems = n.mems := by simp [Node.disarmAtDrive]

@[simp] theorem trackToDrive_mems (op : PoolOp) (n : Node) : (trackToDrive op n).2.mems = n.mems := by
  unfold trackToDrive
  (repeat' split) <;> simp

@[simp] theorem cmdToDrive_mems (op : PoolOp) (n : Node) : (cmdToDrive op n).2.mems = n.mems := by
  unfold cmdToDrive
  dsimp only
  split <;> simp

@[simp] theorem zeroCounts_mems (n : Node) : n.zeroCounts.mems = n.mems := (rfl)

@[simp] theorem steepFrom_mems (t : SteepTrigger) (n : Node) : (n.steepFrom t).mems = n.mems := (rfl)

@[simp] theorem beginSteep_mems (n : Node) : n.beginSteep.mems = n.mems := by simp [Node.beginSteep]

@[simp] theorem closeWindows_mems (n : Node) : n.closeWindows.mems = n.mems := by simp [Node.closeWindows]

@[simp] theorem cmdStatus_mems (op : PoolOp) (n : Node) : (cmdStatus op n).2.mems = n.mems := by simp [cmdStatus]

@[simp] theorem excAgain_mems (c : Ch) (n : Node) : (n.excAgain c).mems = n.mems := (rfl)

@[simp] theorem shortOn_mems (c : Ch) (n : Node) : (n.shortOn c).mems = n.mems := by simp [Node.shortOn]

@[simp] theorem freeHeld_mems (n : Node) : n.freeHeld.mems = n.mems := by simp [Node.freeHeld]

@[simp] theorem correct_mems (off : Int) (n : Node) : (n.correct off).mems = n.mems := by simp [Node.correct]

@[simp] theorem setMark_mems (m : TimeMark) (n : Node) : (n.setMark m).mems = n.mems := by simp [Node.setMark]

@[simp] theorem followLine_mems (off : Int) (n : Node) : (n.followLine off).mems = n.mems := by
  unfold Node.followLine
  dsimp only
  (repeat' split) <;> simp

@[simp] theorem leaveFallback_mems (n : Node) : n.leaveFallback.mems = n.mems := by
  unfold Node.leaveFallback
  dsimp only
  split <;> simp

@[simp] theorem afterClear_mems (i : FaultInst) (n : Node) : (n.afterClear i).mems = n.mems := by
  unfold Node.afterClear
  split <;> simp

@[simp] theorem clearInst_mems (i : FaultInst) (n : Node) : (n.clearInst i).mems = n.mems := by simp [Node.clearInst]

@[simp] theorem cmdClearFaults_mems (op : PoolOp) (n : Node) : (cmdClearFaults op n).2.mems = n.mems := by simp [cmdClearFaults]

@[simp] theorem emuFollow_mems (c : Ch) (n : Node) : (n.emuFollow c).mems = n.mems := by simp [Node.emuFollow]

@[simp] theorem emuBasis_mems (c : Ch) (n : Node) : (n.emuBasis c).mems = n.mems := by simp [Node.emuBasis]

@[simp] theorem settleChannel_mems (inTick : Bool) (c : Ch) (n : Node) : (n.settleChannel inTick c).mems = n.mems := by
  simp [Node.settleChannel]

@[simp] theorem realign_mems (inTick : Bool) (n : Node) : (n.realign inTick).mems = n.mems := by simp [Node.realign]

@[simp] theorem cmdTickRealign_mems (op : PoolOp) (n : Node) : (cmdTickRealign op n).2.mems = n.mems := by simp [cmdTickRealign]

@[simp] theorem cmdParamRead_mems (op : PoolOp) (n : Node) : (cmdParamRead op n).2.mems = n.mems := (rfl)

@[simp] theorem unplug_mems (c : Ch) (n : Node) : (n.unplug c).mems = n.mems := by simp [Node.unplug]

@[simp] theorem emuFollowAll_mems (n : Node) : n.emuFollowAll.mems = n.mems := by simp [Node.emuFollowAll]

@[simp] theorem caskExcWritten_mems (n : Node) : n.caskExcWritten.mems = n.mems := by simp [Node.caskExcWritten]

@[simp] theorem caskItemWritten_mems (c : Ch) (n : Node) : (n.caskItemWritten c).mems = n.mems := by simp [Node.caskItemWritten]

@[simp] theorem plug_mems (c : Ch) (n : Node) : (n.plug c).mems = n.mems := by
  unfold Node.plug
  split <;> simp

@[simp] theorem emuReseed_mems (f : Emu → Bool) (c : Ch) (n : Node) : (n.emuReseed f c).mems = n.mems := by simp [Node.emuReseed]

@[simp] theorem offsetWritten_mems (c : Ch) (old : Word) (n : Node) : (n.offsetWritten c old).mems = n.mems := by
  simp [Node.offsetWritten]

@[simp] theorem emuHold_mems (c : Ch) (n : Node) : (n.emuHold c).mems = n.mems := (rfl)

@[simp] theorem emuWritten_mems (c : Ch) (n : Node) : (n.emuWritten c).mems = n.mems := by simp [Node.emuWritten]

@[simp] theorem judgeRail_mems (c : Ch) (n : Node) : (n.judgeRail c).mems = n.mems := by simp [Node.judgeRail]

@[simp] theorem rangeWritten_mems (c : Ch) (n : Node) : (n.rangeWritten c).mems = n.mems := by simp [Node.rangeWritten]

@[simp] theorem shortOff_mems (c : Ch) (n : Node) : (n.shortOff c).mems = n.mems := by simp [Node.shortOff]

@[simp] theorem endClear_mems (c : Ch) (n : Node) : (n.endClear c).mems = n.mems := by
  unfold Node.endClear
  dsimp only
  (repeat' split) <;> simp

@[simp] theorem startClear_mems (c : Ch) (n : Node) : (n.startClear c).mems = n.mems := by simp [Node.startClear]

@[simp] theorem clrenWritten_mems (c : Ch) (v : Word) (n : Node) : (n.clrenWritten c v).mems = n.mems := by simp [Node.clrenWritten]

@[simp] theorem clrcodeWritten_mems (c : Ch) (v : Word) (n : Node) : (n.clrcodeWritten c v).mems = n.mems := (rfl)

@[simp] theorem soundStopped_mems (n : Node) : n.soundStopped.mems = n.mems := by simp [Node.soundStopped]

@[simp] theorem fansWritten_mems (n : Node) : n.fansWritten.mems = n.mems := by simp [Node.fansWritten]

@[simp] theorem tselWritten_mems (n : Node) : n.tselWritten.mems = n.mems := by
  unfold Node.tselWritten
  dsimp only
  (repeat' split) <;> simp

@[simp] theorem headFits_mems (n : Node) : n.headFits.mems = n.mems := by simp [Node.headFits]

@[simp] theorem cause_mems (b : Nat) (n : Node) : (n.cause b).mems = n.mems := (rfl)

@[simp] theorem hostErrors_mems (k : Nat) (n : Node) : (n.hostErrors k).mems = n.mems := by simp [Node.hostErrors]

@[simp] theorem takeRole_mems (n : Node) : n.takeRole.mems = n.mems := by simp [Node.takeRole]

@[simp] theorem trip_mems (f : FaultCode) (cls scope : Nat) (ctx : Word) (injected : Bool) (n : Node) :
    (n.trip f cls scope ctx injected).mems = n.mems := by simp [Node.trip]

@[simp] theorem headJudged_mems (n : Node) : n.headJudged.mems = n.mems := by simp [Node.headJudged]

@[simp] theorem roleInForce_mems (n : Node) : n.roleInForce.mems = n.mems := by simp [Node.roleInForce]

@[simp] theorem overshoot_mems (c : Ch) (tag : BitVec 12) (client : BitVec 8) (o : Int) (n : Node) :
    (n.overshoot c tag client o).mems = n.mems := by simp [Node.overshoot]

@[simp] theorem passAct_mems (c : Ch) (n : Node) : (n.passAct c).mems = n.mems := by simp [Node.passAct]

@[simp] theorem rejudge_mems (c : Ch) (n : Node) : (n.rejudge c).mems = n.mems := by
  unfold Node.rejudge
  dsimp only
  (repeat' split) <;> simp

@[simp] theorem saveConfig_mems (c : Config) (op : Option Nat) (n : Node) : (n.saveConfig c op).mems = n.mems := (rfl)

@[simp] theorem cmdParamSave_mems (op : PoolOp) (n : Node) : (cmdParamSave op n).2.mems = n.mems := by
  unfold cmdParamSave
  split <;> simp

@[simp] theorem cmdReadPosition_mems (op : PoolOp) (n : Node) : (cmdReadPosition op n).2.mems = n.mems := (rfl)

@[simp] theorem lapSet_mems (c : Ch) (u : Int) (n : Node) : (n.lapSet c u).mems = n.mems := by simp [Node.lapSet]

@[simp] theorem learnMapStart_mems (op : PoolOp) (c : Ch) (n : Node) : (learnMapStart op c n).2.mems = n.mems := by
  unfold learnMapStart
  dsimp only
  (repeat' split) <;> simp

@[simp] theorem setMap_mems (c : Ch) (m : List (BitVec 16)) (n : Node) : (n.setMap c m).mems = n.mems := (rfl)

@[simp] theorem addExtrap_mems (op : PoolOp) (c : Ch) (k : ExtrapKind) (n : Node) : (n.addExtrap op c k).mems = n.mems := (rfl)

@[simp] theorem extrapPosAt_mems (op : PoolOp) (c : Ch) (t : Nat) (n : Node) : (extrapPosAt op c t n).2.mems = n.mems := by
  unfold extrapPosAt
  dsimp only
  (repeat' split) <;> simp

@[simp] theorem extrapPredict_mems (op : PoolOp) (c : Ch) (t : Nat) (n : Node) : (extrapPredict op c t n).2.mems = n.mems := by
  unfold extrapPredict
  (repeat' split) <;> simp

@[simp] theorem extrapTimeAt_mems (op : PoolOp) (c : Ch) (start : Nat) (n : Node) : (extrapTimeAt op c start n).2.mems = n.mems := by
  unfold extrapTimeAt
  dsimp only
  (repeat' split) <;> simp

@[simp] theorem cmdExtrapolate_mems (op : PoolOp) (n : Node) : (cmdExtrapolate op n).2.mems = n.mems := by
  unfold cmdExtrapolate
  dsimp only
  (repeat' split) <;> simp

@[simp] theorem cmdHistoryRead_mems (op : PoolOp) (n : Node) : (cmdHistoryRead op n).2.mems = n.mems := (rfl)

@[simp] theorem takeMove_mems (op : PoolOp) (c : Ch) (j : MoveJudge) (n : Node) : (n.takeMove op c j).2.mems = n.mems := by
  unfold Node.takeMove
  (repeat' split) <;> simp

@[simp] theorem cmdMoveTo_mems (op : PoolOp) (n : Node) : (cmdMoveTo op n).2.mems = n.mems := by
  unfold cmdMoveTo
  dsimp only
  (repeat' split) <;> simp

@[simp] theorem cmdMoveBy_mems (op : PoolOp) (n : Node) : (cmdMoveBy op n).2.mems = n.mems := by
  unfold cmdMoveBy
  dsimp only
  split <;> simp

@[simp] theorem cmdJog_mems (op : PoolOp) (n : Node) : (cmdJog op n).2.mems = n.mems := by
  unfold cmdJog
  dsimp only
  (repeat' split) <;> simp

@[simp] theorem stopNamed_mems (op : PoolOp) (c : Ch) (n : Node) : (n.stopNamed op c).mems = n.mems := by simp [Node.stopNamed]

@[simp] theorem cmdStop_mems (op : PoolOp) (n : Node) : (cmdStop op n).2.mems = n.mems := by
  unfold cmdStop
  split <;> simp

@[simp] theorem parkOne_mems (c : Ch) (n : Node) : (n.parkOne c).mems = n.mems := by simp [Node.parkOne]

@[simp] theorem parkSlot_mems (c : Ch) (n : Node) : (n.parkSlot c).mems = n.mems := by simp [Node.parkSlot]

@[simp] theorem cmdPark_mems (op : PoolOp) (n : Node) : (cmdPark op n).2.mems = n.mems := by
  unfold cmdPark
  split <;> simp

@[simp] theorem enableLoop_mems (cl : Client) (c : Ch) (n : Node) : (n.enableLoop cl c).mems = n.mems := by simp [Node.enableLoop]

@[simp] theorem loopEnable_mems (op : PoolOp) (n : Node) : (loopEnable op n).2.mems = n.mems := by
  unfold loopEnable
  dsimp only
  (repeat' split) <;> simp

@[simp] theorem loopDisable_mems (op : PoolOp) (n : Node) : (loopDisable op n).2.mems = n.mems := by
  unfold loopDisable
  dsimp only
  split <;> simp

@[simp] theorem cmdLoopEnable_mems (op : PoolOp) (n : Node) : (cmdLoopEnable op n).2.mems = n.mems := by
  unfold cmdLoopEnable
  split <;> simp

@[simp] theorem dissolveGroup_mems (l : Nat) (n : Node) : (n.dissolveGroup l).mems = n.mems := by simp [Node.dissolveGroup]

@[simp] theorem endArm_mems (c : Ch) (b : Bool) (n : Node) : (n.endArm c b).mems = n.mems := by
  unfold Node.endArm
  split <;> simp

@[simp] theorem latchLost_mems (c : Ch) (st : Stamp) (n : Node) : (n.latchLost c st).mems = n.mems := by
  unfold Node.latchLost
  split <;> simp

@[simp] theorem capture_mems (c : Ch) (src : LatchSource) (falling : Bool) (st : Stamp) (n : Node) :
    (n.capture c src falling st).mems = n.mems := by simp [Node.capture]

@[simp] theorem armTakes_mems (c : Ch) (b falling : Bool) (st : Stamp) (n : Node) : (n.armTakes c b falling st).mems = n.mems := by
  unfold Node.armTakes
  split <;> simp

@[simp] theorem offerEdge_mems (c : Ch) (b falling : Bool) (st : Stamp) (n : Node) : (n.offerEdge c b falling st).mems = n.mems := by
  simp [Node.offerEdge]

@[simp] theorem cmdLatchArm_mems (op : PoolOp) (n : Node) : (cmdLatchArm op n).2.mems = n.mems := by
  unfold cmdLatchArm
  dsimp only
  split <;> simp

@[simp] theorem cmdLatchRead_mems (op : PoolOp) (n : Node) : (cmdLatchRead op n).2.mems = n.mems := by simp [cmdLatchRead]

@[simp] theorem armHop_mems (op : PoolOp) (c : Ch) (target : Int) (behind : Bool) (w1 w2 w3 : Word) (n : Node) :
    (n.armHop op c target behind w1 w2 w3).2.mems = n.mems := (rfl)

@[simp] theorem removeHops_mems (f : HopEntry → Bool) (n : Node) : (n.removeHops f).2.mems = n.mems := (rfl)

@[simp] theorem cmdHopList_mems (op : PoolOp) (n : Node) : (cmdHopList op n).2.mems = n.mems := (rfl)

@[simp] theorem cmdDacWrite_mems (op : PoolOp) (n : Node) : (cmdDacWrite op n).2.mems = n.mems := by
  unfold cmdDacWrite
  dsimp only
  split <;> simp

@[simp] theorem strobeOut_mems (c : Ch) (n : Node) : (n.strobeOut c).mems = n.mems := by simp [Node.strobeOut]

@[simp] theorem strobeGroup_mems (b : Bool) (n : Node) : (n.strobeGroup b).mems = n.mems := by simp [Node.strobeGroup]

@[simp] theorem unpersist_mems (t : Nat) (n : Node) : (n.unpersist t).mems = n.mems := by simp [Node.unpersist]

@[simp] theorem waveEnter_mems (p : Playback) (j : Nat) (n : Node) : (n.waveEnter p j).mems = n.mems := by simp [Node.waveEnter]

@[simp] theorem waveStart_mems (p : Playback) (n : Node) : (n.waveStart p).mems = n.mems := by
  unfold Node.waveStart
  split <;> simp

@[simp] theorem cmdWavePlay_mems (op : PoolOp) (n : Node) : (cmdWavePlay op n).2.mems = n.mems := by
  unfold cmdWavePlay
  dsimp only
  (repeat' split) <;> simp

@[simp] theorem cmdWaveStop_mems (op : PoolOp) (n : Node) : (cmdWaveStop op n).2.mems = n.mems := by simp [cmdWaveStop]

@[simp] theorem cmdSoundRead_mems (op : PoolOp) (n : Node) : (cmdSoundRead op n).2.mems = n.mems := (rfl)

@[simp] theorem fansForCal_mems (n : Node) : n.fansForCal.mems = n.mems := by simp [Node.fansForCal]

@[simp] theorem cmdZeroFlowCal_mems (op : PoolOp) (n : Node) : (cmdZeroFlowCal op n).2.mems = n.mems := by
  unfold cmdZeroFlowCal
  dsimp only
  (repeat' split) <;> simp

@[simp] theorem cmdRtdRead_mems (op : PoolOp) (n : Node) : (cmdRtdRead op n).2.mems = n.mems := (rfl)

@[simp] theorem cmdFanRead_mems (op : PoolOp) (n : Node) : (cmdFanRead op n).2.mems = n.mems := (rfl)

@[simp] theorem addRoll_mems (k : RollKind) (ops : List Nat) (n : Node) : (n.addRoll k ops).mems = n.mems := (rfl)

@[simp] theorem cmdRollcallSurvey_mems (op : PoolOp) (n : Node) : (cmdRollcallSurvey op n).2.mems = n.mems := by
  unfold cmdRollcallSurvey
  split <;> simp

@[simp] theorem cmdRollcallAssign_mems (op : PoolOp) (n : Node) : (cmdRollcallAssign op n).2.mems = n.mems := by
  unfold cmdRollcallAssign
  split <;> simp

@[simp] theorem cmdRelock_mems (op : PoolOp) (n : Node) : (cmdRelock op n).2.mems = n.mems := by
  unfold cmdRelock
  split <;> simp

@[simp] theorem setRefresh_mems (q : LinePort) (x : Option Transfer) (n : Node) : (n.setRefresh q x).mems = n.mems := (rfl)

@[simp] theorem startAdoption_mems (op : Option Nat) (q : LinePort) (n : Node) : (n.startAdoption op q).mems = n.mems := (rfl)

@[simp] theorem cmdAdopt_mems (op : PoolOp) (n : Node) : (cmdAdopt op n).2.mems = n.mems := by
  unfold cmdAdopt
  dsimp only
  (repeat' split) <;> simp

@[simp] theorem cmdFold_mems (op : PoolOp) (n : Node) : (cmdFold op n).2.mems = n.mems := by
  unfold cmdFold
  (repeat' split) <;> simp

@[simp] theorem cmdUnfold_mems (op : PoolOp) (n : Node) : (cmdUnfold op n).2.mems = n.mems := by
  unfold cmdUnfold
  dsimp only
  (repeat' split) <;> simp

@[simp] theorem cmdLineStats_mems (op : PoolOp) (n : Node) : (cmdLineStats op n).2.mems = n.mems := (rfl)

@[simp] theorem cmdTimeRead_mems (op : PoolOp) (n : Node) : (cmdTimeRead op n).2.mems = n.mems := (rfl)

@[simp] theorem cmdFaultRead_mems (op : PoolOp) (n : Node) : (cmdFaultRead op n).2.mems = n.mems := (rfl)

@[simp] theorem cmdFaultLog_mems (op : PoolOp) (n : Node) : (cmdFaultLog op n).2.mems = n.mems := (rfl)

@[simp] theorem cmdPitchArm_mems (op : PoolOp) (n : Node) : (cmdPitchArm op n).2.mems = n.mems := by
  unfold cmdPitchArm
  dsimp only
  (repeat' split) <;> simp

@[simp] theorem cmdPitchDisarm_mems (op : PoolOp) (n : Node) : (cmdPitchDisarm op n).2.mems = n.mems := (rfl)

@[simp] theorem drawFree_mems (n : Node) : (n.drawFree).2.mems = n.mems := (rfl)

@[simp] theorem creepWords_mems (n : Node) : (n.creepWords).2.mems = n.mems := by
  unfold Node.creepWords
  dsimp only
  (repeat' split) <;> simp

@[simp] theorem cmdRefStatus_mems (op : PoolOp) (n : Node) : (cmdRefStatus op n).2.mems = n.mems := by simp [cmdRefStatus]

@[simp] theorem cmdTickStats_mems (op : PoolOp) (n : Node) : (cmdTickStats op n).2.mems = n.mems := (rfl)

@[simp] theorem abortBlocks_mems (n : Node) : n.abortBlocks.mems = n.mems := by simp [Node.abortBlocks]

@[simp] theorem cmdFwBlock_mems (op : PoolOp) (n : Node) : (cmdFwBlock op n).2.mems = n.mems := by
  unfold cmdFwBlock
  dsimp only
  (repeat' split) <;> simp

@[simp] theorem cmdFwCommit_mems (op : PoolOp) (n : Node) : (cmdFwCommit op n).2.mems = n.mems := by
  unfold cmdFwCommit
  (repeat' split) <;> simp

@[simp] theorem cmdFwActivate_mems (op : PoolOp) (n : Node) : (cmdFwActivate op n).2.mems = n.mems := by
  unfold cmdFwActivate
  (repeat' split) <;> simp

@[simp] theorem cmdStoreRead_mems (op : PoolOp) (n : Node) : (cmdStoreRead op n).2.mems = n.mems := by
  unfold cmdStoreRead
  dsimp only
  split <;> simp

@[simp] theorem cmdTandemForm_mems (op : PoolOp) (n : Node) : (cmdTandemForm op n).2.mems = n.mems := by
  unfold cmdTandemForm
  dsimp only
  split <;> simp

@[simp] theorem splitStops_mems (n : Node) : n.splitStops.mems = n.mems := by simp [Node.splitStops]

@[simp] theorem cmdTandemSplit_mems (op : PoolOp) (n : Node) : (cmdTandemSplit op n).2.mems = n.mems := by
  unfold cmdTandemSplit
  split <;> simp

@[simp] theorem cmdTandemStatus_mems (op : PoolOp) (n : Node) : (cmdTandemStatus op n).2.mems = n.mems := (rfl)

@[simp] theorem hostArrive_mems (bs : List Byte) (n : Node) : (n.hostArrive bs).mems = n.mems := by
  unfold Node.hostArrive
  split <;> simp

@[simp] theorem clrnEvent_mems (falling : Bool) (n : Node) : (n.clrnEvent falling).mems = n.mems := by simp [Node.clrnEvent]

@[simp] theorem clearsLow_mems (n : Node) : n.clearsLow.mems = n.mems := by simp [Node.clearsLow]

@[simp] theorem syncinEvent_mems (moved : Bool) (step : Nat) (n : Node) : (n.syncinEvent moved step).mems = n.mems := by
  simp [Node.syncinEvent]

@[simp] theorem ldacEdge_mems (b : Bool) (low : Nat) (n : Node) : (n.ldacEdge b low).mems = n.mems := by simp [Node.ldacEdge]

@[simp] theorem latchReject_mems (c : Ch) (filter : Nat) (n : Node) : (n.latchReject c filter).mems = n.mems := by
  simp [Node.latchReject]

@[simp] theorem waveTrigger_mems (f : Playback → Bool) (n : Node) : (n.waveTrigger f).mems = n.mems := by simp [Node.waveTrigger]

@[simp] theorem latchEdge_mems (c : Ch) (b falling : Bool) (held : Nat) (n : Node) : (n.latchEdge c b falling held).mems = n.mems := by
  simp [Node.latchEdge]

@[simp] theorem indexFifo_mems (c : Ch) (falling : Bool) (st : Stamp) (n : Node) : (n.indexFifo c falling st).mems = n.mems := by
  simp [Node.indexFifo]

@[simp] theorem indexEdge_mems (c : Ch) (falling bothPos : Bool) (held : Nat) (n : Node) :
    (n.indexEdge c falling bothPos held).mems = n.mems := by simp [Node.indexEdge]

@[simp] theorem useInjection_mems (f : FaultCode) (scope span : Nat) (n : Node) : (n.useInjection f scope span).mems = n.mems := by
  unfold Node.useInjection
  split <;> simp

@[simp] theorem hallInvalid_mems (c : Ch) (code : BitVec 3) (forced : Bool) (n : Node) :
    (n.hallInvalid c code forced).mems = n.mems := (rfl)

@[simp] theorem lapStep_mems (c : Ch) (n : Node) : (n.lapStep c).mems = n.mems := by
  unfold Node.lapStep
  dsimp only
  split <;> simp

@[simp] theorem confirmWaves_mems (c : Ch) (a b : Kil) (n : Node) : (n.confirmWaves c a b).mems = n.mems := (rfl)

@[simp] theorem crossHops_mems (c : Ch) (a b : Kil) (word : Nat) (n : Node) : (n.crossHops c a b word).mems = n.mems := (rfl)

@[simp] theorem takeIndexAt_mems (c : Ch) (cnt u : Int) (n : Node) : (n.takeIndexAt c cnt u).mems = n.mems := by simp [Node.takeIndexAt]

@[simp] theorem entryKilned_mems (c : Ch) (n : Node) : (n.entryKilned c).mems = n.mems := by
  unfold Node.entryKilned
  split <;> simp

@[simp] theorem emuSeeded_mems (c : Ch) (n : Node) : (n.emuSeeded c).mems = n.mems := by simp [Node.emuSeeded]

@[simp] theorem kilnedStep_mems (c : Ch) (n : Node) : (n.kilnedStep c).mems = n.mems := by
  unfold Node.kilnedStep
  dsimp only
  (repeat' split) <;> simp

@[simp] theorem virtualIndexAt_mems (c : Ch) (cnt u : Int) (n : Node) : (n.virtualIndexAt c cnt u).mems = n.mems := by
  unfold Node.virtualIndexAt
  dsimp only
  split <;> simp

@[simp] theorem faultEvent_mems (c : Ch) (e : ChanEvent) (n : Node) : (n.faultEvent c e).mems = n.mems := by
  unfold Node.faultEvent
  split <;> simp

@[simp] theorem chanEvent_mems (c : Ch) (e : ChanEvent) (n : Node) : (n.chanEvent c e).mems = n.mems := by
  unfold Node.chanEvent
  split <;> simp

@[simp] theorem hallValid_mems (c : Ch) (code : BitVec 3) (s : Nat) (n : Node) : (n.hallValid c code s).mems = n.mems := by
  simp [Node.hallValid]

@[simp] theorem hallEdge_mems (c : Ch) (code : BitVec 3) (held : Nat) (n : Node) : (n.hallEdge c code held).mems = n.mems := by
  unfold Node.hallEdge
  dsimp only
  (repeat' split) <;> simp

@[simp] theorem judgeEarly_mems (b : Bool) (n : Node) : (n.judgeEarly b).mems = n.mems := by
  unfold Node.judgeEarly
  split <;> simp

@[simp] theorem fanCease_mems (f : FaultCode) (flag : FanState → Bool) (n : Node) : (n.fanCease f flag).mems = n.mems := by
  simp [Node.fanCease]

@[simp] theorem tachSeen_mems (b : Bool) (n : Node) : (n.tachSeen b).mems = n.mems := by simp [Node.tachSeen]

@[simp] theorem tachEdge_mems (b : Bool) (n : Node) : (n.tachEdge b).mems = n.mems := by simp [Node.tachEdge]

@[simp] theorem linkChange_mems (q : LinePort) (on : Bool) (n : Node) : (n.linkChange q on).mems = n.mems := by simp [Node.linkChange]

@[simp] theorem adoptFails_mems (n : Node) : n.adoptFails.mems = n.mems := by
  unfold Node.adoptFails
  split <;> simp

@[simp] theorem send_mems (fs : List TxFrame) (n : Node) : (n.send fs).mems = n.mems := (rfl)

@[simp] theorem judgeCrc_mems (inj : Bool) (n : Node) : (n.judgeCrc inj).mems = n.mems := by simp [Node.judgeCrc]

@[simp] theorem checkFrame_mems (h : FrameHdr) (ret : Bool) (n : Node) : (n.checkFrame h ret).2.mems = n.mems := by
  unfold Node.checkFrame
  dsimp only
  split <;> simp

@[simp] theorem mismatchEvent_mems (lt : Nat) (mark : TimeMark) (n : Node) : (n.mismatchEvent lt mark).mems = n.mems := by
  simp [Node.mismatchEvent]

@[simp] theorem hopMismatch_mems (n : Node) : n.hopMismatch.mems = n.mems := by
  unfold Node.hopMismatch
  split <;> simp

@[simp] theorem takeHeader_mems (h : FrameHdr) (ret : Bool) (n : Node) : (n.takeHeader h ret).mems = n.mems := by simp [Node.takeHeader]

@[simp] theorem delayUpdate_mems (fx : Int) (n : Node) : (n.delayUpdate fx).mems = n.mems := (rfl)

@[simp] theorem takeSync_mems (h : FrameHdr) (x : SyncPayload) (n : Node) : (n.takeSync h x).mems = n.mems := by
  unfold Node.takeSync
  dsimp only
  (repeat' split) <;> simp

@[simp] theorem lineArrive_mems (bs : List Byte) (n : Node) : (n.lineArrive bs).mems = n.mems := by
  unfold Node.lineArrive
  split <;> simp

@[simp] theorem takeEntries_mems (payload : List Byte) (n : Node) : (n.takeEntries payload).mems = n.mems := by simp [Node.takeEntries]

@[simp] theorem takeCyc_mems (h : FrameHdr) (turn : Bool) (payload : List Byte) (n : Node) :
    (n.takeCyc h turn payload).mems = n.mems := by
  unfold Node.takeCyc
  dsimp only
  split <;> simp

@[simp] theorem fragment_mems (n : Node) : (n.fragment).2.mems = n.mems := (rfl)

@[simp] theorem car_mems (turnaround : Bool) (n : Node) : (n.car turnaround).2.mems = n.mems := (rfl)

@[simp] theorem startRet_mems (h : FrameHdr) (n : Node) : (n.startRet h).mems = n.mems := (rfl)

@[simp] theorem cycleBlock_mems (cycle : Nat) (missed : Bool) (cars : List (List Byte)) (n : Node) :
    (n.cycleBlock cycle missed cars).mems = n.mems := (rfl)

@[simp] theorem layoutInForce_mems (n : Node) : n.layoutInForce.mems = n.mems := by simp [Node.layoutInForce]

@[simp] theorem lockKnown_mems (o : Nat) (n : Node) : (n.lockKnown o).mems = n.mems := (rfl)

@[simp] theorem takeRollCall_mems (mode : Nat) (sig : Word) (n : Node) : (n.takeRollCall mode sig).mems = n.mems := by
  simp [Node.takeRollCall]

@[simp] theorem endOrders_mems (os : List Nat) (s : Status) (ws : List Word) (n : Node) : (n.endOrders os s ws).mems = n.mems := by
  simp [Node.endOrders]

@[simp] theorem rollComplete_mems (payload : List Byte) (n : Node) : (n.rollComplete payload).mems = n.mems := by
  unfold Node.rollComplete
  split <;> simp

@[simp] theorem broadcastBlock_mems (payload : List Byte) (n : Node) : (n.broadcastBlock payload).mems = n.mems := by
  unfold Node.broadcastBlock
  split <;> simp

@[simp] theorem takeBeacon_mems (q : LinePort) (x : BeaconBody) (n : Node) : (n.takeBeacon q x).mems = n.mems := by
  simp [Node.takeBeacon]

@[simp] theorem serve_mems (q : LinePort) (adopt : Bool) (n : Node) : (n.serve q adopt).mems = n.mems := by
  unfold Node.serve
  split <;> simp

@[simp] theorem takePart_mems (q : LinePort) (p : ShadowPart) (n : Node) : (n.takePart q p).mems = n.mems := by
  unfold Node.takePart
  (repeat' split) <;> simp

@[simp] theorem pairClosed_mems (id : BitVec 8) (n : Node) : (n.pairClosed id).mems = n.mems := by simp [Node.pairClosed]

@[simp] theorem takeRelay_mems (p : Packet) (k : Nat) (n : Node) : (n.takeRelay p k).mems = n.mems := by
  unfold Node.takeRelay
  dsimp only
  (repeat' split) <;> simp

@[simp] theorem takeEvent_mems (x : LaneEvent) (n : Node) : (n.takeEvent x).mems = n.mems := by
  unfold Node.takeEvent
  split <;> simp

@[simp] theorem syncOut_mems (n : Node) : n.syncOut.mems = n.mems := by simp [Node.syncOut]

@[simp] theorem mapsDue_mems (n : Node) : n.mapsDue.mems = n.mems := by simp [Node.mapsDue]

@[simp] theorem judgeLeaving_mems (n : Node) : n.judgeLeaving.mems = n.mems := by simp [Node.judgeLeaving]

@[simp] theorem partnerStops_mems (n : Node) : n.partnerStops.mems = n.mems := by simp [Node.partnerStops]

@[simp] theorem pairTick_mems (n : Node) : n.pairTick.mems = n.mems := by simp [Node.pairTick]

@[simp] theorem runPhaseA_mems (n : Node) : n.runPhaseA.mems = n.mems := by simp [Node.runPhaseA]

@[simp] theorem beginTick_mems (late : Bool) (n : Node) : (n.beginTick late).mems = n.mems := by simp [Node.beginTick]

@[simp] theorem useInjections_mems (fs : List FaultCode) (c : Ch) (n : Node) : (n.useInjections fs c).mems = n.mems := by
  simp [Node.useInjections]

@[simp] theorem takeTick_mems (c : Ch) (o : TickOut) (n : Node) : (n.takeTick c o).mems = n.mems := by simp [Node.takeTick]

@[simp] theorem runDue_mems (c : Ch) (n : Node) : (n.runDue c).mems = n.mems := by
  unfold Node.runDue
  dsimp only
  split <;> simp

@[simp] theorem channelTick_mems (c : Ch) (x : ChanInput) (n : Node) : (n.channelTick c x).mems = n.mems := by simp [Node.channelTick]

@[simp] theorem clrnSlot_mems (c : Ch) (n : Node) : (n.clrnSlot c).mems = n.mems := by simp [Node.clrnSlot]

@[simp] theorem runDues_mems (n : Node) : n.runDues.mems = n.mems := by simp [Node.runDues]

@[simp] theorem checkFerr_mems (c : Ch) (ep e : Int) (n : Node) : (n.checkFerr c ep e).mems = n.mems := by simp [Node.checkFerr]

@[simp] theorem computeSlot_mems (c : Ch) (follow : Option Int) (fin : Nat) (n : Node) :
    (n.computeSlot c follow fin).mems = n.mems := by simp [Node.computeSlot]

@[simp] theorem countP2_mems (fin : Nat) (n : Node) : (n.countP2 fin).mems = n.mems := (rfl)

@[simp] theorem tickStrobes_mems (n : Node) : n.tickStrobes.mems = n.mems := by simp [Node.tickStrobes]

@[simp] theorem emuFreeze_mems (n : Node) : n.emuFreeze.mems = n.mems := by simp [Node.emuFreeze]

@[simp] theorem caskOutputs_mems (n : Node) : n.caskOutputs.mems = n.mems := by simp [Node.caskOutputs]

@[simp] theorem sendTickPacket_mems (n : Node) : n.sendTickPacket.mems = n.mems := by simp [Node.sendTickPacket]

@[simp] theorem appendHistory_mems (c : Ch) (n : Node) : (n.appendHistory c).mems = n.mems := by
  unfold Node.appendHistory
  dsimp only
  split <;> simp

@[simp] theorem sendRecord_mems (n : Node) : n.sendRecord.mems = n.mems := by
  unfold Node.sendRecord
  dsimp only
  (repeat' split) <;> simp

@[simp] theorem writeLog_mems (k : Nat) (n : Node) : (n.writeLog k).mems = n.mems := by simp [Node.writeLog]

@[simp] theorem logWrite_mems (n : Node) : n.logWrite.mems = n.mems := by simp [Node.logWrite]

@[simp] theorem judgeReturn_mems (n : Node) : n.judgeReturn.mems = n.mems := by simp [Node.judgeReturn]

@[simp] theorem sendRoll_mems (r : RollCall) (sync : TxFrame) (n : Node) : (n.sendRoll r sync).mems = n.mems := by simp [Node.sendRoll]

@[simp] theorem broadcastSelf_mems (p : List Byte) (n : Node) : (n.broadcastSelf p).mems = n.mems := by simp [Node.broadcastSelf]

@[simp] theorem lineqCause_mems (n : Node) : n.lineqCause.mems = n.mems := by simp [Node.lineqCause]

@[simp] theorem restop_mems (c : Ch) (n : Node) : (n.restop c).mems = n.mems := (rfl)

@[simp] theorem placeP0_mems (lt : Nat) (n : Node) : (n.placeP0 lt).mems = n.mems := (rfl)

@[simp] theorem syncLost_mems (n : Node) : n.syncLost.mems = n.mems := (rfl)

@[simp] theorem fallbackReturn_mems (n : Node) : n.fallbackReturn.mems = n.mems := by
  unfold Node.fallbackReturn
  dsimp only
  (repeat' split) <;> simp

@[simp] theorem refTSettle_mems (n : Node) : n.refTSettle.mems = n.mems := by simp [Node.refTSettle]

@[simp] theorem judgeCrystal_mems (arbPpm : Int) (n : Node) : (n.judgeCrystal arbPpm).mems = n.mems := by simp [Node.judgeCrystal]

@[simp] theorem judgeDrift_mems (ppb : Int) (inj : Bool) (n : Node) : (n.judgeDrift ppb inj).mems = n.mems := by simp [Node.judgeDrift]

@[simp] theorem refRespond_mems (v : RefVerdict) (d : Devs) (n : Node) : (n.refRespond v d).mems = n.mems := by simp [Node.refRespond]

@[simp] theorem refReport_mems (v : RefVerdict) (was : Nat) (ctx : Word) (inj : Bool) (n : Node) :
    (n.refReport v was ctx inj).mems = n.mems := by simp [Node.refReport]

@[simp] theorem eccFault_mems (f : FaultCode) (addr : BitVec 32) (bad inj : Bool) (n : Node) :
    (n.eccFault f addr bad inj).mems = n.mems := by simp [Node.eccFault]

@[simp] theorem eccInject_mems (f : FaultCode) (addr : BitVec 32) (n : Node) : (n.eccInject f addr).mems = n.mems := by
  unfold Node.eccInject
  split <;> simp

@[simp] theorem modSteep_mems (f : SteepRun → SteepRun) (n : Node) : (n.modSteep f).mems = n.mems := by
  unfold Node.modSteep
  split <;> simp

@[simp] theorem reportCorrected_mems (xs : List EccError) (n : Node) : (n.reportCorrected xs).mems = n.mems := by
  simp [Node.reportCorrected]

@[simp] theorem sendDropped_mems (n : Node) : n.sendDropped.mems = n.mems := by simp [Node.sendDropped]

@[simp] theorem coreUp_mems (w : Word) (n : Node) : (n.coreUp w).mems = n.mems := by simp [Node.coreUp]

@[simp] theorem raiseSteep_mems (bits own unavail : Nat) (w : Word) (silent : Option (BitVec 16 × BitVec 8)) (n : Node) :
    (n.raiseSteep bits own unavail w silent).mems = n.mems := by simp [Node.raiseSteep]

@[simp] theorem steepRefs_mems (r : SteepResults) (inj : Bool) (n : Node) : (n.steepRefs r inj).mems = n.mems := by
  simp [Node.steepRefs]

@[simp] theorem raise_mems (v : Verdict) (n : Node) : (n.raise v).2.mems = n.mems := by
  unfold Node.raise
  (repeat' split) <;> simp

@[simp] theorem runAction_mems (c : Ch) (a : ClassAction) (n : Node) : (n.runAction c a).mems = n.mems := by
  unfold Node.runAction
  (repeat' split) <;> simp

@[simp] theorem failureFirst_mems (n : Node) : n.failureFirst.mems = n.mems := (rfl)

@[simp] theorem raiseAdopted_mems (n : Node) : n.raiseAdopted.mems = n.mems := by
  unfold Node.raiseAdopted
  split <;> simp

@[simp] theorem sendHeld_mems (w : Word) (n : Node) : (n.sendHeld w).mems = n.mems := by
  unfold Node.sendHeld
  split <;> simp

@[simp] theorem ssiTake_mems (c : Ch) (x : SsiIn) (ev : List ChanEvent) (n : Node) : (n.ssiTake c x ev).mems = n.mems := by
  simp [Node.ssiTake]

@[simp] theorem ssiWord_mems (c : Ch) (bits : List Bool) (n : Node) : (n.ssiWord c bits).mems = n.mems := by
  unfold Node.ssiWord
  dsimp only
  split <;> simp

@[simp] theorem hopWave_mems (h : HopEntry) (green : Bool) (n : Node) : (n.hopWave h green).2.mems = n.mems := by
  unfold Node.hopWave
  split <;> simp

@[simp] theorem fireHop_mems (h : HopEntry) (green : Bool) (tx : Stamp) (n : Node) : (n.fireHop h green tx).mems = n.mems := by
  simp [Node.fireHop]

@[simp] theorem hopFireKilned_mems (handle : Nat) (n : Node) : (n.hopFireKilned handle).mems = n.mems := by
  unfold Node.hopFireKilned
  (repeat' split) <;> simp

@[simp] theorem hopFireGreen_mems (handle : Nat) (n : Node) : (n.hopFireGreen handle).mems = n.mems := by
  unfold Node.hopFireGreen
  split <;> simp

@[simp] theorem hopExpire_mems (handle : Nat) (n : Node) : (n.hopExpire handle).mems = n.mems := by
  unfold Node.hopExpire
  (repeat' split) <;> simp

@[simp] theorem refutedWindowEnd_mems (c : Ch) (n : Node) : (n.refutedWindowEnd c).mems = n.mems := by
  unfold Node.refutedWindowEnd
  split <;> simp

@[simp] theorem lostWindowEnd_mems (c : Ch) (n : Node) : (n.lostWindowEnd c).mems = n.mems := by
  unfold Node.lostWindowEnd
  split <;> simp

@[simp] theorem mismatchWindowEnd_mems (n : Node) : n.mismatchWindowEnd.mems = n.mems := by
  unfold Node.mismatchWindowEnd
  split <;> simp

@[simp] theorem endWindow_mems (w : FaultWindow) (n : Node) : (n.endWindow w).mems = n.mems := by simp [Node.endWindow]

@[simp] theorem shortTimeout_mems (c : Ch) (n : Node) : (n.shortTimeout c).mems = n.mems := by simp [Node.shortTimeout]

@[simp] theorem openTimeout_mems (c : Ch) (n : Node) : (n.openTimeout c).mems = n.mems := by simp [Node.openTimeout]

@[simp] theorem supplyTimeout_mems (c : Ch) (n : Node) : (n.supplyTimeout c).mems = n.mems := by simp [Node.supplyTimeout]

@[simp] theorem moveArrived_mems (c : Ch) (n : Node) : (n.moveArrived c).mems = n.mems := by
  unfold Node.moveArrived
  dsimp only
  split <;> simp

@[simp] theorem jogReached_mems (c : Ch) (n : Node) : (n.jogReached c).mems = n.mems := by
  unfold Node.jogReached
  dsimp only
  split <;> simp

@[simp] theorem timeCrossing_mems (w : ExtrapWait) (n : Node) : (n.timeCrossing w).mems = n.mems := by
  unfold Node.timeCrossing
  dsimp only
  split <;> simp

@[simp] theorem normalRound_mems (n : Node) : n.normalRound.mems = n.mems := by simp [Node.normalRound]

@[simp] theorem startRound_mems (n : Node) : n.startRound.mems = n.mems := by
  unfold Node.startRound
  dsimp only
  (repeat' split) <;> simp

@[simp] theorem mediumVerdict_mems (ps : ParamMem) (n : Node) : (n.mediumVerdict ps).mems = n.mems := by simp [Node.mediumVerdict]

@[simp] theorem rtdVerdicts_mems (ps : ParamMem) (n : Node) : (n.rtdVerdicts ps).mems = n.mems := by simp [Node.rtdVerdicts]

@[simp] theorem probeTake_mems (start : Nat) (n : Node) : (n.probeTake start).mems = n.mems := by
  unfold Node.probeTake
  split <;> simp

@[simp] theorem airflowStep_mems (ps : ParamMem) (b : Bool) (n : Node) : (n.airflowStep ps b).mems = n.mems := by
  unfold Node.airflowStep
  (repeat' split) <;> simp

@[simp] theorem fanAir_mems (b : Bool) (n : Node) : (n.fanAir b).mems = n.mems := by simp [Node.fanAir]

@[simp] theorem fanAction_mems (b : Bool) (n : Node) : (n.fanAction b).mems = n.mems := by simp [Node.fanAction]

@[simp] theorem fanTrip_mems (f : FaultCode) (cls : Nat) (b : Bool) (ctx : Word) (inj : Bool) (n : Node) :
    (n.fanTrip f cls b ctx inj).mems = n.mems := by
  unfold Node.fanTrip
  split <;> simp

@[simp] theorem wireVerdict_mems (b : Bool) (n : Node) : (n.wireVerdict b).mems = n.mems := by simp [Node.wireVerdict]

@[simp] theorem lastKick_mems (b : Bool) (n : Node) : (n.lastKick b).mems = n.mems := by simp [Node.lastKick]

@[simp] theorem startKick_mems (b : Bool) (k : Nat) (n : Node) : (n.startKick b k).mems = n.mems := by simp [Node.startKick]

@[simp] theorem blockedVerdict_mems (b : Bool) (n : Node) : (n.blockedVerdict b).mems = n.mems := by simp [Node.blockedVerdict]

@[simp] theorem silentVerdict_mems (b atStart turning : Bool) (n : Node) : (n.silentVerdict b atStart turning).mems = n.mems := by
  simp [Node.silentVerdict]

@[simp] theorem startProbe_mems (b atStart : Bool) (n : Node) : (n.startProbe b atStart).mems = n.mems := by simp [Node.startProbe]

@[simp] theorem judgeSilent_mems (b atStart : Bool) (n : Node) : (n.judgeSilent b atStart).mems = n.mems := by
  unfold Node.judgeSilent
  split <;> simp

@[simp] theorem endProbe_mems (n : Node) : n.endProbe.mems = n.mems := by
  unfold Node.endProbe
  split <;> simp

@[simp] theorem tachSilent_mems (b : Bool) (n : Node) : (n.tachSilent b).mems = n.mems := by
  unfold Node.tachSilent
  dsimp only
  (repeat' split) <;> simp

@[simp] theorem judgementEnd_mems (b : Bool) (n : Node) : (n.judgementEnd b).mems = n.mems := by
  unfold Node.judgementEnd
  dsimp only
  (repeat' split) <;> simp

@[simp] theorem probeEnd_mems (b : Bool) (n : Node) : (n.probeEnd b).mems = n.mems := by
  unfold Node.probeEnd
  dsimp only
  (repeat' split) <;> simp

@[simp] theorem kickEnd_mems (b : Bool) (n : Node) : (n.kickEnd b).mems = n.mems := by
  unfold Node.kickEnd
  split <;> simp

@[simp] theorem pauseEnd_mems (b : Bool) (n : Node) : (n.pauseEnd b).mems = n.mems := by
  unfold Node.pauseEnd
  split <;> simp

@[simp] theorem stoptime_mems (b : Bool) (n : Node) : (n.stoptime b).mems = n.mems := by simp [Node.stoptime]

@[simp] theorem ductTimeout_mems (b : Bool) (n : Node) : (n.ductTimeout b).mems = n.mems := by
  unfold Node.ductTimeout
  split <;> simp

@[simp] theorem calQuiet_mems (n : Node) : n.calQuiet.mems = n.mems := by
  unfold Node.calQuiet
  split <;> simp

@[simp] theorem loadNow_mems (c : Ch) (code : BitVec 18) (n : Node) : (n.loadNow c code).mems = n.mems := by simp [Node.loadNow]

@[simp] theorem loadSample_mems (q : Playback) (n : Node) : (n.loadSample q).mems = n.mems := by
  unfold Node.loadSample
  split <;> simp

@[simp] theorem enterSample_mems (q : Playback) (n : Node) : (n.enterSample q).mems = n.mems := by
  unfold Node.enterSample
  split <;> simp

@[simp] theorem hopStart_mems (q : Playback) (n : Node) : (n.hopStart q).mems = n.mems := by simp [Node.hopStart]

@[simp] theorem endRun_mems (q : Playback) (n : Node) : (n.endRun q).mems = n.mems := by simp [Node.endRun]

@[simp] theorem formFails_mems (reason : Nat) (n : Node) : (n.formFails reason).mems = n.mems := by simp [Node.formFails]

@[simp] theorem fuse_mems (n : Node) : n.fuse.mems = n.mems := by simp [Node.fuse]

@[simp] theorem tripLost_mems (mask : Nat) (n : Node) : (n.tripLost mask).mems = n.mems := by simp [Node.tripLost]

@[simp] theorem widowSlot_mems (c : Ch) (n : Node) : (n.widowSlot c).mems = n.mems := by
  unfold Node.widowSlot
  dsimp only
  split <;> simp

@[simp] theorem cycTimeout_mems (n : Node) : n.cycTimeout.mems = n.mems := by simp [Node.cycTimeout]

@[simp] theorem topologyEvent_mems (q : LinePort) (on : Bool) (n : Node) : (n.topologyEvent q on).mems = n.mems := by
  simp [Node.topologyEvent]

@[simp] theorem topologyChange_mems (n : Node) : n.topologyChange.mems = n.mems := by simp [Node.topologyChange]

@[simp] theorem foldEffect_mems (n : Node) : n.foldEffect.mems = n.mems := by
  unfold Node.foldEffect
  dsimp only
  (repeat' split) <;> simp

@[simp] theorem stopHeading_mems (n : Node) : n.stopHeading.mems = n.mems := by simp [Node.stopHeading]

@[simp] theorem unfoldCycle_mems (n : Node) : n.unfoldCycle.mems = n.mems := by simp [Node.unfoldCycle]

@[simp] theorem ssiLate_mems (c : Ch) (n : Node) : (n.ssiLate c).mems = n.mems := by
  unfold Node.ssiLate
  dsimp only
  split <;> simp

@[simp] theorem currentLimit_mems (c : Ch) (on : Bool) (n : Node) : (n.currentLimit c on).mems = n.mems := by simp [Node.currentLimit]

@[simp] theorem compliance_mems (c : Ch) (lost : Bool) (n : Node) : (n.compliance c lost).mems = n.mems := by simp [Node.compliance]

@[simp] theorem endPairOps_mems (n : Node) : n.endPairOps.mems = n.mems := by
  unfold Node.endPairOps
  dsimp only
  rw [eachOf_mems _ (fun h m => event_mems _ _ _ _ m), modFaults_mems, modLane_mems, eachOf_mems _ ?both,
    eachOf_mems _ (fun o m => endOp_mems _ _ _ _ m), modCore_mems_of]
  case both => intro o m; split <;> simp
  split <;> rfl

@[simp] theorem dissolveSpanning_mems (n : Node) : n.dissolveSpanning.mems = n.mems :=
  eachCh_mems _ (fun c m => by dsimp only; split <;> simp) n

@[simp] theorem caskPair_mems (n : Node) : n.caskPair.mems = n.mems := by simp [Node.caskPair]
@[simp] theorem caskEntry_mems (n : Node) : n.caskEntry.mems = n.mems := by simp [Node.caskEntry]
@[simp] theorem cmdToCask_mems (op : PoolOp) (n : Node) : (cmdToCask op n).2.mems = n.mems := by simp [cmdToCask]
@[simp] theorem cmdSetMode_mems (op : PoolOp) (n : Node) : (cmdSetMode op n).2.mems = n.mems := by
  unfold cmdSetMode
  split <;> simp

@[simp] theorem dropPool_mems (cause : DropCause) (n : Node) : (n.dropPool cause).mems = n.mems := by
  unfold Node.dropPool
  dsimp only
  rw [eachOf_mems _ (fun h m => mems_mk ..), eachOf_mems _ (fun o m => by split <;> simp), eachOf_mems _ (fun p m => waveEnd_mems p 3 m)]

@[simp] theorem itemWritten_mems (id : Nat) (old v : Word) (n : Node) : (n.itemWritten id old v).mems = n.mems := by
  unfold Node.itemWritten
  dsimp only
  simp only [mems_ite, caskExcWritten_mems, caskItemWritten_mems, plug_mems, offsetWritten_mems, emuWritten_mems, leaveGroup_mems,
    modOut_mems, rangeWritten_mems, shortOff_mems, clrenWritten_mems, clrcodeWritten_mems, fansWritten_mems, modSound_mems,
    tselWritten_mems, modTime_mems, headFits_mems, roleInForce_mems, ite_self]
  (repeat' split) <;> simp

@[simp] theorem cmdCalibrateAngle_mems (op : PoolOp) (n : Node) : (cmdCalibrateAngle op n).2.mems = n.mems := by
  unfold cmdCalibrateAngle
  dsimp only
  split
  · rfl
  · split
    · exact learnMapStart_mems _ _ n
    · exact setMap_mems _ _ n
    · rfl
    · exact setMap_mems _ _ n

@[simp] theorem armHops_mems (op : PoolOp) (c : Ch) (es : List ((Word × Word × Word × Word) × Int × Bool)) (n : Node) :
    (n.armHops op c es).2.mems = n.mems := by
  induction es generalizing n with
  | nil => rfl
  | cons e es ih => rw [Node.armHops, ih, armHop_mems]

@[simp] theorem cmdHopAdd_mems (op : PoolOp) (n : Node) : (cmdHopAdd op n).2.mems = n.mems := by
  rw [cmdHopAdd_eq]
  dsimp only
  split <;> simp

@[simp] theorem removeHandles_mems (ws : List Word) (n : Node) : (n.removeHandles ws).2.mems = n.mems := by
  rw [removeHandles_node]
  rfl

@[simp] theorem cmdHopRemove_mems (op : PoolOp) (n : Node) : (cmdHopRemove op n).2.mems = n.mems := by
  unfold cmdHopRemove
  dsimp only
  split <;> simp

@[simp] theorem cmdDacStrobe_mems (op : PoolOp) (n : Node) : (cmdDacStrobe op n).2.mems = n.mems := by
  simp [cmdDacStrobe, apply_ite Prod.snd]

@[simp] theorem waveSeal_mems (op : PoolOp) (t : Nat) (n : Node) : (waveSeal op t n).2.mems = n.mems := by
  unfold waveSeal
  dsimp only
  split
  · exact (modStore_mems_of _ _ rfl).trans (modWaves_mems_of _ _ rfl)
  · exact modWaves_mems_of _ _ rfl

@[simp] theorem takeRx_mems (k : Nat) (n : Node) : (n.takeRx k).mems = n.mems := by
  induction k generalizing n with
  | zero => rfl
  | succ k ih =>
    unfold Node.takeRx
    split
    · rfl
    · split
      · rfl
      · rw [ih]; simp

@[simp] theorem hostFlow_mems (n : Node) : n.hostFlow.mems = n.mems := by simp [Node.hostFlow]

@[simp] theorem cycleEdge_mems (n : Node) : n.cycleEdge.mems = n.mems := by
  unfold Node.cycleEdge
  dsimp only
  split
  · rfl
  · exact modCore_mems_of _ _ rfl

@[simp] theorem forcedDetector_mems (f : FaultCode) (sc : Nat) (ctx : Word) (real : Bool) (own : Node → Node)
    (hown : ∀ m, (own m).mems = m.mems) (n : Node) : (n.forcedDetector f sc ctx real own).mems = n.mems := by
  simp [Node.forcedDetector, hown]

@[simp] theorem forcedNode_mems (n : Node) : n.forcedNode.mems = n.mems := by simp [Node.forcedNode]
@[simp] theorem forcedChannel_mems (c : Ch) (n : Node) : (n.forcedChannel c).mems = n.mems := by simp [Node.forcedChannel]
@[simp] theorem stepChannels_mems (x : Quad ChanInput) (n : Node) : (n.stepChannels x).mems = n.mems := by simp [Node.stepChannels]

@[simp] theorem slotPhaseB_mems (c : Ch) (r : Nat × Node) : (Node.slotPhaseB c r).2.mems = r.2.mems := by
  unfold Node.slotPhaseB
  dsimp only
  (repeat' split) <;> simp

theorem foldl_slotPhaseB_mems (cs : List Ch) (r : Nat × Node) :
    (cs.foldl (fun r c => Node.slotPhaseB c r) r).2.mems = r.2.mems := by
  induction cs generalizing r with
  | nil => rfl
  | cons c cs ih => rw [List.foldl_cons, ih, slotPhaseB_mems]

@[simp] theorem runPhaseB_mems (stall : Nat) (n : Node) : (n.runPhaseB stall).mems = n.mems := by
  simp [Node.runPhaseB, foldl_slotPhaseB_mems]

@[simp] theorem judgeDeadline_mems (c : Ch) (n : Node) : (n.judgeDeadline c).mems = n.mems := by
  unfold Node.judgeDeadline
  simp only [mems_ite, trip_mems, modSlot_mems, mems_mk, useInjection_mems, ite_self]

@[simp] theorem outputInstant_mems (n : Node) : n.outputInstant.mems = n.mems := by simp [Node.outputInstant]

theorem fillCmd_mems (es : List (BitVec 16 × List Byte)) (room : Nat) (acc : List Byte) (n : Node) :
    (Node.fillCmd es room acc n).2.2.mems = n.mems := by
  induction es generalizing room acc n with
  | nil => rfl
  | cons e es ih =>
    unfold Node.fillCmd
    dsimp only
    split
    · rw [ih, lineArrive_mems]
    · split
      · rw [ih]
        split
        · exact lineArrive_mems ..
        · rfl
      · rfl

@[simp] theorem sendExtra_mems (n : Node) : n.sendExtra.2.mems = n.mems := by
  unfold Node.sendExtra
  split
  · rfl
  · split
    · simp
    · simp [fillCmd_mems]

theorem foldl_raise_mems (vs : List Verdict) (a : List Verdict × Node) :
    (vs.foldl (fun a v => (if (a.2.raise v).1 then a.1 ++ [v] else a.1, (a.2.raise v).2)) a).2.mems = a.2.mems := by
  induction vs generalizing a with
  | nil => rfl
  | cons v vs ih => rw [List.foldl_cons, ih, raise_mems]

@[simp] theorem deliverVerdicts_mems (n : Node) : n.deliverVerdicts.mems = n.mems := by
  unfold Node.deliverVerdicts
  dsimp only
  rw [eachOf_mems (fun (v : Verdict) m => m.cease v.code v.scope) (fun v m => cease_mems ..), mems_ite, caskEntry_mems,
    eachCh_mems _ (fun c m => by split <;> simp), ite_self, mems_ite, calAbort_mems, ite_self, foldl_raise_mems, modFaults_mems]

@[simp] theorem collect_mems (r : RoundRun) (n : Node) : (n.collect r).mems = n.mems := by
  unfold Node.collect
  split
  · rfl
  · dsimp only
    split <;> simp

@[simp] theorem publishRound_mems (x : RoundData) (n : Node) : (n.publishRound x).mems = n.mems := by
  unfold Node.publishRound
  split
  · rfl
  · simp

@[simp] theorem saveZero_mems (items : List (Nat × Word)) (n : Node) : (n.saveZero items).mems = n.mems := by
  unfold Node.saveZero
  dsimp only
  rw [storeWrite_mems, mems_ite, modStore_mems_of _ _ rfl, ite_self]

@[simp] theorem partnerLost_mems (n : Node) : n.partnerLost.mems = n.mems := by
  unfold Node.partnerLost
  simp

@[simp] theorem cycleStart_mems (n : Node) : n.cycleStart.mems = n.mems := by
  unfold Node.cycleStart
  extract_lets len early n1 n2 n3 n4 sync n5 x n6
  have h2 : n2.mems = n.mems := by rw [cause_mems, modLine_mems, judgeReturn_mems]
  have h4 : n4.mems = n.mems := by simp only [n4, n3, mems_ite, addRoll_mems, modLine_mems, ite_self, h2]
  have h6 : n6.mems = n.mems := by simp only [n6, x, n5, sendExtra_mems, modLine_mems, h4]
  rw [mems_ite]
  split
  · rfl
  · split
    · rw [sendRoll_mems, h4]
    · rw [mems_ite, send_mems, send_mems, modLine_mems, modLine_mems, ite_self, h6]

@[simp] theorem receive_mems (h : FrameHdr) (typ : Byte) (payload : List Byte) (f : Bool → Node → Node) (n : Node)
    (hf : ∀ b m, (f b m).mems = m.mems) : (n.receive h typ payload f).mems = n.mems := by
  unfold Node.receive
  split
  · simp
  · dsimp only
    split <;> simp [hf]

@[simp] theorem laneTake_mems (g : LaneHdr) (f : Node → Node) (n : Node) (hf : ∀ m, (f m).mems = m.mems) : (n.laneTake g f).mems = n.mems := by
  unfold Node.laneTake
  dsimp only
  split <;> simp [hf]

end Sys2Proof.Machine
end

section
/-!
PROOFS. What writes the sparse memories of a node writes them in canonical form (95_what_each_step_holds.md).
-/
namespace Sys2Proof.Machine

/-! ### What a part of a canonical memory is -/

/-- What a filter leaves of a working set in canonical form. -/
theorem ParamMem.filter_wf (q : Nat × Word → Bool) (m : ParamMem) (h : ParamMem.wf m = true) :
    ParamMem.wf (List.filter q m) = true := by
  induction m with
  | nil => rfl
  | cons e es ih =>
    obtain ⟨⟨hne, hlt⟩, hes⟩ := (ParamMem.wf_cons e es).mp h
    rw [List.filter_cons]
    split
    · exact (ParamMem.wf_cons _ _).mpr ⟨⟨hne, fun x hx => hlt x (List.mem_of_mem_filter hx)⟩, ih hes⟩
    · exact ih hes

theorem WaveMem.zero_wf (m : WaveMem) (base len : Nat) (h : WaveMem.wf m = true) : (m.zero base len).wf = true := by
  unfold WaveMem.zero
  induction m with
  | nil => rfl
  | cons e es ih =>
    obtain ⟨⟨hne, hlt⟩, hes⟩ := (WaveMem.wf_cons e es).mp h
    rw [List.filter_cons]
    split
    · exact (WaveMem.wf_cons _ _).mpr ⟨⟨hne, fun x hx => hlt x (List.mem_of_mem_filter hx)⟩, ih hes⟩
    · exact ih hes

theorem WaveMem.putAll_wf (vs : List (BitVec 18)) (m : WaveMem) (a : Nat) (h : m.wf = true) : (m.putAll a vs).wf = true := by
  induction vs generalizing m a with
  | nil => exact h
  | cons v vs ih => exact ih _ _ (WaveMem.put_wf m a v h)

/-- Samples written one after the other from a place on. -/
theorem WaveMem.foldl_put_wf (base : Nat) (xs : List (BitVec 18 × Nat)) (m : WaveMem) (h : m.wf = true) :
    WaveMem.wf (xs.foldl (fun a e => WaveMem.put a (base + e.2) e.1) m) = true := by
  induction xs generalizing m with
  | nil => exact h
  | cons x xs ih => exact ih _ (WaveMem.put_wf _ _ _ h)

/-- A loaded set that falls back only drops entries. -/
theorem settleLoad_wf (f : Nat) (x : ParamMem × List (Nat × Nat)) (h : x.1.wf = true) : (settleLoad f x).1.wf = true := by
  induction f generalizing x with
  | zero => exact h
  | succ f ih =>
    obtain ⟨ps, gone⟩ := x
    have hdrop (bs : List (Nat × Nat)) : (dropBlocks bs ps).wf = true := ParamMem.filter_wf _ ps h
    unfold settleLoad
    split
    · exact h
    · exact ih _ (by split <;> exact hdrop _)

theorem loadRecords_wf (rs : List (Nat × Word)) : (loadRecords rs).1.wf = true :=
  settleLoad_wf 64 _ (ParamMem.putAll_wf [] _ rfl)

/-! ### The node's memories in canonical form -/

theorem Mems.wf_mk (p : ParamMem) (w : WaveMem) (a b : ByteMem) :
    Mems.wf (p, w, a, b) = true ↔ p.wf = true ∧ w.wf = true ∧ a.wf = true ∧ b.wf = true := by
  simp [Mems.wf, and_assoc]

theorem mems_wf (n : Node) : n.mems.wf = true ↔ n.core.params.wf = true ∧ n.core.waves.mem.wf = true ∧
    n.store.images.a.bytes.wf = true ∧ n.store.images.b.bytes.wf = true := Mems.wf_mk ..

@[simp] theorem wf_ite {b : Prop} [Decidable b] (x y : Mems) : (if b then x else y).wf = if b then x.wf else y.wf :=
  apply_ite Mems.wf b x y

/-- A change of the working set alone. -/
theorem setParams_wf (f : Core → Core) (n : Node) (hw : (f n.core).waves.mem = n.core.waves.mem)
    (hp : n.core.params.wf = true → (f n.core).params.wf = true) (h : n.mems.wf = true) : (n.modCore f).mems.wf = true := by
  obtain ⟨hps, hws, ha, hb⟩ := (mems_wf n).mp h
  exact (mems_wf _).mpr ⟨hp hps, (congrArg WaveMem.wf hw).trans hws, ha, hb⟩

/-- A change of wave memory alone. -/
theorem modWaves_wf (f : Waves → Waves) (n : Node) (hw : n.core.waves.mem.wf = true → (f n.core.waves).mem.wf = true)
    (h : n.mems.wf = true) : (n.modWaves f).mems.wf = true := by
  obtain ⟨hps, hws, ha, hb⟩ := (mems_wf n).mp h
  exact (mems_wf _).mpr ⟨hps, hw hws, ha, hb⟩

/-- A change of an image slot. -/
theorem modImage_wf (b : Bool) (f : ImageSlot → ImageSlot) (n : Node)
    (hf : ∀ s, s.bytes.wf = true → (f s).bytes.wf = true) (h : n.mems.wf = true) : (n.modImage b f).mems.wf = true := by
  obtain ⟨hps, hws, ha, hb⟩ := (mems_wf n).mp h
  cases b with
  | false => exact (mems_wf _).mpr ⟨hps, hws, hf _ ha, hb⟩
  | true => exact (mems_wf _).mpr ⟨hps, hws, ha, hf _ hb⟩

/-- A change of an image slot that keeps its bytes. -/
@[simp] theorem modImage_mems (b : Bool) (f : ImageSlot → ImageSlot) (n : Node) (hf : ∀ s, (f s).bytes = s.bytes) :
    (n.modImage b f).mems = n.mems := by
  cases b with
  | false => exact congrArg (fun x => (n.core.params, n.core.waves.mem, x, n.store.images.b.bytes)) (hf _)
  | true => exact congrArg (fun x => (n.core.params, n.core.waves.mem, n.store.images.a.bytes, x)) (hf _)

theorem eachOf_wf {α : Type} (f : α → Node → Node) (hf : ∀ x m, m.mems.wf = true → (f x m).mems.wf = true) (xs : List α) (n : Node)
    (h : n.mems.wf = true) : (eachOf xs f n).mems.wf = true :=
  eachOf_keeps (fun m => m.mems.wf = true) f xs (fun x _ => hf x) n h

theorem whenUp_wf (f : Node → Node) (hf : ∀ m, m.mems.wf = true → (f m).mems.wf = true) (n : Node) (h : n.mems.wf = true) :
    (n.whenUp f).mems.wf = true := by
  unfold Node.whenUp
  split
  · exact hf n h
  · exact h

theorem whenCellar_wf (f : Node → Node) (hf : ∀ m, m.mems.wf = true → (f m).mems.wf = true) (n : Node) (h : n.mems.wf = true) :
    (n.whenCellar f).mems.wf = true := by
  unfold Node.whenCellar
  split
  · exact hf n h
  · exact h

/-! ### What writes a memory -/

@[simp] theorem dropTransfer_wf (n : Node) (h : n.mems.wf = true) : n.dropTransfer.mems.wf = true := by
  unfold Node.dropTransfer
  split
  · exact h
  · rw [modCore_mems_of _ _ rfl]
    exact modImage_wf _ _ _ (fun _ _ => rfl) h

@[simp] theorem setPar_wf (pid i : Nat) (w : Word) (n : Node) (h : n.mems.wf = true) : (n.setPar pid i w).mems.wf = true :=
  setParams_wf (fun k => { k with params := k.params.put (pidAt pid i) w }) n rfl (ParamMem.put_wf _ _ _) h

@[simp] theorem writeItems_wf (items : List (Nat × Word)) (n : Node) (h : n.mems.wf = true) : (n.writeItems items).mems.wf = true := by
  unfold Node.writeItems
  extract_lets old changed n1 moves n2 n3
  have h1 : n1.mems.wf = true := by rw [eachOf_mems _ (fun _ m => unplug_mems ..)]; exact h
  have h2 : n2.mems.wf = true := setParams_wf _ _ rfl (ParamMem.putAll_wf _ _) (by simpa using h1)
  have h3 : n3.mems.wf = true := by rw [eachOf_mems _ (fun _ m => itemWritten_mems ..)]; exact h2
  rw [eachCh_mems _ (fun _ m => by simp)]
  exact h3

@[simp] theorem coreReset_wf (t : SteepTrigger) (cause : DropCause) (wd : Option Bool) (n : Node) (h : n.mems.wf = true) :
    (n.coreReset t cause wd).mems.wf = true := by
  unfold Node.coreReset
  extract_lets n1 n2 n3 k fresh n4 owner n5 n6 time n7 n8
  have h3 : n3.mems.wf = true := dropTransfer_wf _ (by simpa [n2, n1] using h)
  have h4 : n4.mems.wf = true := by
    obtain ⟨hps, -, ha, hb⟩ := (mems_wf n3).mp h3
    exact (mems_wf n4).mpr ⟨hps, rfl, ha, hb⟩
  have h5 : n5.mems = n4.mems := (modStore_mems_of _ _ rfl).trans (setClient_mems ..)
  have h8 : n8.mems = n5.mems := (modLine_mems ..).trans ((mems_mk ..).trans (modLane_mems ..))
  rw [mems_mk, h8, h5]
  exact h4

@[simp] theorem rateEffect_wf (r : TickRate) (outat : Option Nat) (n : Node) (h : n.mems.wf = true) :
    (n.rateEffect r outat).mems.wf = true := by
  unfold Node.rateEffect
  dsimp only
  rw [event_mems, eachOf_mems _ (fun _ m => endWhole_mems ..), modFaults_mems]
  exact setParams_wf _ _ rfl (fun hp => ParamMem.put_wf _ _ _ (ParamMem.put_wf _ _ _ hp)) h

@[simp] theorem waveDefine_wf (t base len : Nat) (persist : Bool) (n : Node) (h : n.mems.wf = true) :
    (waveDefine t base len persist n).2.mems.wf = true :=
  modWaves_wf _ _ (WaveMem.zero_wf _ _ _) (by simpa using h)

@[simp] theorem cmdWaveLoad_wf (op : PoolOp) (n : Node) (h : n.mems.wf = true) : (cmdWaveLoad op n).2.mems.wf = true := by
  unfold cmdWaveLoad
  dsimp only
  split
  · exact h
  · split
    · exact h
    · split
      · exact h
      · split
        · exact waveDefine_wf _ _ _ _ n h
        · exact modWaves_wf _ n (WaveMem.putAll_wf _ _ _) h
        · rw [waveSeal_mems]; exact h
        · rw [modWaves_mems_of _ _ rfl, unpersist_mems]; exact h

@[simp] theorem cmdFwBegin_wf (op : PoolOp) (n : Node) (h : n.mems.wf = true) : (cmdFwBegin op n).2.mems.wf = true := by
  unfold cmdFwBegin
  extract_lets w onTrial others n1 b t n2
  have h1 : n1.mems.wf = true := dropTransfer_wf _ (by simpa using h)
  split
  · exact h
  · split
    · exact h
    · rw [modCore_mems_of _ _ rfl]
      exact modImage_wf _ _ _ (fun _ _ => rfl) h1

@[simp] theorem cellarReset_wf (n : Node) (h : n.mems.wf = true) : n.cellarReset.mems.wf = true := by
  obtain ⟨-, -, ha, hb⟩ := (mems_wf _).mp (dropTransfer_wf n h)
  exact (mems_wf _).mpr ⟨rfl, rfl, ha, hb⟩

@[simp] theorem stepTick_wf (x : Quad ChanInput) (n : Node) (h : n.mems.wf = true) : (n.stepTick x).mems.wf = true := by
  unfold Node.stepTick
  extract_lets own ps stepped
  split
  · rw [stepChannels_mems]; exact h
  · obtain ⟨hps, hws, hab⟩ := (mems_wf n).mp h
    have hm : stepped.mems = (ps, n.core.waves.mem, n.store.images.a.bytes, n.store.images.b.bytes) := by
      rw [stepChannels_mems, modCore_mems]
    clear_value stepped
    obtain ⟨-, hw⟩ := Prod.mk.inj hm
    rw [modCore_mems, Mems.wf_mk]
    obtain ⟨hw, hi⟩ := Prod.mk.inj hw
    obtain ⟨ha, hb⟩ := Prod.mk.inj hi
    exact ⟨ParamMem.putAll_wf _ _ hps, hw ▸ hws, ha ▸ hb ▸ hab⟩

@[simp] theorem storeDamage_wf (g : SteepGround) (n : Node) (h : n.mems.wf = true) : (n.storeDamage g).mems.wf = true := by
  unfold Node.storeDamage
  extract_lets n1 n2 n3 slot
  have h1 : n1.mems = n.mems := by simp [n1]
  have h3 : n3.mems.wf = true := by
    have h2 : n2.mems = n.mems := by
      rw [mems_ite, modStore_mems_of _ _ rfl, ite_self, h1]
    rw [modStore_mems_of _ _ rfl, h2]
    exact h
  split
  · exact h3
  · exact (mems_wf _).mpr ((mems_wf n3).mp h3)

@[simp] theorem loadWorking_wf (g : SteepGround) (n : Node) (h : n.mems.wf = true) : (n.loadWorking g).mems.wf = true := by
  unfold Node.loadWorking
  dsimp only
  split
  · exact setParams_wf _ n rfl (fun _ => rfl) h
  · rw [eachCh_mems _ (fun _ m => modFront_mems ..)]
    exact setParams_wf _ n rfl (fun _ => loadRecords_wf _) h

@[simp] theorem restoreTables_wf (n : Node) (h : n.mems.wf = true) : n.restoreTables.mems.wf = true :=
  eachOf_wf _ (fun _ m hm => modWaves_wf _ m (WaveMem.foldl_put_wf _ _ _) hm) _ n h

@[simp] theorem writeBlock_wf (off : Nat) (bytes : List Byte) (n : Node) (h : n.mems.wf = true) :
    (n.writeBlock off bytes).mems.wf = true := by
  unfold Node.writeBlock
  split
  · exact h
  · exact modImage_wf _ _ n (fun _ hs => ByteMem.putAll_wf _ _ _ hs) h

@[simp] theorem calDone_wf (n : Node) (h : n.mems.wf = true) : n.calDone.mems.wf = true := by
  unfold Node.calDone
  split
  · exact h
  · split
    · exact h
    · split
      · rw [calEnd_mems]; exact h
      · extract_lets a b one rs items n1
        split
        · rw [calEnd_mems]; exact h
        · rw [calEnd_mems, saveZero_mems]
          exact setParams_wf _ n rfl (ParamMem.putAll_wf _ _) h
/-! ### The commands -/

theorem commitOp_wf (f : PoolOp → Node → Ans × Node) (hf : ∀ op m, m.mems.wf = true → (f op m).2.mems.wf = true) (op : PoolOp) (n : Node)
    (h : n.mems.wf = true) : (n.commitOp f op).mems.wf = true := by
  have hr : (f op (n.markCommitted op.order)).2.mems.wf = true := hf _ _ (by rw [markCommitted_mems]; exact h)
  unfold Node.commitOp
  split
  · exact h
  · dsimp only
    split
    · rw [endOp_mems]; exact h
    · split
      · rw [endOp_mems]; exact h
      · split
        · rw [deliver_mems]; exact hr
        · exact hr

theorem packetRow_wf (f : PoolOp → Node → Ans × Node) (hf : ∀ op m, m.mems.wf = true → (f op m).2.mems.wf = true) (p : Packet) (n : Node)
    (h : n.mems.wf = true) : (n.packetRow f p).mems.wf = true := by
  refine whenCellar_wf _ (fun m hm => ?_) n h
  have ha : (m.arrive p (decide (p.words.length ≤ 250)) m.firstTick).2.mems.wf = true := by rw [arrive_mems]; exact hm
  dsimp only
  split
  · exact ha
  · split
    · exact ha
    · exact commitOp_wf f hf _ _ ha

/-- A command that touches no memory. -/
theorem packetRow_mems_wf (f : PoolOp → Node → Ans × Node) (hf : ∀ op m, (f op m).2.mems = m.mems) (p : Packet) (n : Node)
    (h : n.mems.wf = true) : (n.packetRow f p).mems.wf = true :=
  packetRow_wf f (fun op m hm => by rw [hf]; exact hm) p n h

@[simp] theorem endTransferOf_wf (c : Client) (n : Node) (h : n.mems.wf = true) : (n.endTransferOf c).mems.wf = true := by
  unfold Node.endTransferOf
  split <;> simp [h]

@[simp] theorem closeSession_wf (id : BitVec 8) (n : Node) (h : n.mems.wf = true) : (n.closeSession id).mems.wf = true := by
  simp [Node.closeSession, h]

@[simp] theorem cmdCloseSession_wf (op : PoolOp) (n : Node) (h : n.mems.wf = true) : (cmdCloseSession op n).2.mems.wf = true := by
  simp [cmdCloseSession, h]

@[simp] theorem cmdSteepRun_wf (op : PoolOp) (n : Node) (h : n.mems.wf = true) : (cmdSteepRun op n).2.mems.wf = true := by
  simp [cmdSteepRun, h]

@[simp] theorem acceptRate_wf (r : TickRate) (outat : Option Nat) (op : Nat) (dflt : Bool) (n : Node) (h : n.mems.wf = true) :
    (n.acceptRate r outat op dflt).2.mems.wf = true := by
  unfold Node.acceptRate
  split <;> simp [h]

@[simp] theorem commitItems_wf (op : Nat) (items : List (Nat × Word)) (n : Node) (h : n.mems.wf = true) :
    (n.commitItems op items).2.mems.wf = true := by
  unfold Node.commitItems
  split <;> simp [h]

@[simp] theorem writeJudged_wf (items : List (Nat × Word)) (op : PoolOp) (n : Node) (h : n.mems.wf = true) :
    (n.writeJudged items op).2.mems.wf = true := by
  unfold Node.writeJudged
  dsimp only
  (repeat' split) <;> simp [h]

@[simp] theorem cmdParamWrite_wf (op : PoolOp) (n : Node) (h : n.mems.wf = true) : (cmdParamWrite op n).2.mems.wf = true := by
  simp [cmdParamWrite, h]

@[simp] theorem putRate_wf (r : TickRate) (o : Nat) (n : Node) (h : n.mems.wf = true) : (n.putRate r o).mems.wf = true := by
  simp [Node.putRate, h]

@[simp] theorem takeRate_wf (ps : ParamMem) (n : Node) (h : n.mems.wf = true) : (n.takeRate ps).mems.wf = true := by
  simp [Node.takeRate, h]

@[simp] theorem cmdParamRestore_wf (op : PoolOp) (n : Node) (h : n.mems.wf = true) : (cmdParamRestore op n).2.mems.wf = true := by
  unfold cmdParamRestore
  dsimp only
  (repeat' split) <;> simp [h]

@[simp] theorem cmdSetPosition_wf (op : PoolOp) (n : Node) (h : n.mems.wf = true) : (cmdSetPosition op n).2.mems.wf = true := by
  unfold cmdSetPosition
  dsimp only
  (repeat' split) <;> simp [h]

@[simp] theorem writeOp_wf (oc : Opcode) (op : PoolOp) (n : Node) (h : n.mems.wf = true) : (n.writeOp oc op).2.mems.wf = true := by
  unfold Node.writeOp
  dsimp only
  split <;> simp [h]

@[simp] theorem cmdSetLimits_wf (op : PoolOp) (n : Node) (h : n.mems.wf = true) : (cmdSetLimits op n).2.mems.wf = true := by
  simp [cmdSetLimits, h]

@[simp] theorem cmdGainSet_wf (op : PoolOp) (n : Node) (h : n.mems.wf = true) : (cmdGainSet op n).2.mems.wf = true := by
  simp [cmdGainSet, h]

@[simp] theorem cmdEmuSet_wf (op : PoolOp) (n : Node) (h : n.mems.wf = true) : (cmdEmuSet op n).2.mems.wf = true := by
  simp [cmdEmuSet, h]

@[simp] theorem cmdDacConfig_wf (op : PoolOp) (n : Node) (h : n.mems.wf = true) : (cmdDacConfig op n).2.mems.wf = true := by
  simp [cmdDacConfig, h]

@[simp] theorem cmdSoundConfig_wf (op : PoolOp) (n : Node) (h : n.mems.wf = true) : (cmdSoundConfig op n).2.mems.wf = true := by
  simp [cmdSoundConfig, h]

@[simp] theorem cmdFanSet_wf (op : PoolOp) (n : Node) (h : n.mems.wf = true) : (cmdFanSet op n).2.mems.wf = true := by
  simp [cmdFanSet, h]

@[simp] theorem trialExpiry_wf (b : Bool) (n : Node) (h : n.mems.wf = true) : (n.trialExpiry b).mems.wf = true := by
  simp [Node.trialExpiry, h]

@[simp] theorem revert_wf (b : Bool) (n : Node) (h : n.mems.wf = true) : (n.revert b).mems.wf = true := by simp [Node.revert, h]

@[simp] theorem loadRate_wf (n : Node) (h : n.mems.wf = true) : n.loadRate.mems.wf = true := by simp [Node.loadRate, h]

@[simp] theorem learnDone_wf (c : Ch) (n : Node) (h : n.mems.wf = true) : (n.learnDone c).mems.wf = true := by
  unfold Node.learnDone
  (repeat' split) <;> simp [h]

@[simp] theorem commitFails_wf (o check off : Nat) (n : Node) (h : n.mems.wf = true) : (n.commitFails o check off).mems.wf = true := by
  simp [Node.commitFails, h]

@[simp] theorem commitChecked_wf (n : Node) (h : n.mems.wf = true) : n.commitChecked.mems.wf = true := by
  unfold Node.commitChecked
  dsimp only
  (repeat' split) <;> simp [h]

@[simp] theorem drainEnd_wf (n : Node) (h : n.mems.wf = true) : n.drainEnd.mems.wf = true := by
  unfold Node.drainEnd
  (repeat' split) <;> simp [h]

/-! ### What is built of these -/

@[simp] theorem setDefaults_wf (headen : Bool) (n : Node) (h : n.mems.wf = true) : (n.setDefaults headen).mems.wf = true := by
  unfold Node.setDefaults
  dsimp only
  rw [eachCh_mems _ (fun _ m => modFront_mems ..), modTime_mems]
  exact setPar_wf _ _ _ _ (writeItems_wf _ n h)

@[simp] theorem cmdParamDefaults_wf (op : PoolOp) (n : Node) (h : n.mems.wf = true) : (cmdParamDefaults op n).2.mems.wf = true := by
  unfold cmdParamDefaults
  dsimp only
  (repeat' split) <;> simp [h]

@[simp] theorem installFollowers_wf (l : Nat) (fs : List (Nat × Int)) (n : Node) (h : n.mems.wf = true) :
    (n.installFollowers l fs).mems.wf = true :=
  eachOf_wf _ (fun f m hm => by split <;> simp [hm]) fs _ (by simpa using h)

@[simp] theorem setGroup_wf (c : Ch) (fs : List (Nat × Int)) (n : Node) (h : n.mems.wf = true) : (n.setGroup c fs).mems.wf = true := by
  simp [Node.setGroup, h]

@[simp] theorem cascadeSet_wf (op : PoolOp) (c : Ch) (n : Node) (h : n.mems.wf = true) : (cascadeSet op c n).2.mems.wf = true := by
  unfold cascadeSet
  extract_lets l fs own member busy far other was m
  have hm : m.mems.wf = true := setGroup_wf _ _ n h
  (repeat' split) <;> simp [h, hm]

@[simp] theorem cmdCascadeSet_wf (op : PoolOp) (n : Node) (h : n.mems.wf = true) : (cmdCascadeSet op n).2.mems.wf = true := by
  unfold cmdCascadeSet
  split <;> simp [h]

@[simp] theorem holdCore_wf (t : Option SteepTrigger) (n : Node) (h : n.mems.wf = true) : (n.holdCore t).mems.wf = true := by
  unfold Node.holdCore
  split
  · split
    · exact h
    · split <;> exact h
  · exact coreReset_wf _ _ _ n h
  · dsimp only
    split <;> exact h

@[simp] theorem tapTo_wf (ir : Nat) (cells : Option (BitVec 86)) (t : Nat) (n : Node) (h : n.mems.wf = true) :
    (n.tapTo ir cells t).mems.wf = true := by
  refine whenCellar_wf _ (fun m hm => ?_) _ h
  dsimp only
  (repeat' split) <;> simp [hm]

@[simp] theorem takeResult_wf (x : RelayResult) (n : Node) (h : n.mems.wf = true) : (n.takeResult x).mems.wf = true := by
  unfold Node.takeResult
  dsimp only
  (repeat' split) <;> simp [h]

@[simp] theorem cmdOf_wf (oc : Opcode) (op : PoolOp) (n : Node) (h : n.mems.wf = true) : (cmdOf oc op n).2.mems.wf = true := by
  cases oc with
  | rollcall => unfold cmdOf; dsimp only; split <;> simp [h]
  | _ => simp [cmdOf, h]

@[simp] theorem commitAll_wf (os : List Nat) (n : Node) (h : n.mems.wf = true) : (n.commitAll os).mems.wf = true := by
  refine eachOf_wf _ (fun o m hm => ?_) os n h
  split
  · exact hm
  · split
    · split
      · exact commitOp_wf _ (fun op m => cmdOf_wf _ op m) _ m hm
      · exact hm
    · exact hm

@[simp] theorem commitDue_wf (n : Node) (h : n.mems.wf = true) : n.commitDue.mems.wf = true := commitAll_wf _ n h
@[simp] theorem commitEarly_wf (n : Node) (h : n.mems.wf = true) : n.commitEarly.mems.wf = true := commitAll_wf _ n h

@[simp] theorem coreTick_wf (x : Quad ChanInput) (late : Bool) (n : Node) (h : n.mems.wf = true) :
    (n.coreTick x late).mems.wf = true := by
  unfold Node.coreTick
  extract_lets n1 n2 n3
  have h2 : n2.mems.wf = true := stepTick_wf x _ (commitEarly_wf _ (by simpa [n1] using h))
  have h3 : n3.mems.wf = true := by
    simp only [n3]
    split
    · exact h2
    · exact commitDue_wf _ (by simpa using h2)
  simpa using h3

@[simp] theorem rateChange_wf (n : Node) (h : n.mems.wf = true) : n.rateChange.mems.wf = true := by
  unfold Node.rateChange
  split
  · exact h
  · split
    · exact h
    · extract_lets headen n1 n2 n3
      have h2 : n2.mems.wf = true := by
        simp only [n2]
        split <;> simp [n1, h]
      have h3 : n3.mems.wf = true := by simpa [n3] using h2
      split <;> simp [h3]

@[simp] theorem imageAfter_wf (run : Running) (passed failed : Bool) (n : Node) (h : n.mems.wf = true) :
    (n.imageAfter run passed failed).mems.wf = true := by
  unfold Node.imageAfter
  split
  · exact h
  · refine modImage_wf _ _ n (fun s hs => ?_) h
    dsimp only
    (repeat' split) <;> exact hs

theorem nextConfig_images (s : Store) : s.nextConfig.images = s.images := by
  unfold Store.nextConfig
  split <;> rfl

/-- A finished write changes no image slot by itself. -/
theorem apply_images (k : WriteKind) (s : Store) : (k.apply s).images = s.images := by
  cases k with
  | config => exact nextConfig_images _
  | zeroCal =>
    unfold WriteKind.apply
    dsimp only
    split
    · rfl
    · exact nextConfig_images _
  | shadow =>
    unfold WriteKind.apply
    dsimp only
    split <;> rfl
  | _ => rfl

@[simp] theorem writeDone_wf (n : Node) (h : n.mems.wf = true) : n.writeDone.mems.wf = true := by
  unfold Node.writeDone
  split
  · exact h
  · extract_lets n1 n2
    have h1 : n1.mems = n.mems := modStore_mems_of _ n (apply_images ..)
    have h2 : n2.mems.wf = true := by
      simp only [n2]
      split <;> simp [h1, h]
    simpa using h2

@[simp] theorem adopt_wf (a : Adoption) (sh : Shadow) (c : Config) (n : Node) (h : n.mems.wf = true) :
    (n.adopt a sh c).mems.wf = true := by
  unfold Node.adopt
  extract_lets c' b n1 n2 n3
  have h3 : n3.mems = n.mems := (mems_mk ..).trans ((modLine_mems ..).trans (modStore_mems_of _ _ rfl))
  rw [beginSteep_mems]
  exact coreReset_wf _ _ _ _ (by rw [h3]; exact h)

@[simp] theorem steepDone_wf (r : SteepResults) (run : SteepRun) (n : Node) (h : n.mems.wf = true) :
    (n.steepDone r run).mems.wf = true := by
  unfold Node.steepDone
  extract_lets g clean n1 img n2 bits own skipped passed failed trial cuts n3 second unavail silent cleared locked w n4 n5 tdcFailed rst n6 n7
    m1 mrst m2 k1 k2 k3 k4 k5 k6 k7 held k8 k9 k10 k11 k12 k13 k14 k15 k16 krst k17 auto
  have h3 : n3.mems.wf = true := imageAfter_wf _ _ _ _ (loadWorking_wf _ _ (storeDamage_wf _ _ h))
  have h7 : n7.mems.wf = true := by
    rw [reportCorrected_mems, mems_mk, modStore_mems_of _ _ rfl, modFaults_mems]
    exact h3
  split
  · have hm : m1.mems.wf = true := by
      simp only [m1]
      clear_value img
      split
      · exact modImage_wf _ _ _ (fun _ hs => hs) h7
      · exact h7
    rw [steepFrom_mems, mems_mk]
    exact hm
  · have h3 : k3.mems = n7.mems := by
      rw [eachCh_mems _ (fun _ m => modFront_mems ..), modCore_mems_of _ _ rfl, mems_mk]
    have h4 : k4.mems.wf = true := by
      rw [cause_mems, roleInForce_mems]
      refine restoreTables_wf _ ?_
      rw [tselWritten_mems]
      exact loadRate_wf _ (by rw [h3]; exact h7)
    have h7 : k7.mems = k4.mems := by simp [k7, k6, k5]
    have h12 : k12.mems = k4.mems := by simp only [k12, k11, k10, k9, k8]; split <;> simp [h7]
    have h15 : k15.mems = k4.mems := by simp [k15, k14, k13, h12]
    rw [modCore_mems_of _ _ rfl, mems_mk, raiseAdopted_mems, sendHeld_mems, h15]
    exact h4

end Sys2Proof.Machine
end

section
/-!
PROOFS. Every step keeps the sparse memories in canonical form (95_what_each_step_holds.md).
-/
namespace Sys2Proof.Machine

/-- The next state, where there is one, is well formed. -/
def LeadsToWf (o : Host.Outcome State Fault Refusal) : Prop := ∀ s', o = .next s' → s'.wf = true

theorem upd_leadsToWf {s : State} {f : Node → Node} (h : (f s.node).mems.wf = true) : LeadsToWf (s.upd f) := by
  rintro s' ⟨⟩
  exact h

theorem whenUp_leadsToWf {s : State} (h : s.wf = true) {f : Node → Node} (hf : ∀ m, m.mems.wf = true → (f m).mems.wf = true) :
    LeadsToWf (s.upd fun n => n.whenUp f) := upd_leadsToWf (whenUp_wf f hf s.node h)

theorem whenCellar_leadsToWf {s : State} (h : s.wf = true) {f : Node → Node} (hf : ∀ m, m.mems.wf = true → (f m).mems.wf = true) :
    LeadsToWf (s.upd fun n => n.whenCellar f) := upd_leadsToWf (whenCellar_wf f hf s.node h)

/-- A packet whose command writes a memory. -/
theorem row_leadsToWf {s : State} (h : s.wf = true) (f : PoolOp → Node → Ans × Node)
    (hf : ∀ op m, m.mems.wf = true → (f op m).2.mems.wf = true) (p : Packet) : LeadsToWf (s.upd (Node.packetRow f p)) :=
  upd_leadsToWf (packetRow_wf f hf p s.node h)

/-- A packet whose command touches no memory. -/
theorem row_leadsToWf_of_same {s : State} (h : s.wf = true) (f : PoolOp → Node → Ans × Node) (hf : ∀ op m, (f op m).2.mems = m.mems)
    (p : Packet) : LeadsToWf (s.upd (Node.packetRow f p)) := row_leadsToWf h f (fun op m hm => by rw [hf]; exact hm) p
/-- A frame of the line whose type touches no memory. -/
theorem frame_leadsToWf {s : State} (h : s.wf = true) (hd : FrameHdr) (typ : Byte) (payload : List Byte) (t : Nat)
    (f : Bool → Node → Node) (hf : ∀ ret m, (f ret m).mems = m.mems) :
    LeadsToWf (s.upd fun n => n.whenCellar fun n => (n.atT t).receive hd typ payload f) :=
  whenCellar_leadsToWf h fun m hm => by rw [receive_mems _ _ _ _ _ hf, atT_mems]; exact hm

/-- What a playback does where its slot runs one. -/
@[simp] theorem elim_mems {α : Type} (o : Option α) (f : α → Node) (n : Node) (hf : ∀ x, (f x).mems = n.mems) : (o.elim n f).mems = n.mems := by
  cases o with
  | none => rfl
  | some x => exact hf x

/-! ### The frames of the line and the parts that differ by more than one guard -/

theorem syncFrame_wf (hd : FrameHdr) (x : SyncPayload) (t : Nat) (s : State) (h : s.wf = true) : LeadsToWf (execSyncFrame hd x t s) :=
  whenCellar_leadsToWf h fun m hm => by
    dsimp only
    rw [receive_mems _ _ _ _ _ (fun ret m => by split <;> simp), atT_mems]
    exact hm

theorem syncReturn_wf (hd : FrameHdr) (rtPs t : Nat) (s : State) (h : s.wf = true) : LeadsToWf (execSyncReturn hd rtPs t s) :=
  whenCellar_leadsToWf h fun m hm => by
    dsimp only
    split
    · simpa using hm
    · rw [receive_mems _ _ _ _ _ (fun ret m => by (repeat' split) <;> simp), atT_mems]
      exact hm

theorem cmdFrame_wf (hd : FrameHdr) (payload : List Byte) (t : Nat) (s : State) (h : s.wf = true) :
    LeadsToWf (execCmdFrame hd payload t s) :=
  frame_leadsToWf h _ _ _ _ _ fun ret m => by (repeat' split) <;> simp

theorem mntUnfoldNotice_wf (hd : FrameHdr) (payload : List Byte) (t : Nat) (s : State) (h : s.wf = true) :
    LeadsToWf (execMntUnfoldNotice hd payload t s) :=
  frame_leadsToWf h _ _ _ _ _ fun ret m => by (repeat' split) <;> simp

theorem mntImageBlock_wf (hd : FrameHdr) (payload : List Byte) (t : Nat) (s : State) (h : s.wf = true) :
    LeadsToWf (execMntImageBlock hd payload t s) :=
  frame_leadsToWf h _ _ _ _ _ fun ret m => by (repeat' split) <;> simp

theorem unknownFrame_wf (typ : Byte) (hd : FrameHdr) (payload : List Byte) (t : Nat) (s : State) (h : s.wf = true) :
    LeadsToWf (execUnknownFrame typ hd payload t s) :=
  frame_leadsToWf h _ _ _ _ _ fun ret m => by dsimp only; split <;> simp

theorem cycFrame_wf (hd : FrameHdr) (payload : List Byte) (t : Nat) (s : State) (h : s.wf = true) :
    LeadsToWf (execCycFrame hd payload t s) :=
  whenCellar_leadsToWf h fun m hm => by
    dsimp only
    split
    · simpa using hm
    · rw [mems_ite, modLine_mems, ite_self, receive_mems _ _ _ _ _ (fun ret m => by (repeat' split) <;> simp), atT_mems]
      exact hm

theorem retFrame_wf (hd : FrameHdr) (payload : List Byte) (t : Nat) (s : State) (h : s.wf = true) :
    LeadsToWf (execRetFrame hd payload t s) :=
  frame_leadsToWf h _ _ _ _ _ fun ret m => by dsimp only; (repeat' split) <;> simp

theorem rcFrame_wf (hd : FrameHdr) (payload : List Byte) (t : Nat) (s : State) (h : s.wf = true) :
    LeadsToWf (execRcFrame hd payload t s) :=
  frame_leadsToWf h _ _ _ _ _ fun ret m => by dsimp only; (repeat' split) <;> simp

theorem rcReturn_wf (hd : FrameHdr) (payload : List Byte) (t : Nat) (s : State) (h : s.wf = true) :
    LeadsToWf (execRcReturn hd payload t s) :=
  frame_leadsToWf h _ _ _ _ _ fun ret m => by dsimp only; (repeat' split) <;> simp

theorem rollcallComplete_wf (hd : FrameHdr) (payload : List Byte) (t : Nat) (s : State) (h : s.wf = true) :
    LeadsToWf (execRollcallComplete hd payload t s) :=
  frame_leadsToWf h _ _ _ _ _ fun ret m => by split <;> simp

theorem laneTake_wf (g : LaneHdr) (f : Node → Node) (n : Node) (hf : ∀ m, m.mems.wf = true → (f m).mems.wf = true)
    (h : n.mems.wf = true) : (n.laneTake g f).mems.wf = true := by
  unfold Node.laneTake
  extract_lets got
  split
  · exact h
  · exact hf _ h

/-- A result of the partner: a CASCADE_SET that it ends installs followers. -/
theorem result_wf (g : LaneHdr) (x : RelayResult) (t : Nat) (s : State) (h : s.wf = true) : LeadsToWf (execResult g x t s) :=
  whenUp_leadsToWf h fun m hm => laneTake_wf g _ _ (fun m hm => by split <;> simp [hm]) hm

theorem refSwitch_wf (grpB : Bool) (t : Nat) (s : State) (h : s.wf = true) : LeadsToWf (execRefSwitch grpB t s) :=
  whenUp_leadsToWf h fun m hm => eachCh_keeps (fun m => m.mems.wf = true) _ (fun c m hm => by
    split
    · exact hm
    · dsimp only
      split
      · exact hm
      · simpa using setPar_wf _ _ _ m hm) _ hm

theorem resetnFall_wf (t : Nat) (s : State) (h : s.wf = true) : LeadsToWf (execResetnFall t s) :=
  upd_leadsToWf (whenCellar_wf _ (fun m hm => by simpa using holdCore_wf _ (m.atT t) hm) _ h)
/-! ### The supplies and the reset pins -/

theorem vcelValid_wf (s : State) (h : s.wf = true) : LeadsToWf (execVcelValid s) := by
  have h : s.node.mems.wf = true := h
  exact upd_leadsToWf (by simp [h])

theorem vcelLost_wf (s : State) (h : s.wf = true) : LeadsToWf (execVcelLost s) := by
  have h : s.node.mems.wf = true := h
  exact upd_leadsToWf (by simp [h])

theorem resetnRise_wf (t : Nat) (s : State) (h : s.wf = true) : LeadsToWf (execResetnRise t s) := by
  have h : s.node.mems.wf = true := h
  exact upd_leadsToWf (by simp [h])

theorem cresetnFall_wf (t : Nat) (s : State) (h : s.wf = true) : LeadsToWf (execCresetnFall t s) := by
  have h : s.node.mems.wf = true := h
  exact upd_leadsToWf (by simp [h])

theorem cresetnRise_wf (t : Nat) (s : State) (h : s.wf = true) : LeadsToWf (execCresetnRise t s) := by
  have h : s.node.mems.wf = true := h
  exact upd_leadsToWf (by simp [h])

theorem clrnFall_wf (t : Nat) (s : State) (h : s.wf = true) : LeadsToWf (execClrnFall t s) := by
  have h : s.node.mems.wf = true := h
  exact upd_leadsToWf (by simp [h])

theorem clrnRise_wf (t : Nat) (s : State) (h : s.wf = true) : LeadsToWf (execClrnRise t s) := by
  have h : s.node.mems.wf = true := h
  exact upd_leadsToWf (by simp [h])

/-! ### Every command -/

theorem exec_wf (c : Instr) (s : State) (h : s.wf = true) : LeadsToWf (exec c s) := by
  cases c with
  | ping | openSession | subscribeSet | subscribeAdd | subscribeRemove | subscribeAll | replay | replayList | describe | keySet
  | keySetErase | setModeCask | setModeTrack | setModeDrive | status | clearFaults | tickRealign | paramRead | paramSave
  | readPosition | calibrateAngleLearn | calibrateAngleWrite | calibrateAngleRead | calibrateAngleClear | extrapolatePosAt
  | extrapolatePredict | extrapolateTimeAt | historyRead | moveTo | moveBy | jog | stop | park | loopEnable | loopDisable
  | latchArm | latchArmOff | latchRead | hopAdd | hopRemoveByHandle | hopRemoveByChannel | hopRemoveByOutput | hopList | dacWrite
  | dacStrobe | wavePlay | waveStop | soundRead | zeroFlowCal | rtdRead | fanRead | rollcallSurvey | rollcallAssign | relock
  | adopt | fold | unfold | lineStats | timeRead | faultRead | faultLog | pitchArm | pitchDisarm | refStatus | tickStats
  | fwBlock | fwCommit | fwActivate | storeRead | tandemForm | tandemSplit | tandemStatus =>
    exact row_leadsToWf_of_same h _ (fun op m => by simp) _
  | closeSession | steepRun | paramWrite | tickRateWrite | tickOutatWrite | nodeCaskexcWrite | caskItemWriteExcited
  | posOffsetWrite | dacSrcWrite | dacClrenWrite | dacClrcodeWrite | dacRangeWrite | refTselWrite | lineCycleWrite
  | lineRecordWrite | paramRestore | paramDefaults | setPosition | setLimits | gainSet | cascadeSet | emuSet | dacConfig
  | waveLoadDefine | waveLoadData | waveLoadSeal | waveLoadDelete | soundConfig | fanSet | fwBegin =>
    exact row_leadsToWf h _ (fun op m hm => by simp [hm]) _
  | packetWrite | replyRead | cyclicRead | pwrgood | pwrgoodDrop | syncinEdge | timeStep | syncinRealign | holdoverEnd
  | driftWindowClose | crystalArbiterCheck | timeFallback | watchdogExpiry | steepEnd | sessionTimeout | slewEnd =>
    exact whenCellar_leadsToWf h fun m hm => by dsimp only; (repeat' split) <;> simp [hm]
  | lineWrite | mntWrite | slotsWrite | statusRead | controlWrite | linkGain | linkLoss | laneLinkChange | frameTick
  | outputInstant | cycleStart | steepStepLimit | pllRetry | topologyChange | unfoldCycle | railLimitCrossing =>
    exact whenCellar_leadsToWf h fun m hm => by simp [hm]
  | extest | samplePreload | highz | clamp | bypass | tapReset => exact upd_leadsToWf (tapTo_wf _ _ _ _ h)
  | ldacEdge | latchEdge | indexEdge | hallEdge | tachEdge | tickPacket | beacon | shadowReq | shadowData | formReq | formAns
  | split | relay | event | record | phaseB | housekeeping | tickRateChange | refWindowClose | tjReading | sramScrub | storeScrub
  | autotrack | excitationRampEnd | excitationStop | ssiWord | hopFireKilned | hopFireGreen | hopExpiry | comparePulseEnd
  | firedEntryJudgement | latchEntryReady | faultVerdict | logWriteTimeout | dacShortTimeout | dacOpenTimeout | supplyTimeout
  | moveArrival | stopAtRest | jogVelocityReached | calibrateAngleLearnDone | storeWriteDone | fwCommitChecked | drainEnd
  | soundRoundStart | soundRoundPublish | tachSilent | fanStartJudgementEnd | fanProbeEnd | fanKickEnd | fanPauseEnd
  | fanStoptimeExpiry | ductBlockedTimeout | zeroFlowCalQuiet | zeroFlowCalDone | bulkResend | formAnswerDeadline | fusionReady
  | tandemFusion | cycTimeout | foldTakeEffect | ssiMonoflopTimeout
  | currentLimitChange | complianceChange =>
    exact whenUp_leadsToWf h fun m hm => by simp [hm]
  | trackEntryTimeout | hallInvalidTimeout | hallStopTimeout | faultWindowEnd | emuRateTimeout | timeAtTimeout | beaconSend
  | shadowRefreshDone | adoptionDone | autoAdopt =>
    exact whenUp_leadsToWf h fun m hm => by dsimp only; (repeat' split) <;> simp [hm]
  | carrierPhaseMeasured | acquisitionDone | settleWindowEnd | extrapolateValueReady | timeAtCrossing | partnerLoss
  | splitComplete =>
    exact whenUp_leadsToWf h fun m hm => by (repeat' split) <;> simp [hm]
  | eventWindowEnd =>
    exact whenCellar_leadsToWf h fun m hm => by (repeat' split) <;> simp [hm]
  | vcelValid => exact vcelValid_wf s h
  | vcelLost => exact vcelLost_wf s h
  | cresetnFall t => exact cresetnFall_wf t s h
  | cresetnRise t => exact cresetnRise_wf t s h
  | clrnFall t => exact clrnFall_wf t s h
  | clrnRise t => exact clrnRise_wf t s h
  | resetnRise t => exact resetnRise_wf t s h
  | waveSampleLoad | waveSampleEntry | waveHopStart | waveRunEnd =>
    exact whenUp_leadsToWf h fun m hm => (congrArg Mems.wf (elim_mems _ _ _ fun q => by simp)).trans hm
  | resetnFall t => exact resetnFall_wf _ s h
  | syncFrame hd x t => exact syncFrame_wf _ _ _ s h
  | syncReturn hd rtPs t => exact syncReturn_wf _ _ _ s h
  | cmdFrame hd payload t => exact cmdFrame_wf _ _ _ s h
  | cycFrame hd payload t => exact cycFrame_wf _ _ _ s h
  | retFrame hd payload t => exact retFrame_wf _ _ _ s h
  | rcFrame hd payload t => exact rcFrame_wf _ _ _ s h
  | rcReturn hd payload t => exact rcReturn_wf _ _ _ s h
  | rollcallComplete hd payload t => exact rollcallComplete_wf _ _ _ s h
  | mntUnfoldNotice hd payload t => exact mntUnfoldNotice_wf _ _ _ s h
  | mntImageBlock hd payload t => exact mntImageBlock_wf _ _ _ s h
  | unknownFrame typ hd payload t => exact unknownFrame_wf _ _ _ _ s h
  | result g x t => exact result_wf _ _ _ s h
  | refSwitch grpB t => exact refSwitch_wf _ _ s h

/-- Settles O58: what writes a sparse memory writes it in canonical form, and every other part of a step leaves the memories as
they are. -/
theorem everyStepKeepsTheMemoriesCanonical : Obligations.EveryStepKeepsTheMemoriesCanonical := by
  rintro ⟨n, _ | ⟨c, rest⟩⟩ s' h hs
  · cases hs
    exact h
  · exact exec_wf c ⟨n, rest⟩ h s' hs

end Sys2Proof.Machine
end

section
/-!
PROOFS. The commands that write items (17_opcode_reference.md R571, R576 to R578).
-/
namespace Sys2Proof.Machine

/-- What written items do touches the working set no more. -/
theorem writeItems_params (items : List (Nat × Word)) (n : Node) :
    (n.writeItems items).core.params = n.core.params.putAll items := by
  unfold Node.writeItems
  extract_lets old changed n1 moves n2 n3
  have h1 : n1.mems = n.mems := by rw [eachOf_mems _ (fun _ m => unplug_mems ..)]
  have h2 : n2.core.params = n.core.params.putAll items := by
    have hmoved : (if moves then n1.emuFollowAll else n1).mems = n.mems := by rw [mems_ite, emuFollowAll_mems, ite_self, h1]
    exact congrArg (fun x : Mems => x.1.putAll items) hmoved
  have h3 : n3.mems = n2.mems := by rw [eachOf_mems _ (fun _ m => itemWritten_mems ..)]
  have h4 : (eachCh (fun c m => if items.any fun e => limitOf c e.1 then m.rejudge c else m) n3).mems = n2.mems := by
    rw [eachCh_mems _ (fun _ m => by simp), h3]
  exact (congrArg Prod.fst h4).trans h2

theorem writeJudged_params {items : List (Nat × Word)} {op : PoolOp} {n : Node} (hj : n.judgeItems op.client items = none)
    (hrate : ∀ e ∈ items, e.1 ≠ Pid.tickRate) : (n.writeJudged items op).2.core.params = n.core.params.putAll items := by
  have hfind : items.find? (fun e => e.1 == Pid.tickRate) = none := by
    rw [List.find?_eq_none]
    exact fun e he => by simpa using hrate e he
  have hcommit : n.commitItems op.order items = (true, n.writeItems items) := by rw [Node.commitItems, hfind]
  rw [Node.writeJudged, hj]
  dsimp only
  rw [hcommit, if_pos rfl]
  exact writeItems_params items n

theorem writeOp_params {oc : Opcode} {op : PoolOp} {n : Node} (hj : n.judgeItems op.client (n.opItemsAll oc op.packet) = none) :
    (n.writeOp oc op).2.core.params = n.core.params.putAll (n.opItemsAll oc op.packet) := by
  rw [Node.writeOp, hj]
  exact writeItems_params _ n

/-- A row whose command leaves a working set at its commit leaves that working set. -/
theorem packetRow_params {f : PoolOp → Node → Ans × Node} {p : Packet} {n : Node} (h : n.runsNow p = true) :
    (n.packetRow f p).core.params = (f (n.opFrom p) (n.atCommit p)).2.core.params :=
  congrArg Prod.fst (packetRow_sameBut f p n h).mems

theorem atCommit_params {p : Packet} {n : Node} (h : n.runsNow p = true) : (n.atCommit p).core.params = n.core.params :=
  congrArg Prod.fst (mems_of_same (body_core (atCommit_spec p n h).1) (body_store (atCommit_spec p n h).1))

theorem paramWrite_params {p : Packet} {n : Node} (h : n.runsNow p = true)
    (hj : (n.atCommit p).judgeItems (senderOf p) (n.localItems p) = none) (hrate : ∀ e ∈ n.localItems p, e.1 ≠ Pid.tickRate) :
    (n.packetRow cmdParamWrite p).core.params = n.core.params.putAll (n.localItems p) := by
  obtain ⟨_, hr⟩ := runsNow_spec p n h
  have hitems : (n.atCommit p).localItems p = n.localItems p := atCommit_reads (fun n => n.localItems p) (fun _ => rfl) p n h
  rw [packetRow_params h, cmdParamWrite, hr.packet, hitems, writeJudged_params (by rw [hr.client]; exact hj) hrate, atCommit_params h]

theorem writeOpRow_params {oc : Opcode} {p : Packet} {n : Node} (h : n.runsNow p = true)
    (hj : (n.atCommit p).judgeItems (senderOf p) (n.opItemsAll oc p) = none) :
    (n.packetRow (fun op m => m.writeOp oc op) p).core.params = n.core.params.putAll (n.opItemsAll oc p) := by
  obtain ⟨_, hr⟩ := runsNow_spec p n h
  have hitems : (n.atCommit p).opItemsAll oc p = n.opItemsAll oc p := atCommit_reads (fun n => n.opItemsAll oc p) (fun _ => rfl) p n h
  rw [packetRow_params h, writeOp_params (by rw [hr.packet, hr.client, hitems]; exact hj), hr.packet, hitems, atCommit_params h]

/-- Settles O17: a row that writes its packet's items is PARAM_WRITE of them, and a row of single items writes those of its opcode; what
the items do leaves the working set alone. -/
theorem itemWritesChangeTheWorkingSet : Obligations.ItemWritesChangeTheWorkingSet := by
  refine fun s p item r ch v => ⟨fun w hw h hj hrate => ?listed, fun w hw h hj => ?single⟩
  case listed =>
    have heffect : exec w.1 s = s.upd (Node.packetRow cmdParamWrite w.2) := by
      simp only [List.mem_cons, List.not_mem_nil, or_false] at hw
      obtain rfl | rfl | rfl | rfl | rfl | rfl | rfl | rfl | rfl | rfl | rfl | rfl | rfl := hw <;> rfl
    have hsender : senderOf w.2 = senderOf p := by
      simp only [List.mem_cons, List.not_mem_nil, or_false] at hw
      obtain rfl | rfl | rfl | rfl | rfl | rfl | rfl | rfl | rfl | rfl | rfl | rfl | rfl := hw <;> rfl
    exact ⟨_, heffect, paramWrite_params h (by rw [hsender]; exact hj) hrate⟩
  case single =>
    have heffect : exec w.1 s = s.upd (Node.packetRow (fun op m => m.writeOp w.2.2 op) w.2.1) := by
      simp only [List.mem_cons, List.not_mem_nil, or_false] at hw
      obtain rfl | rfl | rfl | rfl := hw <;> rfl
    have hsender : senderOf w.2.1 = senderOf p := by
      simp only [List.mem_cons, List.not_mem_nil, or_false] at hw
      obtain rfl | rfl | rfl | rfl := hw <;> rfl
    exact ⟨_, heffect, writeOpRow_params h (by rw [hsender]; exact hj)⟩

end Sys2Proof.Machine
end

section
/-!
PROOFS. The commands of the fault manager and the pitch points (15_faults_and_pitch_points.md R508, R518, R519, R530 to R532).
-/
namespace Sys2Proof.Machine

/-! ### The instances -/

/-- An occurrence is no change of the instances. -/
@[simp] theorem occur_insts (f : FaultCode) (sc : Nat) (k : OccKind) (cls : Nat) (r i : Bool) (x : Word) (n : Node) :
    (n.occur f sc k cls r i x).core.faults.insts = n.core.faults.insts := by
  unfold Node.occur Node.formFault
  split <;> simp [event_core]

theorem clearInst_insts (i : FaultInst) (n : Node) :
    (n.clearInst i).core.faults.insts = n.core.faults.insts.filter fun j => !(j.code == i.code && j.scope == i.scope) := by
  simp [Node.clearInst]

@[simp] theorem setMark_core (m : TimeMark) (n : Node) : (n.setMark m).core = n.core := by
  unfold Node.setMark
  split
  · rfl
  · exact event_core _ _ _ _ _

@[simp] theorem correct_core (off : Int) (n : Node) : (n.correct off).core = n.core := by
  unfold Node.correct
  split <;> rfl

@[simp] theorem followLine_core (off : Int) (n : Node) : (n.followLine off).core = n.core := by
  unfold Node.followLine
  dsimp only
  split
  · rfl
  · split
    · rfl
    · exact correct_core _ _
    · split <;> simp

/-- The fans held off are freed, and nothing else changes. -/
theorem freeHeld_fansOf (n : Node) : n.freeHeld.FansOf n :=
  eachFan_fansOf _ (fun b m => by
    split
    · exact (fanRefresh_fansOf b _).trans (modFan_fansOf b _ m)
    · exact .refl m) n

/-- What follows a clearing is no change of the fault manager. -/
theorem afterClear_faults (i : FaultInst) (n : Node) : (n.afterClear i).core.faults = n.core.faults := by
  unfold Node.afterClear
  split
  · rfl
  · unfold Node.shortOn
    split <;> rfl
  · exact (freeHeld_fansOf n).reads (fun n => n.core.faults) fun _ _ => rfl
  · unfold Node.leaveFallback
    dsimp only
    split
    · split <;> simp
    · rfl
  · rfl

theorem eachOf_cons {α : Type} (x : α) (xs : List α) (f : α → Node → Node) (n : Node) : eachOf (x :: xs) f n = eachOf xs f (f x n) := rfl

/-- Cleared instances go, and the others stay. -/
theorem eachOf_clear_insts (gone : List FaultInst) (n : Node) :
    (eachOf gone (fun i m => (m.clearInst i).afterClear i) n).core.faults.insts =
      n.core.faults.insts.filter fun j => !(gone.any fun i => j.code == i.code && j.scope == i.scope) := by
  induction gone generalizing n with
  | nil => simp [eachOf]
  | cons i is ih =>
    rw [eachOf_cons, ih, afterClear_faults, clearInst_insts, List.filter_filter]
    refine List.filter_congr fun j _ => ?_
    rw [List.any_cons, Bool.not_or, Bool.and_comm]

theorem packetRow_faults {f : PoolOp → Node → Ans × Node} {p : Packet} {n : Node} (h : n.runsNow p = true) :
    (n.packetRow f p).core.faults = (f (n.opFrom p) (n.atCommit p)).2.core.faults := by
  have hcore := congrArg Core.faults (packetRow_sameBut f p n h).core
  exact hcore

theorem atCommit_faults {p : Packet} {n : Node} (h : n.runsNow p = true) : (n.atCommit p).core.faults = n.core.faults :=
  atCommit_reads (fun n => n.core.faults) (fun _ => rfl) p n h

theorem effect_clearFaults {s : State} {p : Packet} (h : s.node.runsNow (asRow .clearFaults p) = true) :
    (s.node.packetRow cmdClearFaults (asRow .clearFaults p)).core.faults.insts =
      s.node.core.faults.insts.filter fun j =>
        !((s.node.core.faults.insts.filter fun i => s.node.clearIncludes (asRow .clearFaults p) i && s.node.clearable i).any
          fun i => j.code == i.code && j.scope == i.scope) := by
  obtain ⟨_, hr⟩ := runsNow_spec _ _ h
  have hinc : (s.node.atCommit (asRow .clearFaults p)).clearIncludes (asRow .clearFaults p) = s.node.clearIncludes (asRow .clearFaults p) :=
    atCommit_reads (fun n => n.clearIncludes (asRow .clearFaults p)) (fun _ => rfl) _ _ h
  have hclear : (s.node.atCommit (asRow .clearFaults p)).clearable = s.node.clearable :=
    atCommit_reads Node.clearable (fun _ => rfl) _ _ h
  rw [packetRow_faults h, cmdClearFaults]
  dsimp only
  rw [eachOf_clear_insts, atCommit_faults h, hr.packet, hinc, hclear, List.filter_filter]
  simp only [Bool.and_comm]

/-! ### Pitch points -/

theorem freeHandle_spec {n : Node} {k : Nat} (h : n.freeHandle = some k) : k < 8 ∧ ∀ y ∈ n.core.faults.points, y.handle ≠ k := by
  have hfree := List.find?_some h
  obtain ⟨i, -, rfl⟩ := List.mem_map.mp (List.mem_of_find?_eq_some h)
  refine ⟨Nat.mod_lt _ (by decide), fun y hy he => ?_⟩
  have hany : (n.core.faults.points.any fun p => p.handle == (Config.handlePick n.core.nextOrder + i) % 8) = true :=
    List.any_eq_true.mpr ⟨y, hy, by simpa using he⟩
  simp [hany] at hfree

/-- Of eight handles one is free where fewer than eight points stand (R530): else each of the eight would be some point's. -/
theorem exists_freeHandle {n : Node} (h : n.core.faults.points.length < 8) : ∃ k, n.freeHandle = some k := by
  rw [← Option.isSome_iff_exists, ← Option.ne_none_iff_isSome]
  intro hnone
  have hall := List.find?_eq_none.mp hnone
  have hsub : List.range 8 ⊆ n.core.faults.points.map PitchPoint.handle := by
    intro k hk
    have hk8 : k < 8 := List.mem_range.mp hk
    have htaken := hall k (List.mem_map.mpr ⟨(k + 8 - Config.handlePick n.core.nextOrder % 8) % 8, List.mem_range.mpr (Nat.mod_lt _ (by decide)),
      by omega⟩)
    simp only [Bool.not_eq_true', Bool.not_eq_false, List.any_eq_true, beq_iff_eq] at htaken
    obtain ⟨x, hx, rfl⟩ := htaken
    exact List.mem_map_of_mem hx
  have hlen := (List.nodup_range.subperm hsub).length_le
  rw [List.length_range, List.length_map] at hlen
  omega

/-- The point that PITCH_ARM arms (R530, R531). -/
def Node.newPoint (n : Node) (p : Packet) (f : FaultCode) (handle : Nat) : PitchPoint :=
  { handle := handle, code := f, scope := n.localScope f (fld (pw p 0) 23 16), count := fld (pw p 1) 15 0
    left := match fld (pw p 0) 25 24 with
      | 0 => some 1
      | 1 => some (fld (pw p 1) 15 0)
      | _ => none
    due := wrapK (n.time.k48 + fld (pw p 1) 39 16) }

theorem newPoint_left (n : Node) (p : Packet) (f : FaultCode) (k : Nat) : (n.newPoint p f k).left =
    if fld (pw p 0) 25 24 = 0 then some 1 else if fld (pw p 0) 25 24 = 1 then some (fld (pw p 1) 15 0) else none := by
  unfold Node.newPoint
  dsimp only
  split
  next h0 => rw [if_pos h0]
  next h1 => rw [h1, if_neg (by decide), if_pos rfl]
  next h0 h1 => rw [if_neg h0, if_neg h1]

theorem cmdPitchArm_arms {op : PoolOp} {n : Node} {f : FaultCode} {k : Nat} (hf : FaultCode.ofCode (fld (pw op.packet 0) 15 0) = some f)
    (hk : n.freeHandle = some k) (happlies : n.pitchApplies f (n.localScope f (fld (pw op.packet 0) 23 16)) = true)
    (hnew : ∀ x ∈ n.core.faults.points, ¬(x.code = f ∧ x.scope = n.localScope f (fld (pw op.packet 0) 23 16))) :
    cmdPitchArm op n =
      (.ok [wN k], n.modFaults fun z => { z with points := z.points ++ [n.newPoint op.packet f k] }) := by
  have hany : n.core.faults.points.any (fun q => q.code == f && q.scope == n.localScope f (fld (pw op.packet 0) 23 16)) = false := by
    rw [List.any_eq_false]
    intro x hx
    simpa using hnew x hx
  rw [cmdPitchArm]
  simp only [hf, hk, happlies, hany]
  rfl

/-- Settles O25: CLEAR_FAULTS takes out the included instances one by one; FAULT_READ and FAULT_LOG only read; the handle of a new
point is a free one of the eight (log entry 14). -/
theorem faultCommands : Obligations.FaultCommands := by
  refine ⟨fun s p h => ⟨_, rfl, effect_clearFaults h⟩, fun s p h => ⟨_, rfl, ?read⟩, fun s p h => ⟨_, rfl, ?log⟩,
    fun s p f h hf hroom happlies hnew => ⟨_, rfl, ?arm⟩, fun s p h => ⟨_, rfl, ?disarm⟩⟩
  case read =>
    refine answersWith_reader cmdFaultRead _ s.node h _ _ _ ?_ (notAccepted _ _ _ h (opcodeOf_asRow _ _) rfl)
    rw [cmdFaultRead, atCommit_faults h]
  case log =>
    obtain ⟨_, hr⟩ := runsNow_spec _ _ h
    refine answersWith_reader cmdFaultLog _ s.node h _ _ _ ?_ (notAccepted _ _ _ h (opcodeOf_asRow _ _) rfl)
    have hlog : (s.node.atCommit (asRow .faultLog p)).store = s.node.store := body_store (atCommit_spec _ _ h).1
    rw [cmdFaultLog, hr.packet, hlog]
    rfl
  case arm =>
    obtain ⟨_, hr⟩ := runsNow_spec _ _ h
    have hfaults := atCommit_faults h
    have hscope : (s.node.atCommit (asRow .pitchArm p)).localScope = s.node.localScope := atCommit_reads Node.localScope (fun _ => rfl) _ _ h
    have htime : (s.node.atCommit (asRow .pitchArm p)).time = s.node.time := (atCommit_spec _ _ h).2.1
    have hpoint : (s.node.atCommit (asRow .pitchArm p)).newPoint (asRow .pitchArm p) f = s.node.newPoint (asRow .pitchArm p) f := by
      funext k
      rw [Node.newPoint, Node.newPoint, hscope, htime]
    obtain ⟨k, hk⟩ := exists_freeHandle (n := s.node.atCommit (asRow .pitchArm p)) (by rw [hfaults]; exact hroom)
    have hcmd := cmdPitchArm_arms (op := s.node.opFrom (asRow .pitchArm p)) (f := f) (by rw [hr.packet]; exact hf) hk
      (by
        rw [hr.packet, hscope, atCommit_reads Node.pitchApplies (fun _ => rfl) _ _ h]
        exact happlies)
      (by rw [hr.packet, hscope, hfaults]; exact hnew)
    rw [hr.packet, hpoint] at hcmd
    obtain ⟨hk8, hfree⟩ := freeHandle_spec hk
    rw [hfaults] at hfree
    refine ⟨s.node.newPoint (asRow .pitchArm p) f k, packetRow_replies h hcmd rfl, ?_, hk8, hfree, rfl, rfl, rfl, newPoint_left ..⟩
    rw [packetRow_faults h, hcmd, modFaults_core, hfaults]
  case disarm =>
    obtain ⟨_, hr⟩ := runsNow_spec _ _ h
    have hcmd : cmdPitchDisarm (s.node.opFrom (asRow .pitchDisarm p)) (s.node.atCommit (asRow .pitchDisarm p)) =
        (.ok [wN (s.node.core.faults.points.filter fun x => bitOf (pw p 0) 3 || x.handle == fld (pw p 0) 2 0).length],
          (s.node.atCommit (asRow .pitchDisarm p)).modFaults fun z =>
            { z with points := z.points.filter fun x => !(bitOf (pw p 0) 3 || x.handle == fld (pw p 0) 2 0) }) := by
      rw [cmdPitchDisarm, hr.packet, atCommit_faults h]
      rfl
    refine ⟨?_, packetRow_replies h hcmd rfl⟩
    rw [packetRow_faults h, hcmd, modFaults_core, atCommit_faults h]

end Sys2Proof.Machine
end

section
namespace Sys2Proof.Machine
/-! ### The waiting verdicts -/

/-- How many verdicts wait for the fault manager (R502). -/
def Node.waitingVerdicts (n : Node) : Nat := n.core.faults.verdicts.length

theorem verdicts_of_none {m n : Node} (h : m.waitingVerdicts = n.waitingVerdicts) (hn : n.core.faults.verdicts = []) :
    m.core.faults.verdicts = [] := by
  rw [Node.waitingVerdicts, Node.waitingVerdicts, hn] at h
  exact List.length_eq_zero_iff.mp h

@[simp] theorem waitingVerdicts_ite {b : Prop} [Decidable b] (m n : Node) :
    (if b then m else n).waitingVerdicts = if b then m.waitingVerdicts else n.waitingVerdicts := apply_ite Node.waitingVerdicts b m n

theorem Node.SameBut.waitingVerdicts {m n : Node} (h : m.SameBut n) : m.waitingVerdicts = n.waitingVerdicts := by
  have := congrArg (fun k : Core => k.faults.verdicts.length) h.core
  exact this

/-- A change of the core that keeps the waiting verdicts. -/
@[simp] theorem modCore_waitingVerdicts (f : Core → Core) (n : Node) (h : (f n.core).faults.verdicts.length = n.core.faults.verdicts.length) :
    (n.modCore f).waitingVerdicts = n.waitingVerdicts := h

@[simp] theorem modFaults_waitingVerdicts (f : Faults → Faults) (n : Node) (h : (f n.core.faults).verdicts.length = n.core.faults.verdicts.length) :
    (n.modFaults f).waitingVerdicts = n.waitingVerdicts := h

@[simp] theorem modLine_waitingVerdicts (f : Line → Line) (n : Node) : (n.modLine f).waitingVerdicts = n.waitingVerdicts := (rfl)
@[simp] theorem modLane_waitingVerdicts (f : Lane → Lane) (n : Node) : (n.modLane f).waitingVerdicts = n.waitingVerdicts := (rfl)
@[simp] theorem modHost_waitingVerdicts (f : HostPort → HostPort) (n : Node) : (n.modHost f).waitingVerdicts = n.waitingVerdicts := (rfl)
@[simp] theorem modTime_waitingVerdicts (f : TimeBase → TimeBase) (n : Node) : (n.modTime f).waitingVerdicts = n.waitingVerdicts := (rfl)
@[simp] theorem modStore_waitingVerdicts (f : Store → Store) (n : Node) : (n.modStore f).waitingVerdicts = n.waitingVerdicts := (rfl)
@[simp] theorem modWaves_waitingVerdicts (f : Waves → Waves) (n : Node) : (n.modWaves f).waitingVerdicts = n.waitingVerdicts := (rfl)
@[simp] theorem modSound_waitingVerdicts (f : Sound → Sound) (n : Node) : (n.modSound f).waitingVerdicts = n.waitingVerdicts := (rfl)
@[simp] theorem modFront_waitingVerdicts (c : Ch) (f : Front → Front) (n : Node) : (n.modFront c f).waitingVerdicts = n.waitingVerdicts := (rfl)
@[simp] theorem modPos_waitingVerdicts (c : Ch) (f : Pos → Pos) (n : Node) : (n.modPos c f).waitingVerdicts = n.waitingVerdicts := (rfl)
@[simp] theorem modSlot_waitingVerdicts (c : Ch) (f : Slot → Slot) (n : Node) : (n.modSlot c f).waitingVerdicts = n.waitingVerdicts := (rfl)
@[simp] theorem modOut_waitingVerdicts (c : Ch) (f : AOut → AOut) (n : Node) : (n.modOut c f).waitingVerdicts = n.waitingVerdicts := (rfl)
@[simp] theorem modFan_waitingVerdicts (b : Bool) (f : FanState → FanState) (n : Node) : (n.modFan b f).waitingVerdicts = n.waitingVerdicts := (rfl)
@[simp] theorem setClient_waitingVerdicts (r : ClientRec) (n : Node) : (n.setClient r).waitingVerdicts = n.waitingVerdicts :=
  (setClient_sameBut r n).waitingVerdicts

@[simp] theorem eachOf_waitingVerdicts {α : Type} (f : α → Node → Node) (hf : ∀ x m, (f x m).waitingVerdicts = m.waitingVerdicts) (xs : List α)
    (n : Node) : (eachOf xs f n).waitingVerdicts = n.waitingVerdicts := eachOf_part Node.waitingVerdicts f hf xs n

@[simp] theorem eachCh_waitingVerdicts (f : Ch → Node → Node) (hf : ∀ c m, (f c m).waitingVerdicts = m.waitingVerdicts) (n : Node) :
    (eachCh f n).waitingVerdicts = n.waitingVerdicts := eachCh_part Node.waitingVerdicts f hf n

@[simp] theorem eachFan_waitingVerdicts (f : Bool → Node → Node) (hf : ∀ b m, (f b m).waitingVerdicts = m.waitingVerdicts) (n : Node) :
    (eachFan f n).waitingVerdicts = n.waitingVerdicts := by simp only [eachFan, hf]

/-- A node whose core is another's has its waiting verdicts. -/
@[simp] theorem waitingVerdicts_mk (p t c s k st ss h sto r hd a sw l la f) (m : Node) :
    (Node.mk p t c s k st ss h sto r hd a sw l la m.core f).waitingVerdicts = m.waitingVerdicts := rfl

@[simp] theorem emit_waitingVerdicts (d : Client) (isEvent : Bool) (p : ReplyPkt) (n : Node) : (n.emit d isEvent p).waitingVerdicts = n.waitingVerdicts := by simp [Node.emit]

@[simp] theorem emitAll_waitingVerdicts (d : Client) (ps : List ReplyPkt) (n : Node) : (n.emitAll d ps).waitingVerdicts = n.waitingVerdicts := by simp [Node.emitAll]

@[simp] theorem cacheReply_waitingVerdicts (c : Client) (tag : BitVec 12) (ps : List ReplyPkt) (n : Node) : (n.cacheReply c tag ps).waitingVerdicts = n.waitingVerdicts := by simp [Node.cacheReply]

@[simp] theorem finish_waitingVerdicts (p : Packet) (s : Status) (chunks : List (List Word)) (green : Bool) (tick : Nat) (n : Node) : (n.finish p s chunks green tick).waitingVerdicts = n.waitingVerdicts := by simp [Node.finish]

@[simp] theorem accepted_waitingVerdicts (p : Packet) (due : Nat) (n : Node) : (n.accepted p due).waitingVerdicts = n.waitingVerdicts := by simp [Node.accepted]

@[simp] theorem laneSend_waitingVerdicts (p : LinePort) (m : LaneMsg) (n : Node) : (n.laneSend p m).waitingVerdicts = n.waitingVerdicts := (rfl)

@[simp] theorem dropOp_waitingVerdicts (o : Nat) (n : Node) : (n.dropOp o).waitingVerdicts = n.waitingVerdicts := (rfl)

@[simp] theorem endOp_waitingVerdicts (op : PoolOp) (s : Status) (chunks : List (List Word)) (green : Bool) (n : Node) : (n.endOp op s chunks green).waitingVerdicts = n.waitingVerdicts := by
  unfold Node.endOp
  split <;> simp

@[simp] theorem deliver_waitingVerdicts (op : PoolOp) (a : Ans) (n : Node) : (n.deliver op a).waitingVerdicts = n.waitingVerdicts := by
  unfold Node.deliver
  split <;> simp

@[simp] theorem endOrder_waitingVerdicts (o : Nat) (s : Status) (ws : List Word) (n : Node) : (n.endOrder o s ws).waitingVerdicts = n.waitingVerdicts := by
  unfold Node.endOrder
  split <;> simp

@[simp] theorem endOpt_waitingVerdicts (o : Option Nat) (s : Status) (ws : List Word) (n : Node) : (n.endOpt o s ws).waitingVerdicts = n.waitingVerdicts := by
  unfold Node.endOpt
  split <;> simp

@[simp] theorem endMotion_waitingVerdicts (c : Ch) (st : Status) (n : Node) : (n.endMotion c st).waitingVerdicts = n.waitingVerdicts := by
  unfold Node.endMotion
  split <;> simp

@[simp] theorem eventTo_waitingVerdicts (ev : EventCode) (scope : Nat) (st : Stamp) (ws : List Word) (r : ClientRec) (n : Node) : (n.eventTo ev scope st ws r).waitingVerdicts = n.waitingVerdicts := by simp [Node.eventTo]

@[simp] theorem event_waitingVerdicts (ev : EventCode) (scope : Nat) (st : Stamp) (ws : List Word) (n : Node) : (n.event ev scope st ws).waitingVerdicts = n.waitingVerdicts := by simp [Node.event]

@[simp] theorem dropHop_waitingVerdicts (h : HopEntry) (n : Node) : (n.dropHop h).waitingVerdicts = n.waitingVerdicts := (rfl)

@[simp] theorem hopEnd_waitingVerdicts (h : HopEntry) (reason : Nat) (ignored : Bool) (tx : Option Stamp) (n : Node) : (n.hopEnd h reason ignored tx).waitingVerdicts = n.waitingVerdicts := by simp [Node.hopEnd]

@[simp] theorem abortArm_waitingVerdicts (c : Ch) (b : Bool) (n : Node) : (n.abortArm c b).waitingVerdicts = n.waitingVerdicts := by
  unfold Node.abortArm
  split <;> simp

@[simp] theorem waveEnd_waitingVerdicts (p : Playback) (reason : Nat) (n : Node) : (n.waveEnd p reason).waitingVerdicts = n.waitingVerdicts := by simp [Node.waveEnd]

@[simp] theorem endPlay_waitingVerdicts (p : Playback) (s : Status) (reason : Nat) (n : Node) : (n.endPlay p s reason).waitingVerdicts = n.waitingVerdicts := by simp [Node.endPlay]

@[simp] theorem clearArmed_waitingVerdicts (n : Node) : n.clearArmed.waitingVerdicts = n.waitingVerdicts := by simp [Node.clearArmed]

@[simp] theorem formFault_waitingVerdicts (w : FaultWindow) (count : Nat) (n : Node) : (n.formFault w count).waitingVerdicts = n.waitingVerdicts := by simp [Node.formFault]

@[simp] theorem occur_waitingVerdicts (f : FaultCode) (scope : Nat) (kind : OccKind) (cls : Nat) (raised injected : Bool) (ctx : Word) (n : Node) : (n.occur f scope kind cls raised injected ctx).waitingVerdicts = n.waitingVerdicts := by
  unfold Node.occur
  split <;> simp

@[simp] theorem cease_waitingVerdicts (f : FaultCode) (scope : Nat) (n : Node) : (n.cease f scope).waitingVerdicts = n.waitingVerdicts := by
  unfold Node.cease
  dsimp only
  split <;> simp

@[simp] theorem slotOff_waitingVerdicts (c : Ch) (n : Node) : (n.slotOff c).waitingVerdicts = n.waitingVerdicts := by simp [Node.slotOff]

@[simp] theorem loopsOff_waitingVerdicts (n : Node) : n.loopsOff.waitingVerdicts = n.waitingVerdicts := by simp [Node.loopsOff]

@[simp] theorem abandonMotion_waitingVerdicts (n : Node) : n.abandonMotion.waitingVerdicts = n.waitingVerdicts := by
  unfold Node.abandonMotion
  dsimp only
  split <;> simp

@[simp] theorem endForming_waitingVerdicts (s : Status) (n : Node) : (n.endForming s).waitingVerdicts = n.waitingVerdicts := by simp [Node.endForming]

@[simp] theorem supervise_waitingVerdicts (b : Bool) (n : Node) : (n.supervise b).waitingVerdicts = n.waitingVerdicts := by
  unfold Node.supervise
  dsimp only
  split <;> simp

@[simp] theorem fanRefresh_waitingVerdicts (b : Bool) (n : Node) : (n.fanRefresh b).waitingVerdicts = n.waitingVerdicts := by simp [Node.fanRefresh]

@[simp] theorem fansRefresh_waitingVerdicts (n : Node) : n.fansRefresh.waitingVerdicts = n.waitingVerdicts := by simp [Node.fansRefresh]

@[simp] theorem calEnd_waitingVerdicts (st : Status) (ws : List Word) (n : Node) : (n.calEnd st ws).waitingVerdicts = n.waitingVerdicts := by
  unfold Node.calEnd
  split <;> simp

@[simp] theorem calAbort_waitingVerdicts (n : Node) : n.calAbort.waitingVerdicts = n.waitingVerdicts := by simp [Node.calAbort]

@[simp] theorem leaveGroup_waitingVerdicts (c : Ch) (n : Node) : (n.leaveGroup c).waitingVerdicts = n.waitingVerdicts := by
  unfold Node.leaveGroup
  split <;> simp

@[simp] theorem disable_waitingVerdicts (c : Ch) (n : Node) : (n.disable c).waitingVerdicts = n.waitingVerdicts := by simp [Node.disable]

@[simp] theorem restDone_waitingVerdicts (w : RestWait) (n : Node) : (n.restDone w).waitingVerdicts = n.waitingVerdicts := by
  unfold Node.restDone
  split <;> simp

@[simp] theorem settleRests_waitingVerdicts (n : Node) : n.settleRests.waitingVerdicts = n.waitingVerdicts := by simp [Node.settleRests]

@[simp] theorem ceaseAll_waitingVerdicts (fs : List FaultCode) (scope : Nat) (n : Node) : (n.ceaseAll fs scope).waitingVerdicts = n.waitingVerdicts := by simp [Node.ceaseAll]

@[simp] theorem readyLatches_waitingVerdicts (c : Ch) (n : Node) : (n.readyLatches c).waitingVerdicts = n.waitingVerdicts := by simp [Node.readyLatches]

@[simp] theorem refutedEvent_waitingVerdicts (c : Ch) (w : EvWindow) (count : Nat) (n : Node) : (n.refutedEvent c w count).waitingVerdicts = n.waitingVerdicts := by simp [Node.refutedEvent]

@[simp] theorem refute_waitingVerdicts (c : Ch) (r : Int) (origin : Nat) (st : Stamp) (catchUp : Int) (n : Node) : (n.refute c r origin st catchUp).waitingVerdicts = n.waitingVerdicts := by
  unfold Node.refute
  split <;> simp

@[simp] theorem judgeFired_waitingVerdicts (handle : Nat) (n : Node) : (n.judgeFired handle).waitingVerdicts = n.waitingVerdicts := by
  unfold Node.judgeFired
  (repeat' split) <;> simp

@[simp] theorem unconfirmedEvent_waitingVerdicts (f : FiredEntry) (n : Node) : (n.unconfirmedEvent f).waitingVerdicts = n.waitingVerdicts := by simp [Node.unconfirmedEvent]

@[simp] theorem unconfirmed_waitingVerdicts (c : Ch) (n : Node) : (n.unconfirmed c).waitingVerdicts = n.waitingVerdicts := by simp [Node.unconfirmed]

@[simp] theorem endExtrap_waitingVerdicts (w : ExtrapWait) (ws : List Word) (n : Node) : (n.endExtrap w ws).waitingVerdicts = n.waitingVerdicts := by
  unfold Node.endExtrap
  dsimp only
  split <;> simp

@[simp] theorem valueReady_waitingVerdicts (w : ExtrapWait) (n : Node) : (n.valueReady w).waitingVerdicts = n.waitingVerdicts := by
  unfold Node.valueReady
  split <;> simp

@[simp] theorem stopWait_waitingVerdicts (w : ExtrapWait) (n : Node) : (n.stopWait w).waitingVerdicts = n.waitingVerdicts := by simp [Node.stopWait]

@[simp] theorem extrapolateStop_waitingVerdicts (c : Ch) (n : Node) : (n.extrapolateStop c).waitingVerdicts = n.waitingVerdicts := by simp [Node.extrapolateStop]

@[simp] theorem posStop_waitingVerdicts (c : Ch) (n : Node) : (n.posStop c).waitingVerdicts = n.waitingVerdicts := by simp [Node.posStop]

@[simp] theorem stopTracking_waitingVerdicts (c : Ch) (n : Node) : (n.stopTracking c).waitingVerdicts = n.waitingVerdicts := by
  unfold Node.stopTracking
  dsimp only
  (repeat' split) <;> simp

@[simp] theorem stopChannel_waitingVerdicts (c : Ch) (n : Node) : (n.stopChannel c).waitingVerdicts = n.waitingVerdicts := by
  unfold Node.stopChannel
  split <;> simp

@[simp] theorem endPairOps_waitingVerdicts (n : Node) : n.endPairOps.waitingVerdicts = n.waitingVerdicts := by
  unfold Node.endPairOps
  dsimp only
  rw [eachOf_waitingVerdicts _ (fun h m => event_waitingVerdicts _ _ _ _ m), modFaults_waitingVerdicts _ _ rfl, modLane_waitingVerdicts,
    eachOf_waitingVerdicts _ (fun o m => by split <;> simp), eachOf_waitingVerdicts _ (fun o m => endOp_waitingVerdicts _ _ _ _ m),
    modCore_waitingVerdicts _ _ rfl]

@[simp] theorem dissolveSpanning_waitingVerdicts (n : Node) : n.dissolveSpanning.waitingVerdicts = n.waitingVerdicts :=
  eachCh_waitingVerdicts _ (fun c m => by dsimp only; split <;> simp) n

@[simp] theorem caskPair_waitingVerdicts (n : Node) : n.caskPair.waitingVerdicts = n.waitingVerdicts := by simp [Node.caskPair]
@[simp] theorem caskEntry_waitingVerdicts (n : Node) : n.caskEntry.waitingVerdicts = n.waitingVerdicts := by simp [Node.caskEntry]

@[simp] theorem raise_waitingVerdicts (v : Verdict) (n : Node) : (n.raise v).2.waitingVerdicts = n.waitingVerdicts := by
  unfold Node.raise
  dsimp only
  split
  · split <;> simp
  · simp [Node.modInst]
/-! ### One waiting verdict -/

/-- The node to which the one waiting verdict has been handed (R500, R512). -/
def Node.handed (v : Verdict) (n : Node) : Node := ((n.modFaults fun x => { x with verdicts := [] }).raise v).2

/-- A verdict that is no note, where none of its instances stands, makes one (R500). -/
theorem raise_new {v : Verdict} {n : Node} (hi : n.inst v.code v.scope = none) (hc : v.cls ≠ 0) :
    n.raise v = (true, (n.modFaults fun x => { x with insts := x.insts ++
      [{ code := v.code, scope := v.scope, cls := v.cls, present := true
         reached := decide (v.cls = 2) && !(n.reach v.code v.scope v.ctx).isEmpty, injected := v.injected, raised := n.stamp, ctx := v.ctx }] }).occur
          v.code v.scope .raise v.cls false v.injected v.ctx) := by
  rw [Node.raise, hi]
  dsimp only
  rw [if_neg hc]

/-- The strongest action of a list runs on a channel (R510). -/
def Node.actOn (acts : List (Ch × ClassAction)) (c : Ch) (n : Node) : Node :=
  match strongest c acts with
  | some a => n.runAction c a
  | none => n

/-- A change of each channel that is one of channel `c` alone. -/
theorem eachCh_single {f : Ch → Node → Node} {c : Ch} (h : ∀ d m, d ≠ c → f d m = m) (n : Node) : eachCh f n = f c n := by
  show f 3 (f 2 (f 1 (f 0 n))) = f c n
  match c with
  | 0 => rw [h 1 _ (by decide), h 2 _ (by decide), h 3 _ (by decide)]
  | 1 => rw [h 0 _ (by decide), h 2 _ (by decide), h 3 _ (by decide)]
  | 2 => rw [h 0 _ (by decide), h 1 _ (by decide), h 3 _ (by decide)]
  | 3 => rw [h 0 _ (by decide), h 1 _ (by decide), h 2 _ (by decide)]

/-- One PARK parks the running slot it is for, and is nothing to the others (R504). -/
theorem eachCh_actOn_park {c : Ch} {n : Node} (h : n.slotRunning c = true) : eachCh (Node.actOn [(c, .park)]) n = n.parkSlot c := by
  have hother : ∀ d m, d ≠ c → Node.actOn [(c, .park)] d m = m := fun d m hd => by
    have hnone : ∀ c d : Ch, d ≠ c → strongest d [(c, .park)] = none := by decide
    rw [Node.actOn, hnone c d hd]
  have hpark : ∀ c : Ch, strongest c [(c, .park)] = some .park := by decide
  rw [eachCh_single hother, Node.actOn, hpark c]
  simp [Node.runAction, h]

/-- One verdict is handed to the manager, ends a calibration where it is of class 3 or F.OVERTEMP, and acts by its class (R381, R500, R503,
R510). -/
theorem deliverVerdicts_one {v : Verdict} {n : Node} (hv : n.core.faults.verdicts = [v]) (hceased : v.ceased = false)
    (hi : n.inst v.code v.scope = none) (hc : v.cls ≠ 0) :
    n.deliverVerdicts =
      let m := if v.cls == 3 || (v.code == .overtemp && v.cls != 0) then (n.handed v).calAbort else n.handed v
      if v.cls = 3 then m.caskEntry
      else eachCh (Node.actOn (if v.cls = 2 then (n.handed v).reach v.code v.scope v.ctx else [])) m := by
  have hraise : ((n.modFaults fun x => { x with verdicts := [] }).raise v).1 = true := by
    rw [raise_new (n := n.modFaults fun x => { x with verdicts := [] }) hi hc]
  unfold Node.deliverVerdicts Node.handed
  rw [hv]
  simp only [List.foldl_cons, List.foldl_nil, insertVerdict, hraise, if_true, List.nil_append, List.any_cons, List.any_nil, Bool.or_false,
    List.filter_cons, List.filter_nil, hceased, Bool.false_eq_true, if_false, beq_iff_eq]
  by_cases h2 : v.cls = 2
  · simp [h2, eachOf]
    rfl
  · simp [h2, eachOf]
    rfl
theorem handed_insts {v : Verdict} {n : Node} (hi : n.inst v.code v.scope = none) (hc : v.cls = 1) :
    (n.handed v).core.faults.insts = n.core.faults.insts ++
      [{ code := v.code, scope := v.scope, cls := 1, present := true, injected := v.injected, raised := n.stamp, ctx := v.ctx }] := by
  rw [Node.handed, raise_new (n := n.modFaults fun x => { x with verdicts := [] }) hi (by rw [hc]; decide), hc, occur_insts]
  rfl

theorem handed_verdicts (v : Verdict) (n : Node) : (n.handed v).core.faults.verdicts = [] :=
  verdicts_of_none (raise_waitingVerdicts v _) rfl

/-- A part of the node that is no part of the fault manager stays as a verdict is handed to it. -/
theorem handed_part {β : Type} (g : Node → β) (hmod : ∀ f n, g (Node.modFaults f n) = g n)
    (hevent : ∀ ev sc st ws n, g (Node.event ev sc st ws n) = g n) (v : Verdict) (n : Node) : g (n.handed v) = g n := by
  unfold Node.handed Node.raise
  dsimp only
  split
  · split
    · rw [occur_part g hmod hevent, hmod]
    · rw [occur_part g hmod hevent, hmod, hmod]
  · rw [occur_part g hmod hevent, Node.modInst, hmod, hmod]

/-- The core without the fault manager and the bookkeeping of the pool. -/
def Node.sansFaults (n : Node) : Core := { n.core.body with faults := {} }

/-- The manager takes a verdict in without a change of the rest of the core. -/
theorem handed_sansFaults (v : Verdict) (n : Node) : (n.handed v).sansFaults = n.sansFaults :=
  handed_part Node.sansFaults (fun _ _ => rfl) (fun _ _ _ _ n => by unfold Node.sansFaults; rw [event_core]) v n

/-- What moves and where it moves: the slots, the outputs, the mode, and the waits for rest. -/
def Node.motion (n : Node) : Quad Slot × Quad AOut × Mode × List RestWait := (n.core.slots, n.core.outs, n.core.mode, n.core.rests)

theorem handed_motion (v : Verdict) (n : Node) : (n.handed v).motion = n.motion := by
  have := congrArg (fun k : Core => (k.slots, k.outs, k.mode, k.rests)) (handed_sansFaults v n)
  exact this

/-- A calibration that ends is no part of the fault manager, and nothing moves by it. -/
theorem calAbort_rest (n : Node) : n.calAbort.motion = n.motion ∧ n.calAbort.core.faults = n.core.faults := by
  unfold Node.calAbort Node.calEnd
  split
  · exact ⟨rfl, rfl⟩
  next c _ =>
    have hbody := (endOrder_sameBut c.op .aborted [] ((n.modSound fun s => { s with cal := none }).fansRefresh)).core
    have hfans := fansRefresh_fansOf (n.modSound fun s => { s with cal := none })
    have hm := congrArg (fun k : Core => ((k.slots, k.outs, k.mode, k.rests), k.faults)) hbody
    obtain ⟨hmotion, hfaults⟩ := Prod.mk.inj hm
    exact ⟨Eq.trans hmotion (hfans.reads Node.motion fun _ _ => rfl), Eq.trans hfaults (hfans.reads (fun n => n.core.faults) fun _ _ => rfl)⟩

theorem settleRests_of_none {n : Node} (h : n.core.rests = []) : n.settleRests = n := by
  have hcore : { n.core with rests := [] } = n.core := by rw [← h]
  unfold Node.settleRests
  rw [h]
  exact congrArg (fun k => { n with core := k }) hcore

theorem strongest_nil (c : Ch) : strongest c [] = none := rfl

theorem eachCh_actOn_nil (n : Node) : eachCh (Node.actOn []) n = n := rfl
/-! ### The waits for rest at CASK entry -/

/-- Where nothing waits for rest, CASK entry leaves nothing waiting. -/
theorem abandonMotion_noRests {n : Node} (h : n.core.rests = []) : n.abandonMotion.core.rests = [] := by
  unfold Node.abandonMotion
  extract_lets n1 n2 n3 n4
  have h1 : n1.core.rests = [] := eachCh_keeps (fun m => m.core.rests = []) _ (fun c m hm => endMotion_rests .aborted hm) n h
  have h2 : n2.core.rests = [] := by
    rw [rests_of_stand (eachOf_stand _ (fun r m => endOpt_stand _ _ _ m) _ n1), h1]
  have h3 : n3.core.rests = [] := by simp [n3, h2]
  have h4 : n4.core.rests = [] := by
    simp only [n4]
    split
    · exact (rests_of_stand (endOpt_stand _ .aborted [] n3)).trans h3
    · exact h3
  exact (rests_of_stand (loopsOff_stand n4)).trans h4

theorem clearArmed_stand (n : Node) : n.clearArmed.stand = n.stand := by
  unfold Node.clearArmed
  dsimp only
  rw [eachOf_stand _ (fun p m => by simp [Node.endPlay, Node.waveEnd]; rfl),
    eachCh_stand _ (fun c m => by unfold Node.abortArm; (repeat' split) <;> simp),
    eachOf_stand _ (fun h m => by simp [Node.hopEnd, Node.dropHop]; rfl)]

theorem caskEntry_noRests {n : Node} (h : n.core.rests = []) : n.caskEntry.core.rests = [] := by
  unfold Node.caskEntry
  split
  · exact h
  · dsimp only
    have hmotion : n.clearArmed.abandonMotion.core.rests = [] :=
      abandonMotion_noRests ((rests_of_stand (clearArmed_stand n)).trans h)
    generalize n.clearArmed.abandonMotion = a at hmotion ⊢
    have hpair : (a.endForming .aborted).caskPair.core.rests = [] :=
      (rests_of_stand ((caskPair_stand _).trans (endForming_stand .aborted a))).trans hmotion
    generalize (a.endForming .aborted).caskPair = b at hpair ⊢
    rw [settleRests_of_none (n := b.modCore fun k => { k with mode := .cask, caskDue := true, auto := .none, cmps := List.replicate 8 {} }) hpair]
    have hb : (b.modCore fun k => { k with mode := .cask, caskDue := true, auto := .none, cmps := List.replicate 8 {} }).core.rests = [] := hpair
    generalize (b.modCore fun k => { k with mode := .cask, caskDue := true, auto := .none, cmps := List.replicate 8 {} }) = d at hb ⊢
    refine (rests_of_stand (n := d) ?_).trans hb
    have hstop := eachCh_stand Node.stopChannel stopChannel_stand
    have hcease := eachCh_stand (fun c m => m.cease .partnerLost c.val) fun c m => cease_stand _ c.val m
    split <;> split <;> simp only [modLane_stand, hcease, hstop, calAbort_stand]

/-- A node that enters CASK, or is there, is in CASK. -/
theorem caskEntry_mode (n : Node) : n.caskEntry.core.mode = .cask := by
  by_cases h : n.core.mode = .cask
  · unfold Node.caskEntry
    rw [if_pos (by simpa using h)]
    exact h
  · exact (caskEntry_enters n h).1

/-! ### FAULT_VERDICT -/

section
variable {n : Node} {v : Verdict} (hv : n.core.faults.verdicts = [v]) (hceased : v.ceased = false)
  (hi : n.inst v.code v.scope = none)
include hv hceased hi

/-- R503, R504: a following error of class 2 parks its slot where FLT.ACTION says so. -/
theorem deliver_ferr {c : Ch} (hc : v.cls = 2) (hcode : v.code = .ferr) (hscope : v.scope = c.val) (hrun : n.slotRunning c = true)
    (hact : n.fltAction c = .park) : n.deliverVerdicts.settleRests.parkedAt c := by
  have hsame := handed_sansFaults v n
  have hreach : (n.handed v).reach v.code v.scope v.ctx = [(c, .park)] := by
    have hpar : (n.handed v).core.params = n.core.params := by have := congrArg Core.params hsame; exact this
    have hmask : ∀ c : Ch, maskChs (2 ^ c.val) = [c] := by decide
    have hpark : (n.handed v).fltAction c = .park := by
      rw [← hact]
      unfold Node.fltAction Node.parN
      rw [hpar]
    rw [hcode, hscope]
    simp only [Node.reach, c.isLt, if_true, Node.reachMask, hmask, List.map_cons, List.map_nil, hpark]
  have hdeliver : n.deliverVerdicts = eachCh (Node.actOn [(c, .park)]) (n.handed v) := by
    simpa [hc, hcode, ← hreach] using deliverVerdicts_one hv hceased hi (by rw [hc]; decide)
  have hrunning : (n.handed v).slotRunning c = true := by
    have := congrArg (fun k : Core => Node.slotRunning { n with core := k } c) hsame
    exact Eq.trans this hrun
  rw [parkedAt_of_parks (settleRests_parks _), hdeliver, eachCh_actOn_park hrunning]
  exact parkSlot_parkedAt (.inl rfl)

variable (hrests : n.core.rests = [])
include hrests

/-- R499, R500: a verdict of class 1 becomes one of the active instances and acts on nothing. -/
theorem deliver_class1 (hc : v.cls = 1) :
    let m := n.deliverVerdicts.settleRests
    m.core.faults.insts = n.core.faults.insts ++
      [{ code := v.code, scope := v.scope, cls := 1, present := true, injected := v.injected, raised := n.stamp, ctx := v.ctx }] ∧
    m.core.faults.verdicts = [] ∧ m.motion = n.motion := by
  have hdeliver := deliverVerdicts_one hv hceased hi (by rw [hc]; decide)
  simp only [hc, Nat.reduceEqDiff, if_false, eachCh_actOn_nil] at hdeliver
  have hmotion := handed_motion v n
  have hfaults : n.deliverVerdicts.motion = n.motion ∧ n.deliverVerdicts.core.faults = (n.handed v).core.faults := by
    rw [hdeliver]
    split
    · obtain ⟨hm, hf⟩ := calAbort_rest (n.handed v)
      exact ⟨hm.trans hmotion, hf⟩
    · exact ⟨hmotion, rfl⟩
  obtain ⟨hm, hf⟩ := hfaults
  have hnone : n.deliverVerdicts.core.rests = [] := (congrArg (fun x => x.2.2.2) hm).trans hrests
  dsimp only
  rw [settleRests_of_none hnone, hf]
  exact ⟨handed_insts hi hc, handed_verdicts v n, hm⟩

/-- R499: a verdict of class 3 takes the node to CASK. -/
theorem deliver_class3 (hc : v.cls = 3) :
    n.deliverVerdicts.settleRests.core.mode = .cask ∧ n.deliverVerdicts.settleRests.core.faults.verdicts = [] := by
  have hdeliver : n.deliverVerdicts = (n.handed v).calAbort.caskEntry := by
    simpa [hc] using deliverVerdicts_one hv hceased hi (by rw [hc]; decide)
  obtain ⟨hm, hf⟩ := calAbort_rest (n.handed v)
  have hverdicts : (n.handed v).calAbort.core.faults.verdicts = [] := by rw [hf, handed_verdicts]
  have hnone : (n.handed v).calAbort.core.rests = [] :=
    (congrArg (fun x => x.2.2.2) (hm.trans (handed_motion v n))).trans hrests
  rw [hdeliver]
  rw [settleRests_of_none (caskEntry_noRests hnone)]
  exact ⟨caskEntry_mode _, verdicts_of_none (caskEntry_waitingVerdicts _) hverdicts⟩
end

/-! ### Windows and late log entries -/

/-- R516: a window in which nothing was counted goes; else its occurrences form one entry, and the next window opens. -/
theorem endWindow_of_empty {w : FaultWindow} {n : Node} (hc : w.count = 0) :
    (n.endWindow w).core.faults = { n.core.faults with windows := n.core.faults.windows.filter fun v => !(v.code == w.code && v.scope == w.scope) } := by
  rw [Node.endWindow]
  dsimp only
  rw [if_pos hc]
  rfl

/-- The entry that the log takes for the occurrences of a window (R516, R517). -/
def FaultWindow.entry (w : FaultWindow) (count : Nat) : LogEntry :=
  { code := w.code, cls := w.cls, scope := w.scope, kind := w.kind.code, raised := w.raised, injected := w.injected, mark := w.first.mark
    lt := w.first.lt, ctx := w.ctx, occurrences := count }

theorem event_now (ev : EventCode) (sc : Nat) (st : Stamp) (ws : List Word) (n : Node) : (n.event ev sc st ws).now = n.now := by
  rw [Node.now, Node.now, (event_sameBut ev sc st ws n).time]

theorem formFault_log (w : FaultWindow) (k : Nat) (n : Node) :
    (n.formFault w k).core.faults.log = n.core.faults.log ++ [{ entry := w.entry k, formed := n.now }] := by
  unfold Node.formFault
  dsimp only
  rw [modFaults_core, event_core, event_now]
  rfl

theorem endWindow_of_counted {w : FaultWindow} {n : Node} (hc : w.count ≠ 0) :
    (n.endWindow w).core.faults.log = n.core.faults.log ++ [{ entry := w.entry w.count, formed := n.now }] := by
  rw [Node.endWindow]
  dsimp only
  rw [if_neg hc, modFaults_core]
  exact formFault_log w w.count (n.modFaults fun x => { x with windows := n.core.faults.windows.filter fun v => !(v.code == w.code && v.scope == w.scope) })

theorem effect_faultWindowEnd {s : State} {t : Nat} {w : FaultWindow} (hup : s.node.up = true)
    (hfind : s.node.core.faults.windows.find? (fun x => x.code.code == w.code.code && x.scope == w.scope) = some w)
    (hends : w.ends ≤ (s.node.atT t).now) {P : Node → Prop} (hP : P ((s.node.atT t).endWindow w)) :
    Effect (.faultWindowEnd w.code.code w.scope t) s P := by
  refine effect_of_up (f := fun n => match (n.atT t).core.faults.windows.find? fun x => x.code.code == w.code.code && x.scope == w.scope with
    | some w => if w.ends ≤ (n.atT t).now then (n.atT t).endWindow w else n.atT t
    | none => n.atT t) rfl hup ?_
  have hfind' : (s.node.atT t).core.faults.windows.find? (fun x => x.code.code == w.code.code && x.scope == w.scope) = some w := hfind
  rw [hfind']
  dsimp only
  rw [if_pos hends]
  exact hP

theorem not_overdue_of_late {x : PendingLog} {now : Nat} (h : x.late = true) : x.overdue now = false := by
  rw [PendingLog.overdue, h]
  rfl

@[simp] theorem trip_log (f : FaultCode) (cls sc : Nat) (x : Word) (i : Bool) (n : Node) :
    (n.trip f cls sc x i).core.faults.log = n.core.faults.log := by
  rcases trip_cases f cls sc x i n with ⟨v, _, _, he⟩ | ⟨he, _⟩ <;> rw [he]
  rfl

/-- The late entries are judged (R515). -/
def Node.judgesLate (n : Node) : Node :=
  n.modFaults fun f => { f with logFailing := true, log := f.log.map fun x => if x.overdue n.now then { x with late := true } else x }

theorem judgesLate_log {n : Node} {x : PendingLog} (hx : x ∈ n.judgesLate.core.faults.log) : x.overdue n.now = false := by
  obtain ⟨y, _, rfl⟩ := List.mem_map.mp hx
  split
  · exact not_overdue_of_late rfl
  next h => exact Bool.eq_false_iff.mpr h

/-- R515: the entries that have waited 20 ms are judged, and F.LOG_WRITE is reported. -/
theorem effect_logWriteTimeout {s : State} {t : Nat} (hup : s.node.up = true)
    (hx : ∃ x ∈ s.node.core.faults.log, x.overdue (s.node.atT t).now = true) (hi : s.node.isActive .logWrite 0xFF = false) :
    Effect (.logWriteTimeout t) s fun m =>
      m.reported .logWrite 0xFF ∧ ∀ x ∈ m.core.faults.log, x.overdue (s.node.atT t).now = false := by
  obtain ⟨x, hmem, hover⟩ := hx
  have hpos : (s.node.core.faults.log.filter (PendingLog.overdue (s.node.atT t).now)).length ≠ 0 := by
    rw [← List.countP_eq_length_filter]
    exact (List.countP_pos_iff.mpr ⟨x, hmem, hover⟩).ne'
  refine effect_of_up (f := fun n => if ((n.atT t).core.faults.log.filter (PendingLog.overdue (n.atT t).now)).length = 0 then n.atT t
    else if (n.atT t).judgesLate.isActive .logWrite 0xFF then
      (n.atT t).judgesLate.modInst .logWrite 0xFF fun i =>
        { i with count := i.count + ((n.atT t).core.faults.log.filter (PendingLog.overdue (n.atT t).now)).length }
    else (n.atT t).judgesLate.trip .logWrite 3 0xFF 0 false) rfl hup ?_
  have hactive : (s.node.atT t).judgesLate.isActive .logWrite 0xFF = false := hi
  rw [if_neg (show ¬((s.node.atT t).core.faults.log.filter _).length = 0 from hpos), hactive, if_neg (by decide), trip_log]
  exact ⟨trip_reported .logWrite 3 0xFF 0 false _, fun y hy => judgesLate_log hy⟩

/-- Settles O26: the one waiting verdict acts by its class; a window ends with what it counted; a late entry is judged. -/
theorem verdictsAreDelivered : Obligations.VerdictsAreDelivered := by
  refine ⟨fun s t v hup hv hrests hceased hi => ⟨fun hc => ?class1, fun hc => ?class3, fun c hc hcode hscope hrun hact => ?class2⟩,
    fun s t w hup hfind hends => ⟨fun hc => ?empty, fun hc => ?counted⟩, fun s t hup hx hi => effect_logWriteTimeout hup hx hi⟩
  case class1 =>
    obtain ⟨hinsts, hverdicts, hmotion⟩ := deliver_class1 (n := s.node.atT t) hv hceased hi hrests hc
    exact effect_of_up rfl hup ⟨hinsts, hverdicts, congrArg Prod.fst hmotion, congrArg (fun x => x.2.2.1) hmotion⟩
  case class3 => exact effect_of_up rfl hup (deliver_class3 (n := s.node.atT t) hv hceased hi hrests hc)
  case class2 => exact effect_of_up rfl hup (deliver_ferr (n := s.node.atT t) hv hceased hi hc hcode hscope hrun hact)
  case empty =>
    refine effect_faultWindowEnd hup hfind hends ?_
    rw [endWindow_of_empty hc]
    refine ⟨rfl, fun x hx => ?_⟩
    have hkept := (List.mem_filter.mp hx).2
    rintro ⟨hcode, hscope⟩
    simp [hcode, hscope] at hkept
  case counted =>
    exact effect_faultWindowEnd hup hfind hends ⟨_, endWindow_of_counted hc, rfl, rfl, rfl, rfl, rfl⟩

end Sys2Proof.Machine
end

section
/-!
PROOFS. The junction temperature and the ECC scrubs (15_faults_and_pitch_points.md R521; 16_firmware_and_store.md R536).
-/
namespace Sys2Proof.Machine

/-! ### The junction temperature -/

/-- A reading that fits a word is taken as it is (R9). -/
theorem satI_toInt (w : Word) : satI w.toInt = w := by
  have hlo := BitVec.le_toInt w
  have hhi := BitVec.toInt_lt (x := w)
  have hclamp : clampI (-(2 ^ 39)) (2 ^ 39 - 1) w.toInt = w.toInt := by
    unfold clampI
    rw [if_neg (by omega), if_neg (by omega)]
  rw [satI, hclamp, wI, BitVec.ofInt_toInt]

/-- The manager's record of a reading: FLT.TJ, and the readings in succession above FLT.TJWARN and above 125 °C (R521). -/
def Node.takeTj (tj : Word) (n : Node) : Node := n.modFaults fun f =>
  { f with
    tj := tj, tjWarn := if n.par Pid.fltTjwarn 0 < tj.toInt then f.tjWarn + 1 else 0
    tjHot := if 125 * 65536 < tj.toInt then f.tjHot + 1 else 0 }

/-- What is reported of a reading (R521). -/
def Node.judgeTj (tj : Word) (n : Node) : Node :=
  if 2 ≤ n.core.faults.tjHot then n.trip .overtemp 3 0xFF tj false
  else if 2 ≤ n.core.faults.tjWarn then n.trip .overtemp 1 0xFF tj false
  else if tj.toInt < n.par Pid.fltTjwarn 0 - 5 * 65536 then n.cease .overtemp 0xFF
  else n

theorem effect_tjReading {s : State} {tj : Word} {t : Nat} (hup : s.node.up = true) (hp : s.node.core.faults.points = [])
    {P : Node → Prop} (h : P (((s.node.atT t).takeTj tj).judgeTj tj)) : Effect (.tjReading tj t) s P := by
  refine effect_of_up rfl hup ?_
  dsimp only
  rw [injecting_of_none (s.node.atT t) _ _ hp, useInjection_of_none (s.node.atT t) _ _ _ hp]
  simp only [Bool.false_eq_true, if_false, Int.add_zero, satI_toInt]
  exact h

/-- The fault manager without its windows and the log. -/
def Node.manager (n : Node) : Faults := { n.core.faults with windows := [], log := [] }

/-- An occurrence is a matter of the windows and the log. -/
theorem occur_manager (f : FaultCode) (sc : Nat) (k : OccKind) (cls : Nat) (r i : Bool) (x : Word) (n : Node) :
    (n.occur f sc k cls r i x).manager = n.manager := by
  unfold Node.occur Node.formFault Node.manager
  split
  · rw [modFaults_core, modFaults_core, event_core]
  · rfl

theorem occur_tj (f : FaultCode) (sc : Nat) (k : OccKind) (cls : Nat) (r i : Bool) (x : Word) (n : Node) :
    (n.occur f sc k cls r i x).core.faults.tj = n.core.faults.tj := by
  have := congrArg Faults.tj (occur_manager f sc k cls r i x n)
  exact this

theorem trip_tj (f : FaultCode) (cls sc : Nat) (x : Word) (i : Bool) (n : Node) :
    (n.trip f cls sc x i).core.faults.tj = n.core.faults.tj := by
  rcases trip_cases f cls sc x i n with ⟨v, _, _, he⟩ | ⟨he, _⟩ <;> rw [he]
  rfl

theorem cease_tj (f : FaultCode) (sc : Nat) (n : Node) : (n.cease f sc).core.faults.tj = n.core.faults.tj := by
  unfold Node.cease
  dsimp only
  split
  · rfl
  · split
    · rfl
    · split <;> exact occur_tj ..

theorem judgeTj_tj (tj : Word) (n : Node) : (n.judgeTj tj).core.faults.tj = n.core.faults.tj := by
  unfold Node.judgeTj
  split
  · exact trip_tj ..
  · split
    · exact trip_tj ..
    · split
      · exact cease_tj ..
      · rfl

/-- A condition of class 1 that ceases clears by itself (R507). -/
theorem cease_clears {f : FaultCode} {sc : Nat} {n : Node} {i : FaultInst} (hi : n.inst f sc = some i) (hp : i.present = true)
    (hc : i.cls ≤ 1) : (n.cease f sc).inst f sc = none := by
  have hi' : (n.modFaults fun x => { x with verdicts := x.verdicts.map fun v => if v.code == f && v.scope == sc then { v with ceased := true } else v }).inst f sc =
      some i := hi
  unfold Node.cease
  dsimp only
  rw [hi']
  dsimp only
  rw [if_neg (by simp [hp]), if_pos hc, Node.inst, occur_insts, List.find?_eq_none]
  intro j hj
  simpa only [Bool.not_eq_true', Bool.not_eq_true] using (List.mem_filter.mp hj).2

/-- R521: what a reading leaves: FLT.TJ, a report of a second one above 125 °C, and no warning of one more than 5 K below FLT.TJWARN. -/
theorem tjReading_spec {s : State} {tj : Word} {t : Nat} (hup : s.node.up = true) (hp : s.node.core.faults.points = []) :
    Effect (.tjReading tj t) s fun m => m.core.faults.tj = tj ∧
      (125 * 65536 < tj.toInt → 1 ≤ s.node.core.faults.tjHot → m.reported .overtemp 0xFF) ∧
      (tj.toInt < s.node.par Pid.fltTjwarn 0 - 5 * 65536 → tj.toInt ≤ 125 * 65536 →
        ∀ i, s.node.inst .overtemp 0xFF = some i → i.present = true → i.cls ≤ 1 → m.inst .overtemp 0xFF = none) := by
  refine effect_tjReading hup hp ⟨judgeTj_tj _ _, fun hhot hrun => ?_, fun hcool hlow i hi hpres hcls => ?_⟩
  · have hsecond : 2 ≤ ((s.node.atT t).takeTj tj).core.faults.tjHot := by
      show 2 ≤ if 125 * 65536 < tj.toInt then s.node.core.faults.tjHot + 1 else 0
      rw [if_pos hhot]
      omega
    rw [Node.judgeTj, if_pos hsecond]
    exact trip_reported ..
  · have hhot : ((s.node.atT t).takeTj tj).core.faults.tjHot = 0 := if_neg (by omega)
    have hwarn : ((s.node.atT t).takeTj tj).core.faults.tjWarn = 0 :=
      if_neg (show ¬s.node.par Pid.fltTjwarn 0 < tj.toInt by omega)
    have hbelow : tj.toInt < ((s.node.atT t).takeTj tj).par Pid.fltTjwarn 0 - 5 * 65536 := hcool
    rw [Node.judgeTj, hhot, hwarn, if_neg (by decide), if_neg (by decide), if_pos hbelow]
    exact cease_clears (i := i) hi hpres hcls

/-! ### ECC scrubs -/

/-- The verdict on an ECC error of a memory (R521). -/
def eccVerdict (f : FaultCode) (e : EccError) : Verdict :=
  { code := f, cls := if e.uncorrectable then 3 else 0, scope := 0xFF, ctx := eccCtx e.addr.toNat e.uncorrectable, injected := false
    ceased := true }

/-- An ECC error is an event: its verdict waits in any case (R502, R521). -/
theorem eccFault_verdicts {f : FaultCode} (hf : f = .sramEcc ∨ f = .storeEcc) (e : EccError) (n : Node) :
    n.eccFault f e.addr e.uncorrectable false =
      n.modFaults fun x => { x with verdicts := x.verdicts ++ [eccVerdict f e] } := by
  rcases hf with rfl | rfl <;> rfl

theorem eachOf_eccFault {f : FaultCode} (hf : f = .sramEcc ∨ f = .storeEcc) (errs : List EccError) (n : Node) :
    eachOf errs (fun e m => m.eccFault f e.addr e.uncorrectable false) n =
      n.modFaults fun x => { x with verdicts := x.verdicts ++ errs.map (eccVerdict f) } := by
  induction errs generalizing n with
  | nil => simp [eachOf, Node.modFaults, Node.modCore]
  | cons e es ih =>
    rw [eachOf_cons, ih, eccFault_verdicts hf]
    simp [Node.modFaults, Node.modCore]

theorem eccInject_of_none {f : FaultCode} {addr : BitVec 32} {n : Node} (hp : n.core.faults.points = []) : n.eccInject f addr = n := by
  have hpoint : n.point f 0xFF = none := by simp [Node.point, hp]
  rw [Node.eccInject, hpoint]

/-- Every error found has its verdict among those that wait (R521). -/
theorem scrub_verdicts {f : FaultCode} (hf : f = .sramEcc ∨ f = .storeEcc) (errs : List EccError) (n : Node) :
    ∀ e ∈ errs, ∃ v ∈ (eachOf errs (fun e m => m.eccFault f e.addr e.uncorrectable false) n).core.faults.verdicts,
      v.code = f ∧ v.scope = 0xFF ∧ v.cls = (if e.uncorrectable then 3 else 0) ∧ v.ctx = eccCtx e.addr.toNat e.uncorrectable := by
  intro e he
  refine ⟨eccVerdict f e, ?_, rfl, rfl, rfl, rfl⟩
  rw [eachOf_eccFault hf, modFaults_core]
  exact List.mem_append_right _ (List.mem_map_of_mem he)

theorem eachOf_eccFault_points {f : FaultCode} (hf : f = .sramEcc ∨ f = .storeEcc) (errs : List EccError) (n : Node) :
    (eachOf errs (fun e m => m.eccFault f e.addr e.uncorrectable false) n).core.faults.points = n.core.faults.points := by
  rw [eachOf_eccFault hf]
  rfl

/-- Settles O27: with no point armed the reading and the errors are those of the detectors. -/
theorem temperatureAndScrubs : Obligations.TemperatureAndScrubs := by
  refine ⟨fun s tj t hup hp => tjReading_spec hup hp, fun s errs t hup hp => ⟨effect_of_up rfl hup ?sram, effect_of_up rfl hup ?store⟩⟩
  case sram =>
    dsimp only
    rw [eccInject_of_none ((eachOf_eccFault_points (.inl rfl) errs (s.node.atT t)).trans hp)]
    exact scrub_verdicts (.inl rfl) errs _
  case store =>
    have hpoints := (eachOf_eccFault_points (.inr rfl) errs (s.node.atT t)).trans hp
    have hpoint : (eachOf errs (fun e m => m.eccFault .storeEcc e.addr e.uncorrectable false) (s.node.atT t)).point .storeEcc 0xFF = none := by
      simp [Node.point, hpoints]
    dsimp only
    rw [eccInject_of_none hpoints, hpoint]
    refine ⟨?_, scrub_verdicts (.inr rfl) errs _⟩
    rw [eachOf_eccFault (.inr rfl)]
    rfl

end Sys2Proof.Machine
end

section
/-!
PROOFS. The commands of the line (12_grenrus_line.md R431, R434, R437, R439, R451, R455, R458).
-/
namespace Sys2Proof.Machine

theorem atCommit_line {p : Packet} {n : Node} (h : n.runsNow p = true) : (n.atCommit p).line = n.line := body_line (atCommit_spec p n h).1

theorem packetRow_line {f : PoolOp → Node → Ans × Node} {p : Packet} {n : Node} (h : n.runsNow p = true) :
    (n.packetRow f p).line = (f (n.opFrom p) (n.atCommit p)).2.line := (packetRow_sameBut f p n h).line

/-- A command that waits, with a change of the line. -/
theorem packetRow_line_waits {f : PoolOp → Node → Ans × Node} {p : Packet} {n : Node} {g : Line → Line} (h : n.runsNow p = true)
    (hf : f (n.opFrom p) (n.atCommit p) = (.wait, (n.atCommit p).modLine g)) :
    n.goesOn p (n.packetRow f p) ∧ (n.packetRow f p).line = g n.line := by
  refine ⟨packetRow_goesOn h hf rfl, ?_⟩
  rw [packetRow_line h, hf, modLine_line, atCommit_line h]

/-- A command that is refused. -/
theorem packetRow_line_refused {f : PoolOp → Node → Ans × Node} {p : Packet} {n : Node} {st : Status} (h : n.runsNow p = true)
    (hf : f (n.opFrom p) (n.atCommit p) = (.fail st, n.atCommit p)) :
    n.replies p st [[]] (n.packetRow f p) ∧ (n.packetRow f p).line = n.line := by
  refine ⟨packetRow_replies h hf rfl, ?_⟩
  rw [packetRow_line h, hf, atCommit_line h]

theorem atCommit_heading {p : Packet} {n : Node} (h : n.runsNow p = true) : (n.atCommit p).heading = n.heading :=
  atCommit_reads Node.heading (fun _ => rfl) p n h

/-! ### ROLLCALL -/

theorem survey_heads {p : Packet} {n : Node} (h : n.runsNow p = true) (hh : n.heading = true) :
    n.goesOn p (n.packetRow cmdRollcallSurvey p) ∧
      (n.packetRow cmdRollcallSurvey p).line.rolls = n.line.rolls ++ [{ kind := .survey, ops := [(n.opFrom p).order] }] := by
  obtain ⟨hgoes, hline⟩ := packetRow_line_waits (f := cmdRollcallSurvey) h
    (g := fun l => { l with rolls := l.rolls ++ [{ kind := .survey, ops := [(n.opFrom p).order] }] })
    (by rw [cmdRollcallSurvey, atCommit_heading h, hh]; rfl)
  exact ⟨hgoes, by rw [hline]⟩

theorem survey_refused {p : Packet} {n : Node} (h : n.runsNow p = true) (hh : n.heading = false) :
    n.replies p .refusedUnsafe [[]] (n.packetRow cmdRollcallSurvey p) ∧ (n.packetRow cmdRollcallSurvey p).line = n.line :=
  packetRow_line_refused (f := cmdRollcallSurvey) (st := .refusedUnsafe) h (by rw [cmdRollcallSurvey, atCommit_heading h, hh]; rfl)

theorem assign_heads {p : Packet} {n : Node} (h : n.runsNow p = true) (hh : n.heading = true) (hf : n.line.folded = false) :
    n.goesOn p (n.packetRow cmdRollcallAssign p) ∧
      (n.packetRow cmdRollcallAssign p).line.rolls = n.line.rolls ++ [{ kind := .assign (pw p 1), ops := [(n.opFrom p).order] }] := by
  obtain ⟨_, hr⟩ := runsNow_spec p n h
  obtain ⟨hgoes, hline⟩ := packetRow_line_waits (f := cmdRollcallAssign) h
    (g := fun l => { l with rolls := l.rolls ++ [{ kind := .assign (pw p 1), ops := [(n.opFrom p).order] }] })
    (by rw [cmdRollcallAssign, atCommit_heading h, hh, atCommit_line h, hf, hr.packet]; rfl)
  exact ⟨hgoes, by rw [hline]⟩

theorem assign_refused {p : Packet} {n : Node} (h : n.runsNow p = true) (hh : n.heading = false) :
    n.replies p .refusedUnsafe [[]] (n.packetRow cmdRollcallAssign p) ∧ (n.packetRow cmdRollcallAssign p).line = n.line :=
  packetRow_line_refused (f := cmdRollcallAssign) (st := .refusedUnsafe) h (by rw [cmdRollcallAssign, atCommit_heading h, hh]; rfl)

/-! ### RELOCK -/

/-- A packet whose row the summary table permits in CASK alone runs only there (R557). -/
theorem runsNow_cask {p : Packet} {n : Node} {oc : Opcode} (h : n.runsNow p = true) (ho : opcodeOf p = some oc)
    (hm : oc.modes = (true, false, false, false)) : n.core.mode = .cask := by
  obtain ⟨oc', hr⟩ := runsNow_spec p n h
  obtain rfl : oc' = oc := Option.some.inj (hr.opcode.symm.trans ho)
  obtain ⟨due, _, hm'⟩ := hr.fresh
  have hmode : (n.arrived p).2.core.mode = n.core.mode := atCommit_reads (fun n => n.core.mode) (fun _ => rfl) p n h
  have hchecks := hr.checks
  unfold Node.commitChecks at hchecks
  simp only [Option.or_eq_none_iff] at hchecks
  obtain ⟨⟨⟨-, hcheck⟩, -⟩, -⟩ := hchecks
  unfold Node.checkMode at hcheck
  rw [hmode, hm] at hcheck
  cases hn : n.core.mode with
  | cask => rfl
  | track =>
    simp [hn] at hcheck
    split at hcheck <;> cases hcheck
  | drive =>
    simp [hn] at hcheck
    split at hcheck <;> cases hcheck
  | tandem =>
    simp [hn] at hcheck
    split at hcheck <;> cases hcheck

theorem relock_locks {p : Packet} {n : Node} (h : n.runsNow p = true) (ho : opcodeOf p = some .relock) (hc : fld (pw p 0) 9 0 = n.hopCount) :
    n.replies p .done [[]] (n.packetRow cmdRelock p) ∧
      (n.packetRow cmdRelock p).line = { n.line with lock := some (n.posOfHop n.hopCount, n.line.rcSig.getD 0), outcome := some 1 } ∧
      (n.packetRow cmdRelock p).core.mode = .cask := by
  obtain ⟨_, hr⟩ := runsNow_spec p n h
  have hhop : (n.atCommit p).hopCount = n.hopCount := atCommit_reads Node.hopCount (fun _ => rfl) p n h
  have hpos : (n.atCommit p).posOfHop = n.posOfHop := atCommit_reads Node.posOfHop (fun _ => rfl) p n h
  have hcmd : cmdRelock (n.opFrom p) (n.atCommit p) = (.ok [], (n.atCommit p).modLine fun l =>
      { l with lock := some (n.posOfHop n.hopCount, n.line.rcSig.getD 0), outcome := some 1 }) := by
    rw [cmdRelock, hr.packet, hhop, if_neg (by simpa using hc), hpos, atCommit_line h]
  refine ⟨packetRow_replies h hcmd rfl, ?_, ?_⟩
  · rw [packetRow_line h, hcmd, modLine_line, atCommit_line h]
  · have hmode := congrArg Core.mode (packetRow_sameBut cmdRelock p n h).core
    have hsame : (n.packetRow cmdRelock p).core.mode = (n.atCommit p).core.mode := by rw [hcmd] at hmode; exact hmode
    rw [hsame, atCommit_reads (fun n => n.core.mode) (fun _ => rfl) p n h]
    exact runsNow_cask h ho rfl

theorem relock_refused {p : Packet} {n : Node} (h : n.runsNow p = true) (ho : opcodeOf p = some .relock)
    (hc : fld (pw p 0) 9 0 ≠ n.hopCount) : n.answersWith p .refusedUnsafe [[]] false (n.packetRow cmdRelock p) := by
  obtain ⟨_, hr⟩ := runsNow_spec p n h
  have hhop : (n.atCommit p).hopCount = n.hopCount := atCommit_reads Node.hopCount (fun _ => rfl) p n h
  refine answersWith_reader cmdRelock p n h _ _ _ ?_ (notAccepted p n _ h ho rfl)
  rw [cmdRelock, hr.packet, hhop, if_pos hc]
  rfl

/-! ### FOLD and UNFOLD -/

theorem fold_waits {p : Packet} {n : Node} (h : n.runsNow p = true) (hrole : n.line.role = .head ∨ n.line.role = .tailHead)
    (hf : n.line.folded = false) : n.goesOn p (n.packetRow cmdFold p) ∧
      (n.packetRow cmdFold p).line.foldOps = n.line.foldOps ++ [(n.opFrom p).order] ∧ (n.packetRow cmdFold p).line.folded = false := by
  obtain ⟨hgoes, hline⟩ := packetRow_line_waits (f := cmdFold) h (g := fun l => { l with foldOps := l.foldOps ++ [(n.opFrom p).order] }) (by
    rw [cmdFold, atCommit_line h, if_neg (by tauto), hf]
    rfl)
  rw [hline]
  exact ⟨hgoes, rfl, hf⟩

theorem fold_done {p : Packet} {n : Node} (h : n.runsNow p = true) (ho : opcodeOf p = some .fold)
    (hrole : n.line.role = .head ∨ n.line.role = .tailHead) (hf : n.line.folded = true) :
    n.answersWith p .done [[]] false (n.packetRow cmdFold p) := by
  refine answersWith_reader cmdFold p n h _ _ _ ?_ (notAccepted p n _ h ho rfl)
  rw [cmdFold, atCommit_line h, if_neg (by tauto), hf]
  rfl

theorem fold_refused {p : Packet} {n : Node} (h : n.runsNow p = true) (ho : opcodeOf p = some .fold) (hhead : n.line.role ≠ .head)
    (htail : n.line.role ≠ .tailHead) : n.answersWith p .refusedUnsafe [[]] false (n.packetRow cmdFold p) := by
  refine answersWith_reader cmdFold p n h _ _ _ ?_ (notAccepted p n _ h ho rfl)
  rw [cmdFold, atCommit_line h, if_pos ⟨hhead, htail⟩]
  rfl

theorem unfold_waits {p : Packet} {n : Node} (h : n.runsNow p = true) (hh : n.heading = true) (hf : n.line.folded = true)
    (hlo : 2 ≤ (fld (pw p 0) 31 0 + 4294967296 - n.cycleNo) % 4294967296)
    (hhi : (fld (pw p 0) 31 0 + 4294967296 - n.cycleNo) % 4294967296 ≤ 65535) (hu : n.line.unfoldAt = none) :
    n.goesOn p (n.packetRow cmdUnfold p) ∧
      (n.packetRow cmdUnfold p).line.unfoldAt = some (fld (pw p 0) 31 0, [(n.opFrom p).order]) ∧
      (n.packetRow cmdUnfold p).line.folded = true := by
  obtain ⟨_, hr⟩ := runsNow_spec p n h
  have hcycle : (n.atCommit p).cycleNo = n.cycleNo := atCommit_reads Node.cycleNo (fun _ => rfl) p n h
  obtain ⟨hgoes, hline⟩ := packetRow_line_waits (f := cmdUnfold) h
    (g := fun l => { l with unfoldAt := some (fld (pw p 0) 31 0, (l.unfoldAt.elim [] Prod.snd) ++ [(n.opFrom p).order]) }) (by
      rw [cmdUnfold, hr.packet, hcycle, atCommit_heading h, atCommit_line h, hh, hf]
      rw [if_neg (by decide), if_neg (by omega)])
  rw [hline, hu]
  exact ⟨hgoes, rfl, hf⟩

theorem unfold_outOfRange {p : Packet} {n : Node} (h : n.runsNow p = true) (hh : n.heading = true) (hf : n.line.folded = true)
    (hd : (fld (pw p 0) 31 0 + 4294967296 - n.cycleNo) % 4294967296 < 2 ∨
      65535 < (fld (pw p 0) 31 0 + 4294967296 - n.cycleNo) % 4294967296) :
    n.replies p .outOfRange [[]] (n.packetRow cmdUnfold p) ∧ (n.packetRow cmdUnfold p).line = n.line := by
  obtain ⟨_, hr⟩ := runsNow_spec p n h
  have hcycle : (n.atCommit p).cycleNo = n.cycleNo := atCommit_reads Node.cycleNo (fun _ => rfl) p n h
  refine packetRow_line_refused (st := .outOfRange) h ?_
  rw [cmdUnfold, hr.packet, hcycle, atCommit_heading h, atCommit_line h, hh, hf]
  rw [if_neg (by decide), if_pos hd]

/-- Settles O49: each command changes of the node its part of the line at most. RELOCK's signature before any roll call is log entry 124, a
SURVEY at any heading node log entry 58. -/
theorem lineCommands : Obligations.LineCommands := by
  intro s p
  refine ⟨?survey, ?assign, ?relock, ?fold, ?unfold, ?stats⟩
  case survey =>
    rintro q rfl h
    exact ⟨fun hh => ⟨_, rfl, survey_heads h hh⟩, fun hh => ⟨_, rfl, survey_refused h hh⟩⟩
  case assign =>
    rintro q rfl h
    exact ⟨fun hh hf => ⟨_, rfl, assign_heads h hh hf⟩, fun hh => ⟨_, rfl, assign_refused h hh⟩⟩
  case relock =>
    rintro q rfl h
    exact ⟨fun hc => ⟨_, rfl, relock_locks h (opcodeOf_asRow _ _) hc⟩, fun hc => ⟨_, rfl, relock_refused h (opcodeOf_asRow _ _) hc⟩⟩
  case fold =>
    rintro q rfl h
    exact ⟨fun hrole hf => ⟨_, rfl, fold_waits h hrole hf⟩, fun hrole hf => ⟨_, rfl, fold_done h (opcodeOf_asRow _ _) hrole hf⟩,
      fun hhead htail => ⟨_, rfl, fold_refused h (opcodeOf_asRow _ _) hhead htail⟩⟩
  case unfold =>
    rintro q c rfl h rfl hh hf
    exact ⟨fun hlo hhi hu => ⟨_, rfl, unfold_waits h hh hf hlo hhi hu⟩, fun hd => ⟨_, rfl, unfold_outOfRange h hh hf hd⟩⟩
  case stats =>
    rintro q rfl h
    refine ⟨_, rfl, answersWith_reader cmdLineStats _ s.node h _ _ _ ?_ (notAccepted _ _ _ h (opcodeOf_asRow _ _) rfl)⟩
    rw [cmdLineStats, atCommit_line h]
    rfl

end Sys2Proof.Machine
end

section
/-!
PROOFS. A finished write of a configuration (16_firmware_and_store.md R537 to R539) and the slots that failed their CRC (R97).
-/
namespace Sys2Proof.Machine

/-- A node in CASK whose configuration slot A failed its CRC at the latest Steep (R97), with a new configuration waiting to be written
there. -/
def badSlotRewritten : State :=
  let n := State.reset.node
  { pending := []
    node := { n with
      power := { n.power with vcel := true, railsGood := true }
      core := { n.core with run := .up, mode := .cask }
      store := { n.store with
        cfgBad := ⟨true, false⟩, writes := [{ kind := .config false { generation := 1 }, op := none, words := [] }] } } }

theorem exec_storeWriteDone (t : Nat) (s : State) :
    exec (.storeWriteDone t) s = s.upd fun n => n.whenUp fun n => (n.atT t).writeDone := rfl

/-- The slot that has been written is no longer one that failed its CRC. -/
theorem badSlotRewritten_cfgBad : (badSlotRewritten.node.atT 0).writeDone.store.cfgBad = ⟨false, false⟩ := by decide +kernel

/-- Refutes O55: a finished write of a configuration also takes its slot out of those that failed their CRC at the latest Steep (R97,
R542), and the statement allows the slots' contents and the waiting writes alone to change. -/
theorem not_firmwareAndStore : ¬ Obligations.FirmwareAndStore := by
  intro h
  obtain ⟨_, _, _, _, hdone, _⟩ := h
  obtain ⟨_, hconfig⟩ := hdone badSlotRewritten 0 _ [] rfl rfl rfl
  have hstore := (hconfig false { generation := 1 } rfl).of_row (exec_storeWriteDone 0 badSlotRewritten)
  have hbad := congrArg Store.cfgBad hstore
  exact absurd (badSlotRewritten_cfgBad.symm.trans hbad) (by decide)

end Sys2Proof.Machine
end

section
/-!
PROOFS. What a frame of the node is: all of the node but its talk with the clients (sessions, client records, packets on their way, the
operation pool), the host port and the lane, with the parts that a family of commands may write left out. A row leaves a frame as it was
where its command does.
-/
namespace Sys2Proof.Machine

/-- What a frame leaves out of the core, of the store and of the line. -/
structure Frame where
  core : Core → Core := id
  store : Store → Store := id
  line : Line → Line := id

/-- The node under a frame. -/
def Node.under (F : Frame) (n : Node) : Node :=
  { n with
    clients := [], sessions := [], stream := [], streamSent := 0, host := {}, lane := {}, free := 0, core := F.core n.core.body
    store := F.store n.store, line := F.line n.line }

section
variable (F : Frame)

theorem under_of_sameBut {m n : Node} (h : m.SameBut n) : m.under F = n.under F := by
  obtain ⟨hpower, htime, _, hnonces, hstore, hrestart, hheld, hadopted, hword, hline, hcore, _⟩ := h
  simp only [Node.under, hpower, htime, hnonces, hstore, hrestart, hheld, hadopted, hword, hline, hcore]

theorem under_of_body {m n : Node} (h : m.body = n.body) : m.under F = n.under F := by
  have hbodies := congrArg (Node.under F) h
  exact hbodies

/-! ### The talk is under no frame -/

@[simp] theorem event_under (ev : EventCode) (sc : Nat) (st : Stamp) (ws : List Word) (n : Node) :
    (n.event ev sc st ws).under F = n.under F := under_of_sameBut F (event_sameBut ev sc st ws n)

@[simp] theorem emitAll_under (d : Client) (ps : List ReplyPkt) (n : Node) : (n.emitAll d ps).under F = n.under F :=
  under_of_sameBut F (emitAll_sameBut d ps n)

@[simp] theorem finish_under (p : Packet) (s : Status) (ch : List (List Word)) (g : Bool) (k : Nat) (n : Node) :
    (n.finish p s ch g k).under F = n.under F := under_of_sameBut F (finish_sameBut p s ch g k n)

@[simp] theorem accepted_under (p : Packet) (k : Nat) (n : Node) : (n.accepted p k).under F = n.under F :=
  under_of_sameBut F (accepted_sameBut p k n)

@[simp] theorem endOp_under (op : PoolOp) (s : Status) (ch : List (List Word)) (g : Bool) (n : Node) :
    (n.endOp op s ch g).under F = n.under F := under_of_sameBut F (endOp_sameBut op s ch g n)

@[simp] theorem endOrder_under (o : Nat) (s : Status) (ws : List Word) (n : Node) : (n.endOrder o s ws).under F = n.under F :=
  under_of_sameBut F (endOrder_sameBut o s ws n)

@[simp] theorem endOpt_under (o : Option Nat) (s : Status) (ws : List Word) (n : Node) : (n.endOpt o s ws).under F = n.under F :=
  under_of_sameBut F (endOpt_sameBut o s ws n)

@[simp] theorem deliver_under (op : PoolOp) (a : Ans) (n : Node) : (n.deliver op a).under F = n.under F :=
  under_of_sameBut F (deliver_sameBut op a n)

@[simp] theorem modLane_under (f : Lane → Lane) (n : Node) : (n.modLane f).under F = n.under F := (rfl)

@[simp] theorem laneSend_under (q : LinePort) (x : LaneMsg) (n : Node) : (n.laneSend q x).under F = n.under F := (rfl)

@[simp] theorem markCommitted_under (o : Nat) (n : Node) : (n.markCommitted o).under F = n.under F := (rfl)

@[simp] theorem touchSession_under (p : Packet) (n : Node) : (n.touchSession p).under F = n.under F :=
  under_of_body F (touchSession_body p n)

@[simp] theorem poolIn_under (p : Packet) (due : Nat) (sch : Bool) (side : RelaySide) (n : Node) :
    (n.poolIn p due sch side).2.under F = n.under F := by
  unfold Node.poolIn
  extract_lets o op m1 m2 m3
  have hm1 : m1.under F = n.under F := rfl
  have hm2 : m2.under F = n.under F := by
    show (if op.acceptedAtOnce then m1.accepted p due else m1).under F = _
    split
    · rw [accepted_under, hm1]
    · exact hm1
  show (if side == .sent || side == .both then m2.laneSend m2.lane.partnerPort (.relay p due) else m2).under F = _
  split
  · exact hm2
  · exact hm2

@[simp] theorem arrive_under (p : Packet) (ok : Bool) (first : Nat) (n : Node) : (n.arrive p ok first).2.under F = n.under F := by
  unfold Node.arrive
  extract_lets m
  have hm : m.under F = n.under F := touchSession_under F p n
  clear_value m
  split
  · rw [Node.answer, emitAll_under, hm]
  · split
    · split
      · rw [finish_under, hm]
      · rw [Node.answer, emitAll_under, hm]
    · rw [emitAll_under, hm]
    · rw [poolIn_under, hm]

/-! ### Changes one after the other -/

@[simp] theorem eachOf_under {α : Type} (f : α → Node → Node) (hf : ∀ x m, (f x m).under F = m.under F) (xs : List α) (n : Node) :
    (eachOf xs f n).under F = n.under F := eachOf_part (Node.under F) f hf xs n

@[simp] theorem eachCh_under (f : Ch → Node → Node) (hf : ∀ c m, (f c m).under F = m.under F) (n : Node) :
    (eachCh f n).under F = n.under F := eachCh_part (Node.under F) f hf n

end

/-! ### Rows -/

section
variable {F : Frame} {f : PoolOp → Node → Ans × Node}

/-- The core without its bookkeeping is that of the node under the frame that leaves nothing out. -/
theorem core_of_under {m n : Node} (h : m.under {} = n.under {}) : m.core.body = n.core.body := congrArg Node.core h

theorem commitOp_under {op : PoolOp} {m : Node} (hf : ∀ op k, k.core.body = m.core.body → (f op k).2.under F = k.under F) :
    (m.commitOp f op).under F = m.under F := by
  unfold Node.commitOp
  split
  · rfl
  · split
    · exact endOp_under F op _ _ _ m
    · split
      · exact endOp_under F op _ _ _ m
      · extract_lets r
        have hr : r.2.under F = m.under F := hf op (m.markCommitted op.order) rfl
        clear_value r
        split
        · rw [deliver_under, hr]
        · exact hr

/-- A row leaves a frame as it was where its command does, on every node with this core. -/
theorem packetRow_under {p : Packet} {n : Node} (hf : ∀ op k, k.core.body = n.core.body → (f op k).2.under F = k.under F) :
    (n.packetRow f p).under F = n.under F := by
  unfold Node.packetRow Node.whenCellar
  split
  · dsimp only
    generalize hr : n.arrive p (decide (p.words.length ≤ 250)) n.firstTick = r
    have hall : ∀ G : Frame, r.2.under G = n.under G := fun G => hr ▸ arrive_under G p _ _ n
    split
    · exact hall F
    · split
      · exact hall F
      · refine (commitOp_under fun op k hk => hf op k (hk.trans ?_)).trans (hall F)
        exact core_of_under (hall {})
  · rfl

end

/-- What stands in a node whatever its frame leaves out. -/
theorem under_stands {F : Frame} {m n : Node} (h : m.under F = n.under F) :
    (m.power = n.power ∧ m.time = n.time ∧ m.nonces = n.nonces ∧ m.restart = n.restart ∧ m.held = n.held ∧ m.adopted = n.adopted ∧
      m.steepWord = n.steepWord) ∧ F.line m.line = F.line n.line ∧ F.store m.store = F.store n.store ∧
      F.core m.core.body = F.core n.core.body := by
  simp only [Node.under, Node.mk.injEq, true_and] at h
  obtain ⟨hpower, htime, hnonces, hstore, hrestart, hheld, hadopted, hword, hline, hcore, _⟩ := h
  exact ⟨⟨hpower, htime, hnonces, hrestart, hheld, hadopted, hword⟩, hline, hstore, hcore⟩

end Sys2Proof.Machine
end

section
/-!
PROOFS. The frames of the motion and loop commands (08_motion.md R302, R303, R307 to R324): what a command may write is left out of its
frame, and no wait for rest but the command's own comes to its end.
-/
namespace Sys2Proof.Machine

/-- Motion writes slots and waits for rest. -/
def motionFrame : Frame := { core := fun k => { k with slots := ({} : Core).slots, rests := [] } }

/-- Loops and cascades write also items, outputs and faults. -/
def loopFrame : Frame :=
  { core := fun k => { k with
      slots := ({} : Core).slots, rests := [], params := ({} : Core).params, outs := ({} : Core).outs, faults := ({} : Core).faults } }

/-- What keeps the frame of motion keeps that of loops. -/
theorem under_loop_of_motion {m n : Node} (h : m.under motionFrame = n.under motionFrame) : m.under loopFrame = n.under loopFrame := by
  have hloop := congrArg (Node.under loopFrame) h
  exact hloop

/-- A frame stays, and so does an empty list of waits for rest. -/
def Node.Calm (F : Frame) (m n : Node) : Prop := m.under F = n.under F ∧ (n.core.rests = [] → m.core.rests = [])

theorem Node.Calm.trans {F : Frame} {a b c : Node} (h : a.Calm F b) (g : b.Calm F c) : a.Calm F c :=
  ⟨h.1.trans g.1, fun hc => h.2 (g.2 hc)⟩

theorem Node.Calm.toLoop {m n : Node} (h : m.Calm motionFrame n) : m.Calm loopFrame n := ⟨under_loop_of_motion h.1, h.2⟩

theorem rests_of_body {m n : Node} (h : m.core.body = n.core.body) : m.core.rests = n.core.rests := by
  have hrests := congrArg Core.rests h
  exact hrests

theorem calm_of_sameBut {F : Frame} {m n : Node} (h : m.SameBut n) : m.Calm F n :=
  ⟨under_of_sameBut F h, fun hn => (rests_of_body h.core).trans hn⟩

theorem eachOf_calm {α : Type} {F : Frame} {f : α → Node → Node} (hf : ∀ x m, (f x m).Calm F m) (xs : List α) (n : Node) :
    (eachOf xs f n).Calm F n :=
  eachOf_keeps (fun m => m.Calm F n) f xs (fun x _ m h => (hf x m).trans h) n ⟨rfl, id⟩

/-! ### Motion -/

theorem modSlot_calm (c : Ch) (f : Slot → Slot) (n : Node) : (n.modSlot c f).Calm motionFrame n := ⟨rfl, id⟩

theorem endMotion_calm (c : Ch) (st : Status) (n : Node) : (n.endMotion c st).Calm motionFrame n := by
  refine ⟨?_, endMotion_rests st⟩
  unfold Node.endMotion
  split
  · rfl
  · exact endOrder_under ..

theorem stopSlot_calm (c : Ch) (n : Node) : (n.stopSlot c).Calm motionFrame n := by
  unfold Node.stopSlot
  split
  · split
    · exact modSlot_calm ..
    · exact ⟨rfl, id⟩
  · split <;> exact ⟨rfl, id⟩

theorem stopBy_calm (c : Ch) (n : Node) : (n.stopBy c).Calm motionFrame n := by
  unfold Node.stopBy
  split
  · exact (stopSlot_calm c _).trans (endMotion_calm _ .aborted n)
  · exact stopSlot_calm c n

theorem overshoot_calm (c : Ch) (tag : BitVec 12) (client : BitVec 8) (o : Int) (n : Node) :
    (n.overshoot c tag client o).Calm motionFrame n := calm_of_sameBut (event_sameBut ..)

theorem passAct_calm (c : Ch) (n : Node) : (n.passAct c).Calm motionFrame n := by
  unfold Node.passAct
  dsimp only
  split <;> exact modSlot_calm ..

theorem takeMove_calm (op : PoolOp) (c : Ch) (j : MoveJudge) (n : Node) : (n.takeMove op c j).2.Calm motionFrame n := by
  have hended := endMotion_calm c .aborted n
  unfold Node.takeMove
  cases j with
  | passed => exact (passAct_calm c _).trans hended
  | go segs target beyond =>
    cases beyond with
    | none => exact (modSlot_calm c _ _).trans hended
    | some x => exact (overshoot_calm c _ _ x _).trans ((modSlot_calm c _ _).trans hended)

theorem cmdMoveTo_under (op : PoolOp) (n : Node) : (cmdMoveTo op n).2.under motionFrame = n.under motionFrame := by
  unfold cmdMoveTo
  dsimp only
  split
  · rfl
  · split
    · rfl
    · exact (takeMove_calm op _ _ n).1

theorem cmdMoveBy_under (op : PoolOp) (n : Node) : (cmdMoveBy op n).2.under motionFrame = n.under motionFrame := by
  unfold cmdMoveBy
  dsimp only
  split
  · rfl
  · exact (takeMove_calm op _ _ n).1

theorem cmdJog_under (op : PoolOp) (n : Node) : (cmdJog op n).2.under motionFrame = n.under motionFrame := by
  unfold cmdJog
  dsimp only
  split
  · rfl
  · split
    · rfl
    · split
      · rfl
      · split
        · rfl
        · exact ((modSlot_calm _ _ _).trans (endMotion_calm _ .aborted n)).1

theorem stopNamed_calm (op : PoolOp) (c : Ch) (n : Node) : (n.stopNamed op c).Calm motionFrame n := by
  unfold Node.stopNamed
  dsimp only
  split
  · exact ⟨rfl, id⟩
  · exact (modSlot_calm _ _ _).trans ((stopSlot_calm c _).trans (endMotion_calm _ .aborted n))

/-! ### Waits for rest -/

theorem restDone_stop_under {w : RestWait} (hw : w.kind = .stop) (n : Node) : (n.restDone w).under motionFrame = n.under motionFrame := by
  unfold Node.restDone
  rw [hw]
  exact endOpt_under ..

/-- Waits of STOP come to their end within the frame of motion. -/
theorem settleRests_stop_under {n : Node} (h : ∀ w ∈ n.core.rests, w.kind = .stop) :
    n.settleRests.under motionFrame = n.under motionFrame := by
  unfold Node.settleRests
  refine eachOf_keeps (fun m => m.under motionFrame = n.under motionFrame) _ _ (fun w hw m hm => ?_) _ rfl
  have hstop := h w hw
  simp only [hstop, reduceCtorEq, if_false]
  split
  · exact (restDone_stop_under hstop m).trans hm
  · exact hm

theorem cmdStop_under {op : PoolOp} {n : Node} (h : n.core.rests = []) : (cmdStop op n).2.under motionFrame = n.under motionFrame := by
  unfold cmdStop
  split
  · rfl
  · extract_lets m w
    obtain ⟨hm, hrests⟩ : m.Calm motionFrame n := eachOf_calm (stopNamed_calm op) _ n
    refine (settleRests_stop_under ?_).trans hm
    rw [modCore_core, hrests h]
    exact fun v hv => (List.mem_singleton.mp hv) ▸ rfl

/-! ### Loops -/

@[simp] theorem cease_under_loop (f : FaultCode) (sc : Nat) (n : Node) : (n.cease f sc).under loopFrame = n.under loopFrame :=
  cease_part (Node.under loopFrame) (fun _ _ => rfl) (event_under loopFrame) f sc n

theorem cease_rests (f : FaultCode) (sc : Nat) (n : Node) : (n.cease f sc).core.rests = n.core.rests :=
  cease_part (fun m => m.core.rests) (fun _ _ => rfl) (fun ev s st ws m => rests_of_body (event_sameBut ev s st ws m).core) f sc n

theorem leaveGroup_under (c : Ch) (n : Node) : (n.leaveGroup c).under loopFrame = n.under loopFrame := by
  unfold Node.leaveGroup
  dsimp only
  split <;> rfl

theorem disable_under (c : Ch) (n : Node) : (n.disable c).under loopFrame = n.under loopFrame :=
  (cease_under_loop ..).trans (leaveGroup_under c n)

theorem restDone_disable_under {w : RestWait} (hw : w.kind = .disable) (n : Node) :
    (n.restDone w).under loopFrame = n.under loopFrame := by
  unfold Node.restDone
  rw [hw]
  exact endOpt_under ..

/-- Waits of a disable come to their end within the frame of loops. -/
theorem settleRests_disable_under {n : Node} (h : ∀ w ∈ n.core.rests, w.kind = .disable) :
    n.settleRests.under loopFrame = n.under loopFrame := by
  unfold Node.settleRests
  refine eachOf_keeps (fun m => m.under loopFrame = n.under loopFrame) _ _ (fun w hw m hm => ?_) _ rfl
  have hdis := h w hw
  have hdone : (eachOf (w.chs.filter m.atRest) Node.disable m).under loopFrame = n.under loopFrame :=
    (eachOf_under loopFrame Node.disable disable_under _ m).trans hm
  simp only [hdis, if_true]
  split
  · exact (restDone_disable_under hdis _).trans hdone
  · exact hdone

theorem loopDisable_under {op : PoolOp} {n : Node} (h : n.core.rests = []) :
    (loopDisable op n).2.under loopFrame = n.under loopFrame := by
  unfold loopDisable
  dsimp only
  split
  · rfl
  · generalize hm : eachOf (n.chans op.packet) (fun c m => if m.slotRunning c then m.stopBy c else m) n = m
    obtain ⟨hunder, hrests⟩ : m.Calm loopFrame n := by
      rw [← hm]
      refine eachOf_calm (fun c m => ?_) _ n
      split
      · exact (stopBy_calm c m).toLoop
      · exact ⟨rfl, id⟩
    refine (settleRests_disable_under ?_).trans hunder
    rw [modCore_core, hrests h]
    exact fun v hv => (List.mem_singleton.mp hv) ▸ rfl

theorem startSlot_under (c : Ch) (n : Node) : (n.startSlot c).under loopFrame = n.under loopFrame := by
  unfold Node.startSlot
  extract_lets held m k i vc j kd lim
  have hm : m.under loopFrame = n.under loopFrame := by
    show (if n.rank3 c && !n.caskHolds then n.modOut c (endRank3 (n.clrCode c)) else n).under loopFrame = _
    split <;> rfl
  exact hm

theorem enableLoop_under (cl : Client) (c : Ch) (n : Node) : (n.enableLoop cl c).under loopFrame = n.under loopFrame := by
  unfold Node.enableLoop
  extract_lets run m
  have hm : m.under loopFrame = n.under loopFrame := rfl
  clear_value run m
  split
  · exact (startSlot_under c m).trans hm
  · exact hm

theorem loopEnable_under (op : PoolOp) (n : Node) : (loopEnable op n).2.under loopFrame = n.under loopFrame := by
  unfold loopEnable
  dsimp only
  split
  · rfl
  · split
    · rfl
    · exact eachOf_under loopFrame _ (enableLoop_under op.client) _ n

theorem cmdLoopEnable_under {op : PoolOp} {n : Node} (h : n.core.rests = []) :
    (cmdLoopEnable op n).2.under loopFrame = n.under loopFrame := by
  unfold cmdLoopEnable
  split
  · exact loopEnable_under op n
  · exact loopDisable_under h

/-! ### PARK -/

theorem parkOne_calm (c : Ch) (n : Node) : (n.parkOne c).Calm loopFrame n :=
  ⟨cease_under_loop .., fun h => (cease_rests ..).trans h⟩

theorem parkSlot_calm (c : Ch) {n : Node} (h : n.core.rests = []) : (n.parkSlot c).Calm loopFrame n := by
  unfold Node.parkSlot
  extract_lets m1 m2
  have hm2 : m2.Calm loopFrame n := by
    have hm1 : m1.Calm loopFrame n := (endMotion_calm c .aborted n).toLoop
    show (if m1.kind c = .follower then m1.stopBy c else m1).Calm loopFrame n
    split
    · exact (stopBy_calm c m1).toLoop.trans hm1
    · exact hm1
  have hparked := (parkOne_calm c m2).trans hm2
  rwa [settleRests_of_none (hparked.2 h)]

theorem cmdPark_under {op : PoolOp} {n : Node} (h : n.core.rests = []) : (cmdPark op n).2.under loopFrame = n.under loopFrame := by
  unfold cmdPark
  split
  · rfl
  · have hall := eachOf_keeps (fun m => m.under loopFrame = n.under loopFrame ∧ m.core.rests = []) Node.parkSlot (n.chans op.packet)
      (fun c _ m hm => ⟨(parkSlot_calm c hm.2).1.trans hm.1, (parkSlot_calm c hm.2).2 hm.2⟩) n ⟨rfl, h⟩
    exact hall.1

/-! ### CASCADE_SET -/

theorem installFollowers_under (l : Nat) (fs : List (Nat × Int)) (n : Node) :
    (n.installFollowers l fs).under loopFrame = n.under loopFrame := by
  unfold Node.installFollowers
  refine (eachOf_under loopFrame _ (fun f m => ?_) fs _).trans (eachCh_under loopFrame _ (fun c m => ?_) n)
  · split
    · exact leaveGroup_under _ m
    · rfl
  · split <;> rfl

theorem setGroup_under (c : Ch) (fs : List (Nat × Int)) (n : Node) : (n.setGroup c fs).under loopFrame = n.under loopFrame := by
  unfold Node.setGroup
  dsimp only
  split
  · exact installFollowers_under _ fs n
  · exact installFollowers_under _ fs n

theorem cmdCascadeSet_under (op : PoolOp) (n : Node) : (cmdCascadeSet op n).2.under loopFrame = n.under loopFrame := by
  unfold cmdCascadeSet
  split
  · next c _ =>
    unfold cascadeSet
    extract_lets l fs own member busy far other was m
    have hm : m.under loopFrame = n.under loopFrame := setGroup_under c fs n
    clear_value l fs own member busy far other was m
    iterate 5
      split
      · rfl
    split
    · rfl
    · dsimp only
      split
      · exact hm
      · exact hm
  · exact installFollowers_under _ _ n

/-! ### Limits and gains -/

theorem rejudge_under (c : Ch) (n : Node) : (n.rejudge c).under motionFrame = n.under motionFrame := by
  unfold Node.rejudge
  dsimp only
  split
  · rfl
  · split
    · split
      · split
        · exact (overshoot_calm c _ _ _ _).1
        · rfl
      · exact ((passAct_calm c _).trans (endMotion_calm c .targetPassed n)).1
    · split
      · rfl
      · split <;> rfl

/-- Items of loops and profiles but the kind of a loop: their writing does nothing besides. -/
def Plain (id : Nat) : Prop := (id / 1024 = 0x0B ∨ id / 1024 = 0x0C) ∧ paramBase id ≠ Pid.ctlKind

theorem Plain.base_ne {id q : Nat} (h : Plain id) (hq : decide (q / 1024 = 0x0B ∨ q / 1024 = 0x0C) = false) : paramBase id ≠ q := by
  obtain ⟨hpage, _⟩ := h
  have hbase : paramBase id / 1024 = id / 1024 := by unfold paramBase; omega
  rw [decide_eq_false_iff_not] at hq
  intro he
  rw [he] at hbase
  omega

theorem Plain.itemWritten {id : Nat} (h : Plain id) (old v : Word) (n : Node) : n.itemWritten id old v = n := by
  have hpage := h.1
  unfold Node.itemWritten
  extract_lets base c
  rw [if_neg (h.base_ne rfl), if_neg (h.base_ne rfl), if_neg (by omega), if_neg (h.base_ne rfl), if_neg (by omega), if_neg h.2,
    if_neg (h.base_ne rfl), if_neg (h.base_ne rfl), if_neg (h.base_ne rfl), if_neg (h.base_ne rfl), if_neg (h.base_ne rfl),
    if_neg (h.base_ne rfl), if_neg (by omega), if_neg (h.base_ne rfl), if_neg (h.base_ne rfl),
    if_neg (not_or.mpr ⟨h.base_ne rfl, not_or.mpr ⟨h.base_ne rfl, h.base_ne rfl⟩⟩), if_neg (h.base_ne rfl)]

theorem writeItems_plain_under {items : List (Nat × Word)} (h : ∀ e ∈ items, Plain e.1) (n : Node) :
    (n.writeItems items).under loopFrame = n.under loopFrame := by
  have hchanged : (items.filter fun e => paramBase e.1 == Pid.inMode && n.core.params.get e.1 != e.2) = [] := by
    rw [List.filter_eq_nil_iff]
    intro e he hb
    exact (h e he).base_ne rfl (beq_iff_eq.mp (Bool.and_eq_true_iff.mp hb).1)
  have hmoves : (items.any fun e => e.1 / 1024 == 0x0A || paramBase e.1 == Pid.posOffset) = false := by
    rw [List.any_eq_false]
    intro e he hb
    obtain ⟨hpage, _⟩ := h e he
    rcases Bool.or_eq_true_iff.mp hb with hb | hb
    · have := beq_iff_eq.mp hb
      omega
    · exact (h e he).base_ne rfl (beq_iff_eq.mp hb)
  unfold Node.writeItems
  simp only [hchanged, hmoves, Bool.false_eq_true, if_false]
  refine (eachCh_under loopFrame _ (fun c m => ?_) _).trans (eachOf_keeps (fun m => m.under loopFrame = n.under loopFrame) _ items
    (fun e he m hm => ?_) _ rfl)
  · split
    · exact under_loop_of_motion (rejudge_under c m)
    · rfl
  · rwa [(h e he).itemWritten]

theorem localItem_id (n : Node) (e : Nat × Word) : (n.localItem e).1 = e.1 := by
  unfold Node.localItem
  split <;> rfl

/-- A command whose layout lists plain items alone. -/
theorem writeOp_plain_under {oc : Opcode} (h : ∀ p (c : Ch), ∀ e ∈ opItems oc p c.val, Plain e.1) (op : PoolOp) (n : Node) :
    (n.writeOp oc op).2.under loopFrame = n.under loopFrame := by
  unfold Node.writeOp
  dsimp only
  split
  · rfl
  · rfl
  · refine writeItems_plain_under (fun e he => ?_) n
    obtain ⟨c, _, hc⟩ := List.mem_flatMap.mp (List.mem_eraseDups.mp he)
    obtain ⟨e', he', rfl⟩ := List.mem_map.mp hc
    rw [localItem_id]
    exact h op.packet c e' he'

theorem plain_of_limits (p : Packet) (c : Ch) : ∀ e ∈ opItems .setLimits p c.val, Plain e.1 := by
  have hid : ∀ b ∈ [Pid.prfVmax, Pid.prfAmax, Pid.prfDmax, Pid.prfJmax], Plain (pidAt b c.val) := by
    unfold Plain
    revert c
    decide
  simpa [opItems] using hid

theorem plain_of_gains (p : Packet) (c : Ch) : ∀ e ∈ opItems .gainSet p c.val, Plain e.1 := by
  have hid : ∀ b ∈ [Pid.ctlKpp, Pid.ctlKip, Pid.ctlKpv, Pid.ctlKiv], Plain (pidAt b c.val) := by
    unfold Plain
    revert c
    decide
  simpa [opItems] using hid

end Sys2Proof.Machine
end

section
/-!
PROOFS. The frames of the output and wave commands, of latches and hops, and of the line and firmware commands
(07_green_and_kilned.md R255 to R283; 10_analog_outputs.md R341 to R357; 12_grenrus_line.md R431 to R458; 16_firmware_and_store.md R548 to
R553), and the frame of every family.
-/
namespace Sys2Proof.Machine

/-! ### Outputs and waves -/

/-- Outputs and waves, with the strobes asked for and the writes that persist a table. -/
def waveFrame : Frame :=
  { core := fun k => { k with outs := ({} : Core).outs, waves := ({} : Core).waves, strobes := 0 }
    store := fun s => { s with writes := [] } }

theorem modOut_under (c : Ch) (f : AOut → AOut) (n : Node) : (n.modOut c f).under waveFrame = n.under waveFrame := rfl

theorem modWaves_under (f : Waves → Waves) (n : Node) : (n.modWaves f).under waveFrame = n.under waveFrame := rfl

theorem storeWrite_under (k : WriteKind) (op : Option Nat) (ws : List Word) (n : Node) :
    (n.storeWrite k op ws).under waveFrame = n.under waveFrame := rfl

theorem cmdDacWrite_under (op : PoolOp) (n : Node) : (cmdDacWrite op n).2.under waveFrame = n.under waveFrame := by
  unfold cmdDacWrite
  dsimp only
  split
  · rfl
  · exact eachOf_under waveFrame _ (fun e m => modOut_under _ _ m) _ n

theorem strobeOut_under (c : Ch) (n : Node) : (n.strobeOut c).under waveFrame = n.under waveFrame := by
  unfold Node.strobeOut
  extract_lets loads m
  have hm : m.under waveFrame = n.under waveFrame := by
    show (if loads then n.modOut c _ else n).under waveFrame = _
    split <;> rfl
  exact hm

theorem strobeGroup_under (b : Bool) (n : Node) : (n.strobeGroup b).under waveFrame = n.under waveFrame := by
  unfold Node.strobeGroup
  refine eachCh_under waveFrame _ (fun c m => ?_) n
  split
  · exact strobeOut_under c m
  · rfl

theorem cmdDacStrobe_under (op : PoolOp) (n : Node) : (cmdDacStrobe op n).2.under waveFrame = n.under waveFrame := by
  unfold cmdDacStrobe
  extract_lets mask bad asked first both
  have hasked : asked.under waveFrame = n.under waveFrame := rfl
  have hfirst : first.under waveFrame = n.under waveFrame := by
    show (if mask.testBit 0 then asked.strobeGroup false else asked).under waveFrame = _
    split
    · exact (strobeGroup_under false asked).trans hasked
    · exact hasked
  have hboth : both.under waveFrame = n.under waveFrame := by
    show (if mask.testBit 1 then first.strobeGroup true else first).under waveFrame = _
    split
    · exact (strobeGroup_under true first).trans hfirst
    · exact hfirst
  split
  · rfl
  · split
    · exact hasked
    · exact hboth

theorem unpersist_under (t : Nat) (n : Node) : (n.unpersist t).under waveFrame = n.under waveFrame := by
  unfold Node.unpersist
  dsimp only
  split <;> rfl

theorem waveSeal_under (op : PoolOp) (t : Nat) (n : Node) : (waveSeal op t n).2.under waveFrame = n.under waveFrame := by
  unfold waveSeal
  dsimp only
  split <;> rfl

theorem cmdWaveLoad_under (op : PoolOp) (n : Node) : (cmdWaveLoad op n).2.under waveFrame = n.under waveFrame := by
  unfold cmdWaveLoad
  dsimp only
  iterate 3
    split
    · rfl
  split
  · exact unpersist_under _ n
  · rfl
  · exact waveSeal_under op _ n
  · exact unpersist_under _ n

theorem waveStart_under (q : Playback) (n : Node) : (n.waveStart q).under waveFrame = n.under waveFrame := by
  unfold Node.waveStart
  split
  · rfl
  · exact eachOf_under waveFrame _ (fun c m => modOut_under c _ m) q.outs n

theorem cmdWavePlay_under (op : PoolOp) (n : Node) : (cmdWavePlay op n).2.under waveFrame = n.under waveFrame := by
  unfold cmdWavePlay
  dsimp only
  iterate 4
    split
    · rfl
  split
  · exact waveStart_under _ _
  · rfl

theorem endPlay_under (q : Playback) (st : Status) (reason : Nat) (n : Node) :
    (n.endPlay q st reason).under waveFrame = n.under waveFrame := by
  unfold Node.endPlay Node.waveEnd
  rw [endOrder_under, event_under]
  rfl

theorem cmdWaveStop_under (op : PoolOp) (n : Node) : (cmdWaveStop op n).2.under waveFrame = n.under waveFrame :=
  eachOf_under waveFrame _ (fun q m => endPlay_under q .aborted 2 m) _ n

/-! ### Latches and hops -/

/-- Latches stand in the positions; the entries of hops in a list of their own. -/
def hopFrame : Frame := { core := fun k => { k with pos := ({} : Core).pos, hops := [] } }

theorem latchLost_under (c : Ch) (st : Stamp) (n : Node) : (n.latchLost c st).under hopFrame = n.under hopFrame := by
  unfold Node.latchLost
  split
  · exact event_under hopFrame .latchLost c.val st [1] n
  · rfl

theorem capture_under (c : Ch) (src : LatchSource) (falling : Bool) (st : Stamp) (n : Node) :
    (n.capture c src falling st).under hopFrame = n.under hopFrame := by
  unfold Node.capture
  dsimp only
  split
  · exact latchLost_under c st _
  · rfl

theorem armTakes_under (c : Ch) (b falling : Bool) (st : Stamp) (n : Node) :
    (n.armTakes c b falling st).under hopFrame = n.under hopFrame := by
  unfold Node.armTakes
  split
  · rfl
  · split
    · rfl
    · extract_lets src a' m ended
      have hm : m.under hopFrame = n.under hopFrame := capture_under c src falling st n
      split
      · exact (endOrder_under ..).trans hm
      · exact hm

theorem offerEdge_under (c : Ch) (b falling : Bool) (st : Stamp) (n : Node) :
    (n.offerEdge c b falling st).under hopFrame = n.under hopFrame := by
  unfold Node.offerEdge
  split
  · exact armTakes_under c b falling st n
  · rfl

theorem endArm_under (c : Ch) (b : Bool) (n : Node) : (n.endArm c b).under hopFrame = n.under hopFrame := by
  unfold Node.endArm
  split
  · rfl
  · exact endOrder_under ..

theorem cmdLatchArm_under (op : PoolOp) (n : Node) : (cmdLatchArm op n).2.under hopFrame = n.under hopFrame := by
  have hended := endArm_under (n.chan op.packet) (bitOf (pw op.packet 0) 0) n
  unfold cmdLatchArm
  dsimp only
  split
  · exact hended
  · exact (eachOf_under hopFrame _ (fun e m => offerEdge_under _ _ _ _ m) _ _).trans hended

theorem cmdLatchRead_under (op : PoolOp) (n : Node) : (cmdLatchRead op n).2.under hopFrame = n.under hopFrame := by
  unfold cmdLatchRead
  dsimp only
  split <;> rfl

theorem armHops_under (op : PoolOp) (c : Ch) (es : List ((Word × Word × Word × Word) × (Int × Bool))) (n : Node) :
    (n.armHops op c es).2.under hopFrame = n.under hopFrame := by
  induction es generalizing n with
  | nil => rfl
  | cons e es ih => exact ih _

theorem cmdHopAdd_under (op : PoolOp) (n : Node) : (cmdHopAdd op n).2.under hopFrame = n.under hopFrame := by
  unfold cmdHopAdd
  dsimp only
  split
  · rfl
  · exact armHops_under op _ _ n

theorem removeHandles_under (ws : List Word) (n : Node) : (n.removeHandles ws).2.under hopFrame = n.under hopFrame := by
  induction ws generalizing n with
  | nil => rfl
  | cons w ws ih => exact ih _

theorem cmdHopRemove_under (op : PoolOp) (n : Node) : (cmdHopRemove op n).2.under hopFrame = n.under hopFrame := by
  unfold cmdHopRemove
  dsimp only
  split
  · exact removeHandles_under _ n
  · rfl
  · rfl

/-! ### The line -/

/-- The line alone. -/
def lineFrame : Frame := { line := fun _ => {} }

theorem cmdRollcallSurvey_under (op : PoolOp) (n : Node) : (cmdRollcallSurvey op n).2.under lineFrame = n.under lineFrame := by
  unfold cmdRollcallSurvey
  split <;> rfl

theorem cmdRollcallAssign_under (op : PoolOp) (n : Node) : (cmdRollcallAssign op n).2.under lineFrame = n.under lineFrame := by
  unfold cmdRollcallAssign
  split <;> rfl

theorem cmdRelock_under (op : PoolOp) (n : Node) : (cmdRelock op n).2.under lineFrame = n.under lineFrame := by
  unfold cmdRelock
  split <;> rfl

theorem cmdFold_under (op : PoolOp) (n : Node) : (cmdFold op n).2.under lineFrame = n.under lineFrame := by
  unfold cmdFold
  split
  · rfl
  · split <;> rfl

theorem cmdUnfold_under (op : PoolOp) (n : Node) : (cmdUnfold op n).2.under lineFrame = n.under lineFrame := by
  unfold cmdUnfold
  dsimp only
  split
  · rfl
  · split <;> rfl

theorem cmdLineStats_under (op : PoolOp) (n : Node) : (cmdLineStats op n).2.under lineFrame = n.under lineFrame := rfl

/-! ### Firmware -/

/-- The images with the waiting writes, the transfer, its check and the drain. -/
def fwFrame : Frame :=
  { core := fun k => { k with fw := none, fwCommit := none, drain := none }
    store := fun s => { s with images := ⟨{}, {}⟩, writes := [] } }

theorem dropTransfer_under (n : Node) : n.dropTransfer.under fwFrame = n.under fwFrame := by
  unfold Node.dropTransfer
  split <;> rfl

theorem abortBlocks_under (n : Node) : n.abortBlocks.under fwFrame = n.under fwFrame := by
  unfold Node.abortBlocks
  extract_lets isBlock gone m
  have hm : m.under fwFrame = n.under fwFrame := rfl
  have hended := eachOf_under fwFrame (fun (w : StoreWrite) (k : Node) => k.endOpt w.op .aborted [])
    (fun w k => endOpt_under fwFrame w.op .aborted [] k) gone m
  exact hended.trans hm

theorem cmdFwBegin_under (op : PoolOp) (n : Node) : (cmdFwBegin op n).2.under fwFrame = n.under fwFrame := by
  have hfreed : (n.abortBlocks.endOpt n.core.fwCommit .aborted []).dropTransfer.under fwFrame = n.under fwFrame := by
    rw [dropTransfer_under, endOpt_under, abortBlocks_under]
  unfold cmdFwBegin
  extract_lets w onTrial others freed b t m
  clear_value onTrial
  split
  · rfl
  · split
    · rfl
    · exact hfreed

theorem cmdFwBlock_under (op : PoolOp) (n : Node) : (cmdFwBlock op n).2.under fwFrame = n.under fwFrame := by
  unfold cmdFwBlock
  dsimp only
  split
  · rfl
  · split
    · rfl
    · split <;> rfl

theorem cmdFwCommit_under (op : PoolOp) (n : Node) : (cmdFwCommit op n).2.under fwFrame = n.under fwFrame := by
  unfold cmdFwCommit
  split
  · rfl
  · split <;> rfl

theorem cmdFwActivate_under (op : PoolOp) (n : Node) : (cmdFwActivate op n).2.under fwFrame = n.under fwFrame := by
  unfold cmdFwActivate
  split
  · rfl
  · split <;> rfl

/-! ### The families -/

theorem effect_under {F : Frame} {f : PoolOp → Node → Ans × Node} {c : Instr} {s : State} {q : Packet} {P : Node → Prop}
    (hrow : exec c s = s.upd (Node.packetRow f q)) (hf : ∀ op k, k.core.body = s.node.core.body → (f op k).2.under F = k.under F)
    (h : ∀ m : Node, m.under F = s.node.under F → P m) : Effect c s P :=
  ⟨_, hrow, h _ (packetRow_under hf)⟩

/-- What a core is from its part outside a frame, the parts left out put in as they were. -/
theorem core_refilled {F : Frame} {m n : Node} (fill : Core → Core) (h : m.under F = n.under F)
    (hfill : fill (F.core n.core.body) = n.core.body) : fill (F.core m.core.body) = n.core.body := by
  obtain ⟨_, _, _, hcore⟩ := under_stands h
  rw [hcore, hfill]

theorem motionFrame_holds {m n : Node} (hrests : n.core.rests = []) (h : m.under motionFrame = n.under motionFrame) :
    m.line = n.line ∧ m.store = n.store ∧ { m.core.body with slots := n.core.slots, rests := [] } = n.core.body := by
  obtain ⟨_, hline, hstore, _⟩ := under_stands h
  refine ⟨hline, hstore, core_refilled (fun k => { k with slots := n.core.slots }) h ?_⟩
  show ({ n.core.body with rests := [] } : Core) = n.core.body
  rw [← hrests]
  rfl

theorem loopFrame_holds {m n : Node} (hrests : n.core.rests = []) (h : m.under loopFrame = n.under loopFrame) :
    m.line = n.line ∧ m.store = n.store ∧
      { m.core.body with
        slots := n.core.slots, rests := [], params := n.core.params, outs := n.core.outs, faults := n.core.faults } = n.core.body := by
  obtain ⟨_, hline, hstore, _⟩ := under_stands h
  refine ⟨hline, hstore, core_refilled (fun k => { k with
    slots := n.core.slots, params := n.core.params, outs := n.core.outs, faults := n.core.faults }) h ?_⟩
  show ({ n.core.body with rests := [] } : Core) = n.core.body
  rw [← hrests]
  rfl

theorem waveFrame_holds {m n : Node} (h : m.under waveFrame = n.under waveFrame) :
    m.line = n.line ∧ { m.store with writes := n.store.writes } = n.store ∧
      { m.core.body with outs := n.core.outs, waves := n.core.waves, strobes := n.core.strobes } = n.core.body := by
  obtain ⟨_, hline, hstore, _⟩ := under_stands h
  have hwrites := congrArg (fun x : Store => { x with writes := n.store.writes }) hstore
  exact ⟨hline, hwrites, core_refilled (fun k => { k with
    outs := n.core.outs, waves := n.core.waves, strobes := n.core.strobes }) h rfl⟩

theorem hopFrame_holds {m n : Node} (h : m.under hopFrame = n.under hopFrame) :
    m.line = n.line ∧ m.store = n.store ∧ { m.core.body with pos := n.core.pos, hops := n.core.hops } = n.core.body := by
  obtain ⟨_, hline, hstore, _⟩ := under_stands h
  exact ⟨hline, hstore, core_refilled (fun k => { k with pos := n.core.pos, hops := n.core.hops }) h rfl⟩

theorem fwFrame_holds {m n : Node} (h : m.under fwFrame = n.under fwFrame) :
    m.line = n.line ∧ { m.store with images := n.store.images, writes := n.store.writes } = n.store ∧
      { m.core.body with fw := n.core.fw, fwCommit := n.core.fwCommit, drain := n.core.drain } = n.core.body := by
  obtain ⟨_, hline, hstore, _⟩ := under_stands h
  have hwrites := congrArg (fun x : Store => { x with images := n.store.images, writes := n.store.writes }) hstore
  exact ⟨hline, hwrites, core_refilled (fun k => { k with
    fw := n.core.fw, fwCommit := n.core.fwCommit, drain := n.core.drain }) h rfl⟩

/-- Settles O60: each command leaves its family's frame as it was, whatever operation it runs for, and the row does no more. -/
theorem familiesStayInTheirPlace : Obligations.FamiliesStayInTheirPlace := by
  intro s p n still
  have hstill : ∀ {F : Frame} {m : Node}, m.under F = n.under F → still m := fun h => (under_stands h).1
  refine ⟨fun hrests => ?_, fun hrests => ?_, ?_, ?_, ?_, ?_⟩
  · have hframe := fun m h => And.intro (hstill (m := m) h) (motionFrame_holds hrests h)
    simp only [List.forall_mem_cons, List.not_mem_nil, false_imp_iff, implies_true, and_true]
    exact ⟨effect_under rfl (fun op k _ => cmdMoveTo_under op k) hframe, effect_under rfl (fun op k _ => cmdMoveBy_under op k) hframe,
      effect_under rfl (fun op k _ => cmdJog_under op k) hframe,
      effect_under rfl (fun op k hk => cmdStop_under ((rests_of_body hk).trans hrests)) hframe⟩
  · have hframe := fun m h => And.intro (hstill (m := m) h) (loopFrame_holds hrests h)
    simp only [List.forall_mem_cons, List.not_mem_nil, false_imp_iff, implies_true, and_true]
    exact ⟨effect_under rfl (fun op k hk => cmdPark_under ((rests_of_body hk).trans hrests)) hframe,
      effect_under rfl (fun op k hk => cmdLoopEnable_under ((rests_of_body hk).trans hrests)) hframe,
      effect_under rfl (fun op k hk => cmdLoopEnable_under ((rests_of_body hk).trans hrests)) hframe,
      effect_under rfl (fun op k _ => cmdCascadeSet_under op k) hframe,
      effect_under rfl (fun op k _ => writeOp_plain_under plain_of_limits op k) hframe,
      effect_under rfl (fun op k _ => writeOp_plain_under plain_of_gains op k) hframe⟩
  · have hframe := fun m h => And.intro (hstill (m := m) h) (waveFrame_holds h)
    have hload := fun op k (_ : k.core.body = n.core.body) => cmdWaveLoad_under op k
    simp only [List.forall_mem_cons, List.not_mem_nil, false_imp_iff, implies_true, and_true]
    exact ⟨effect_under rfl (fun op k _ => cmdDacWrite_under op k) hframe, effect_under rfl (fun op k _ => cmdDacStrobe_under op k) hframe,
      effect_under rfl hload hframe, effect_under rfl hload hframe, effect_under rfl hload hframe, effect_under rfl hload hframe,
      effect_under rfl (fun op k _ => cmdWavePlay_under op k) hframe, effect_under rfl (fun op k _ => cmdWaveStop_under op k) hframe⟩
  · have hframe := fun m h => And.intro (hstill (m := m) h) (hopFrame_holds h)
    have harm := fun op k (_ : k.core.body = n.core.body) => cmdLatchArm_under op k
    have hremove := fun op k (_ : k.core.body = n.core.body) => cmdHopRemove_under op k
    simp only [List.forall_mem_cons, List.not_mem_nil, false_imp_iff, implies_true, and_true]
    exact ⟨effect_under rfl harm hframe, effect_under rfl harm hframe, effect_under rfl (fun op k _ => cmdLatchRead_under op k) hframe,
      effect_under rfl (fun op k _ => cmdHopAdd_under op k) hframe, effect_under rfl hremove hframe, effect_under rfl hremove hframe,
      effect_under rfl hremove hframe⟩
  · have hframe : ∀ m, m.under lineFrame = n.under lineFrame → still m ∧ m.store = n.store ∧ m.core.body = n.core.body :=
      fun m h => ⟨hstill h, (under_stands h).2.2⟩
    simp only [List.forall_mem_cons, List.not_mem_nil, false_imp_iff, implies_true, and_true]
    exact ⟨effect_under rfl (fun op k _ => cmdRollcallSurvey_under op k) hframe,
      effect_under rfl (fun op k _ => cmdRollcallAssign_under op k) hframe, effect_under rfl (fun op k _ => cmdRelock_under op k) hframe,
      effect_under rfl (fun op k _ => cmdFold_under op k) hframe, effect_under rfl (fun op k _ => cmdUnfold_under op k) hframe,
      effect_under rfl (fun op k _ => cmdLineStats_under op k) hframe⟩
  · have hframe := fun m h => And.intro (hstill (m := m) h) (fwFrame_holds h)
    simp only [List.forall_mem_cons, List.not_mem_nil, false_imp_iff, implies_true, and_true]
    exact ⟨effect_under rfl (fun op k _ => cmdFwBegin_under op k) hframe, effect_under rfl (fun op k _ => cmdFwBlock_under op k) hframe,
      effect_under rfl (fun op k _ => cmdFwCommit_under op k) hframe, effect_under rfl (fun op k _ => cmdFwActivate_under op k) hframe⟩

end Sys2Proof.Machine
end

section
/-!
PROOFS. Links, roles and folding (12_grenrus_line.md R401, R403, R427, R438, R439; 13_line_failures.md R449 to R459).
-/
namespace Sys2Proof.Machine

/-! ### What leaves the line's side alone -/

theorem line_of_under {m n : Node} (h : m.under {} = n.under {}) : m.line = n.line := (under_stands h).2.1

@[simp] theorem arrive_line (p : Packet) (ok : Bool) (first : Nat) (n : Node) : (n.arrive p ok first).2.line = n.line :=
  line_of_under (arrive_under {} p ok first n)

@[simp] theorem endOrder_line (o : Nat) (st : Status) (ws : List Word) (n : Node) : (n.endOrder o st ws).line = n.line :=
  (endOrder_sameBut o st ws n).line

@[simp] theorem endOrders_line (os : List Nat) (st : Status) (ws : List Word) (n : Node) : (n.endOrders os st ws).line = n.line :=
  eachOf_part Node.line _ (fun o m => endOrder_line o st ws m) os n

@[simp] theorem hostErrors_line (k : Nat) (n : Node) : (n.hostErrors k).line = n.line := by
  unfold Node.hostErrors
  split <;> rfl

@[simp] theorem setMark_line (k : TimeMark) (n : Node) : (n.setMark k).line = n.line := by
  unfold Node.setMark
  split
  · rfl
  · exact event_line ..

theorem setMark_mark (k : TimeMark) (n : Node) : (n.setMark k).time.mark = k := by
  unfold Node.setMark
  split
  · assumption
  · dsimp only
    rw [(event_sameBut ..).time]
    rfl

/-- The allowance of a CMD frame's bytes and whether CYC frames are left out (R423). -/
def Node.fitted (a : Option Nat) (b : Bool) (n : Node) : Node := n.modLine fun l => { l with allow := a, noCycSent := b }

theorem headFits_cases (n : Node) :
    n.headFits = n ∨ n.headFits = (n.fitted none false).cease .lineCycle 0xFF ∨ ∃ a b, n.headFits = n.fitted a b := by
  unfold Node.headFits
  by_cases hheads : n.heading = true
  · simp only [hheads, Bool.not_true, Bool.false_eq_true, if_false]
    by_cases hfits : n.minCycle (n.parN Pid.lineOutlen 0) (n.parN Pid.lineCmdbytes 0) ≤ n.cycleLen
    · rw [if_pos hfits]
      exact .inr (.inl rfl)
    · rw [if_neg hfits]
      by_cases hbare : n.cycleLen < n.minCycle (n.parN Pid.lineOutlen 0) 0
      · rw [if_pos hbare]
        exact .inr (.inr ⟨_, _, rfl⟩)
      · rw [if_neg hbare]
        exact .inr (.inr ⟨_, _, rfl⟩)
  · simp [hheads]

theorem headFits_line (n : Node) : ∃ a b, n.headFits.line = { n.line with allow := a, noCycSent := b } := by
  obtain h | h | ⟨a, b, h⟩ := headFits_cases n <;> rw [h]
  · exact ⟨_, _, rfl⟩
  · exact ⟨none, false, cease_line ..⟩
  · exact ⟨a, b, rfl⟩

theorem headJudged_line (n : Node) : ∃ a b, n.headJudged.line = { n.line with allow := a, noCycSent := b } := by
  obtain ⟨a, b, hfits⟩ := headFits_line n
  refine ⟨a, b, ?_⟩
  unfold Node.headJudged
  dsimp only
  split
  · rw [trip_line, hfits]
  · exact hfits

/-! ### Roles -/

/-- The links that the latest topology change saw. -/
def Line.seen (l : Line) : Bool × Bool := (l.seenUp, l.seenDn)

theorem takeRole_line (n : Node) : n.takeRole.line.role = n.roleNow ∧ n.takeRole.line.seen = n.line.seen := by
  unfold Node.takeRole
  extract_lets r was taken caused marked lost
  split
  · next h => exact ⟨h.symm, rfl⟩
  · have hmarked : marked.line = taken.line := by
      show (if r = .head then _ else caused).line = _
      split
      · exact setMark_line ..
      · rfl
    split
    · rw [hostErrors_line, modHost_line, hmarked]
      exact ⟨rfl, rfl⟩
    · rw [hmarked]
      exact ⟨rfl, rfl⟩

theorem roleInForce_line (n : Node) : n.roleInForce.line.role = n.roleNow ∧ n.roleInForce.line.seen = n.line.seen := by
  have htaken := takeRole_line n
  unfold Node.roleInForce
  dsimp only
  split
  · obtain ⟨a, b, hjudged⟩ := headJudged_line n.takeRole
    rw [hjudged]
    exact htaken
  · exact htaken

theorem roleInForce_of_same {n : Node} (h : n.roleNow = n.line.role) : n.roleInForce = n := by
  have htaken : n.takeRole = n := by
    unfold Node.takeRole
    rw [if_pos h]
  unfold Node.roleInForce
  rw [htaken]
  simp

/-! ### Links -/

theorem linkChange_gain {n : Node} (h : n.line.linkUp = false) : n.linkChange .up true = n.modLine fun l =>
    { l with linkUp := true, syncs := 0, delay := none, rt := none, rejectRun := 0 } := by
  simp [Node.linkChange, h]

theorem linkChange_loss {n : Node} (h : n.line.linkDn = true) : n.linkChange .dn false = n.modLine fun l =>
    { l with linkDn := false, lossDn := l.lossDn + 1 } := by
  simp [Node.linkChange, h]

@[simp] theorem topologyEvent_line (q : LinePort) (on : Bool) (n : Node) : (n.topologyEvent q on).line = n.line := by
  unfold Node.topologyEvent
  dsimp only
  split
  · exact event_line ..
  · rfl

theorem topologyEvent_core (q : LinePort) (on : Bool) (n : Node) : (n.topologyEvent q on).core = n.core := by
  unfold Node.topologyEvent
  dsimp only
  split
  · exact event_core ..
  · rfl

/-- The link of UP is seen as it is. -/
def Line.seeUp (l : Line) : Line := { l with seenUp := l.linkUp }

/-- The link of DN is seen as it is. -/
def Line.seeDn (l : Line) : Line := { l with seenDn := l.linkDn }

theorem seeUp_of_seen {l : Line} (h : l.linkUp = l.seenUp) : l.seeUp = l := by
  cases l
  cases h
  rfl

theorem seeDn_of_seen {l : Line} (h : l.linkDn = l.seenDn) : l.seeDn = l := by
  cases l
  cases h
  rfl

/-- A topology change at UP: the event where the link is new. -/
def Node.seesUp (l : Line) (n : Node) : Node :=
  if l.linkUp != l.seenUp then (n.topologyEvent .up l.linkUp).modLine Line.seeUp else n

/-- A topology change at DN: the event where the link is new. -/
def Node.seesDn (l : Line) (n : Node) : Node :=
  if l.linkDn != l.seenDn then (n.topologyEvent .dn l.linkDn).modLine Line.seeDn else n

theorem seesUp_spec {l : Line} {n : Node} (hlink : n.line.linkUp = l.linkUp) (hseen : n.line.seenUp = l.seenUp) :
    (n.seesUp l).line = n.line.seeUp ∧ (n.seesUp l).core = n.core := by
  unfold Node.seesUp
  split
  · exact ⟨by rw [modLine_line, topologyEvent_line], by rw [modLine_core, topologyEvent_core]⟩
  · next hsame =>
    have hsame : l.linkUp = l.seenUp := by simpa using hsame
    exact ⟨(seeUp_of_seen (by rw [hlink, hseen, hsame])).symm, rfl⟩

theorem seesDn_spec {l : Line} {n : Node} (hlink : n.line.linkDn = l.linkDn) (hseen : n.line.seenDn = l.seenDn) :
    (n.seesDn l).line = n.line.seeDn ∧ (n.seesDn l).core = n.core := by
  unfold Node.seesDn
  split
  · exact ⟨by rw [modLine_line, topologyEvent_line], by rw [modLine_core, topologyEvent_core]⟩
  · next hsame =>
    have hsame : l.linkDn = l.seenDn := by simpa using hsame
    exact ⟨(seeDn_of_seen (by rw [hlink, hseen, hsame])).symm, rfl⟩

theorem parN_of_core {m n : Node} (h : m.core = n.core) (q i : Nat) : m.parN q i = n.parN q i := by
  unfold Node.parN
  rw [h]

/-- The links in force at a cycle start (R401, R457). -/
def Line.takeLinks (l : Line) : Line :=
  { l with
    roleUp := if l.folded && l.inTail && l.linkUp then l.roleUp else l.linkUp
    roleDn := if l.folded && !l.inTail && l.linkDn then l.roleDn else l.linkDn }

theorem takeLinks_of_unfolded {l : Line} (h : l.folded = false) : l.takeLinks.roleUp = l.linkUp ∧ l.takeLinks.roleDn = l.linkDn := by
  simp [Line.takeLinks, h]

theorem topologyChange_eq (n : Node) :
    n.topologyChange = (((n.seesUp n.line).seesDn n.line).modLine Line.takeLinks).roleInForce := rfl

/-- R401, R403: on an unfolded line the role follows the links. -/
theorem topologyChange_role {n : Node} (h : n.line.folded = false) :
    n.topologyChange.line.seenUp = n.line.linkUp ∧ n.topologyChange.line.seenDn = n.line.linkDn ∧
      n.topologyChange.line.role = roleOf (n.parN Pid.lineHeaden 0 == 1) n.line.linkUp n.line.linkDn := by
  obtain ⟨hup, hupcore⟩ := seesUp_spec (l := n.line) (n := n) rfl rfl
  obtain ⟨hdn, hdncore⟩ := seesDn_spec (l := n.line) (n := n.seesUp n.line) (by rw [hup]; rfl) (by rw [hup]; rfl)
  rw [hup] at hdn
  rw [topologyChange_eq]
  generalize (n.seesUp n.line).seesDn n.line = m at hdn hdncore
  obtain ⟨hrole, hseen⟩ := roleInForce_line (m.modLine Line.takeLinks)
  obtain ⟨hroleUp, hroleDn⟩ := takeLinks_of_unfolded (l := n.line.seeUp.seeDn) h
  rw [modLine_line, hdn] at hseen
  obtain ⟨hseenUp, hseenDn⟩ := Prod.mk.injEq .. ▸ hseen
  refine ⟨hseenUp, hseenDn, hrole.trans ?_⟩
  have hcore : (m.modLine Line.takeLinks).core = n.core := hdncore.trans hupcore
  rw [Node.roleNow, parN_of_core hcore, modLine_line, hdn, hroleUp, hroleDn]
  rfl

/-! ### Missing CYC frames -/

theorem cycTimeout_reported {n : Node} (hh : n.heading = false) (hm : n.parN Pid.lineCycto 0 ≤ n.line.cycMiss) :
    n.cycTimeout.reported .cycTimeout 0xFF := by
  unfold Node.cycTimeout
  rw [hh, decide_eq_true hm]
  exact trip_reported ..

/-! ### Folding -/

theorem foldEffect_head {n : Node} (hf : n.line.foldOps ≠ []) (hr : n.line.role = .head) : n.foldEffect = n.modLine fun l =>
    { l with foldOps := [], folded := true, rolls := { kind := .fold, ops := n.line.foldOps } :: l.rolls } := by
  unfold Node.foldEffect
  rw [if_neg (by simpa using hf)]
  exact if_pos hr

/-- What a tail head makes of its side of the line at a fold (R453, R456). -/
def Node.headsTail (n : Node) : Node :=
  n.modLine fun l =>
    { l with
      foldOps := [], folded := true, rolls := { kind := .fold, ops := n.line.foldOps } :: l.rolls, heading := true, inTail := true
      tailT := n.lockPos, hops := some 0, cycleNow := if n.line.cycleUs = 0 then 4000000 else n.line.cycleUs * 1000, cycStart := none
      delay := none }

theorem foldEffect_tail {n : Node} (hf : n.line.foldOps ≠ []) (hr : n.line.role ≠ .head) : n.foldEffect =
    (n.headsTail.modTime fun t => { t with slewing := false, offsetPs := 0, stepDue := none, returning := false }).setMark .lineTime := by
  unfold Node.foldEffect
  rw [if_neg (by simpa using hf)]
  exact if_neg hr

theorem foldEffect_folds {n : Node} (hf : n.line.foldOps ≠ []) : n.foldEffect.line.folded = true ∧ n.foldEffect.line.foldOps = [] ∧
    n.foldEffect.line.rolls = { kind := .fold, ops := n.line.foldOps } :: n.line.rolls := by
  by_cases hr : n.line.role = .head
  · rw [foldEffect_head hf hr]
    exact ⟨rfl, rfl, rfl⟩
  · rw [foldEffect_tail hf hr, setMark_line]
    exact ⟨rfl, rfl, rfl⟩

theorem foldEffect_heads {n : Node} (hf : n.line.foldOps ≠ []) (hr : n.line.role ≠ .head) : n.foldEffect.heading = true ∧
    n.foldEffect.line.inTail = true ∧ n.foldEffect.line.tailT = n.lockPos ∧ n.foldEffect.line.hops = some 0 ∧
    n.foldEffect.time.mark = .lineTime := by
  rw [foldEffect_tail hf hr, Node.heading, setMark_line, setMark_mark]
  exact ⟨Bool.or_true _, rfl, rfl, rfl, rfl⟩

/-- The line's side when a fold ends (R459). -/
def Line.unfolded (l : Line) : Line :=
  { l with
    unfoldAt := none, notice := none, folded := false, roleUp := l.linkUp, roleDn := l.linkDn
    delay := if l.inTail then none else l.delay, rt := if l.inTail then none else l.rt, inTail := false, tailT := 0, tailB := 0 }

theorem unfoldCycle_head {n : Node} {ops : List Nat} (hu : n.line.unfoldAt = some (n.cycleNo, ops)) (hr : n.line.role = .head)
    (he : n.parN Pid.lineHeaden 0 = 1) (hl : n.line.linkUp = false) :
    n.unfoldCycle = (n.modLine Line.unfolded).addRoll .unfold ops := by
  have hrole : (n.modLine Line.unfolded).roleNow = (n.modLine Line.unfolded).line.role := by
    show roleOf (n.parN Pid.lineHeaden 0 == 1) n.line.linkUp n.line.linkDn = n.line.role
    rw [he, hl, hr]
    rfl
  have hkept := roleInForce_of_same hrole
  unfold Node.unfoldCycle
  extract_lets now told noticed ops' tailHead m m'
  have htold : told = true := by simp [told, now, hu]
  have hops : ops' = ops := by simp [ops', htold, hu]
  have htail : tailHead = false := by simp [tailHead, hr]
  have hm' : m' = n.modLine Line.unfolded := hkept
  rw [htold, htail, hops, hm']
  rfl

end Sys2Proof.Machine
end

section
/-!
PROOFS. The cycles of a heading node and the end of a roll call (12_grenrus_line.md R410, R411, R421, R424, R431 to R434).
-/
namespace Sys2Proof.Machine

/-! ### A cycle starts -/

/-- What a cycle start sets of the line's side. -/
def Line.cycling (l : Line) : Option Nat × Nat × Nat := (l.cycStart, l.cycle, l.missed)

/-- What a cycle start finds. -/
def Line.setup (l : Line) : List RollCall × Bool × Bool × Option (Nat × List Nat) × Nat :=
  (l.rolls, l.surveyDue, l.noCycSent, l.unfoldAt, l.rt0)

/-- Whether the return train of the cycle before is missing (R421). -/
def Line.trainMissing (l : Line) : Bool := l.cyclesSent && !l.retCame

theorem cycleBlock_spec (k : Nat) (b : Bool) (cars : List (List Byte)) (n : Node) :
    (n.cycleBlock k b cars).time = n.time ∧ (n.cycleBlock k b cars).core = n.core ∧
      (n.cycleBlock k b cars).line = { n.line with mismatch := false } ∧
      (n.cycleBlock k b cars).host.mntQueue = n.host.mntQueue ∧ (n.cycleBlock k b cars).host.lineQueue = n.host.lineQueue :=
  ⟨rfl, rfl, rfl, rfl, rfl⟩

/-- R421: the judgement of the return train counts a missed cycle. -/
structure Node.ReturnJudged (m n : Node) : Prop where
  time : m.time = n.time
  core : m.core = n.core
  setup : m.line.setup = n.line.setup
  role : m.line.role = n.line.role
  heading : m.line.heading = n.line.heading
  cycleNow : m.line.cycleNow = n.line.cycleNow
  cycleUs : m.line.cycleUs = n.line.cycleUs
  mnt : m.host.mntQueue = n.host.mntQueue
  queue : m.host.lineQueue = n.host.lineQueue
  missed : m.line.missed = n.line.missed + if n.line.trainMissing then 1 else 0

theorem judgeReturn_judged (n : Node) : n.judgeReturn.ReturnJudged n := by
  show (if n.line.trainMissing then (n.modLine fun l => { l with missed := l.missed + 1 }).cycleBlock n.line.cycle true [] else n).ReturnJudged n
  by_cases h : n.line.trainMissing = true
  · rw [if_pos h]
    exact ⟨rfl, rfl, rfl, rfl, rfl, rfl, rfl, rfl, rfl, by rw [if_pos h]; rfl⟩
  · rw [if_neg h]
    exact ⟨rfl, rfl, rfl, rfl, rfl, rfl, rfl, rfl, rfl, by rw [if_neg h]; rfl⟩

theorem cycleNo_of_judged {m n : Node} (h : m.ReturnJudged n) : m.cycleNo = n.cycleNo := by
  unfold Node.cycleNo Node.cycleLen Node.heading Node.lt
  rw [h.time, h.role, h.heading, h.cycleNow, h.cycleUs, parN_of_core h.core]

/-- The cycle has begun: the return train is judged, and the cycle's start, length and number are taken (R410, R411). -/
def Node.cycleBegun (n : Node) : Node :=
  (n.judgeReturn.modLine fun l =>
    { l with
      cycStart := some n.judgeReturn.lt, cycleNow := n.cycleLen, cycle := n.judgeReturn.cycleNo, cycleUs := n.cycleLen / 1000 }).cause 2

/-- A survey that is due is queued where LINE.RCAUTO asks for it and no other waits (R435). -/
def Node.surveyed (n : Node) : Node :=
  if n.line.surveyDue then
    let n := n.modLine fun l => { l with surveyDue := false }
    if n.parN Pid.lineRcauto 0 = 1 ∧ n.line.rolls.isEmpty then n.addRoll .survey [] else n
  else n

/-- The SYNC frame of a heading node (R424). -/
def Node.syncFrame (n : Node) : TxFrame := { typ := 0x01, hdr := n.ownHdr, payload := syncBytes n.lt n.line.rt0 0 }

/-- The frames of a cycle without a roll call (R410, R414, R415). -/
def Node.plainCycle (n : Node) : Node :=
  let sync := n.syncFrame
  let n := n.modLine fun l => { l with rollCycle := false }
  let x := n.sendExtra
  let n := x.2
  if n.line.noCycSent then (n.modLine fun l => { l with cyclesSent := false, retCame := true }).send (sync :: x.1)
  else (n.modLine fun l => { l with cyclesSent := true, retCame := false }).send
    (sync :: x.1 ++ [{ typ := 0x02, hdr := n.ownHdr, payload := n.cycPayload }])

/-- The frames of a cycle (R410, R431): the first roll call that waits goes before CYC. -/
def Node.cycleFrames (n : Node) : Node :=
  match n.line.rolls with
  | r :: _ => n.sendRoll r n.syncFrame
  | [] => n.plainCycle

theorem cycleStart_eq {n : Node} (hh : n.heading = true) (hl : n.lt % n.cycleLen = 0) (hs : n.line.cycStart = none) :
    n.cycleStart = n.cycleBegun.surveyed.cycleFrames := by
  unfold Node.cycleStart
  extract_lets len early judged begun surveyed
  have hstarts : (!n.heading || n.lt % len != 0 || early) = false := by simp [early, len, hh, hl, hs]
  rw [if_neg (Bool.eq_false_iff.mp hstarts)]
  rfl

/-- The node as its cycle's frames find it. -/
theorem cycleBegun_spec (n : Node) : n.cycleBegun.time = n.time ∧ n.cycleBegun.line.setup = n.line.setup ∧
    n.cycleBegun.line.cycling = (some n.lt, n.cycleNo, n.line.missed + if n.line.trainMissing then 1 else 0) ∧
    n.cycleBegun.host.mntQueue = n.host.mntQueue ∧ n.cycleBegun.host.lineQueue = n.host.lineQueue := by
  have hj := judgeReturn_judged n
  have hlt : n.judgeReturn.lt = n.lt := by rw [Node.lt, hj.time]; rfl
  refine ⟨hj.time, hj.setup, ?_, hj.mnt, hj.queue⟩
  show (some n.judgeReturn.lt, n.judgeReturn.cycleNo, n.judgeReturn.line.missed) = _
  rw [hlt, cycleNo_of_judged hj, hj.missed]

theorem surveyed_spec (n : Node) : n.surveyed.time = n.time ∧ n.surveyed.line.cycling = n.line.cycling ∧
    n.surveyed.line.rt0 = n.line.rt0 := by
  unfold Node.surveyed
  dsimp only
  split
  · split <;> exact ⟨rfl, rfl, rfl⟩
  · exact ⟨rfl, rfl, rfl⟩

/-- Where a roll call waits already, no survey is queued. -/
theorem surveyed_rolls {n : Node} (h : n.line.rolls ≠ []) : n.surveyed.line.rolls = n.line.rolls := by
  unfold Node.surveyed
  dsimp only
  split
  · split
    · next hsurvey => exact absurd (List.isEmpty_iff.mp hsurvey.2) h
    · rfl
  · rfl

theorem surveyed_of_none {n : Node} (h : n.line.surveyDue = false) : n.surveyed = n := by
  unfold Node.surveyed
  rw [h]
  rfl

/-! ### A roll call -/

theorem lockKnown_line (o : Nat) (n : Node) : (n.lockKnown o).line = { n.line with outcome := some o } := rfl

theorem layoutInForce_cycling (n : Node) : n.layoutInForce.line.cycling = n.line.cycling ∧ n.layoutInForce.line.rolls = n.line.rolls := by
  unfold Node.layoutInForce
  split <;> exact ⟨rfl, rfl⟩

theorem takeRollCall_cycling (mode : Nat) (sig : Word) (n : Node) :
    (n.takeRollCall mode sig).line.cycling = n.line.cycling ∧ (n.takeRollCall mode sig).line.rolls = n.line.rolls := by
  unfold Node.takeRollCall
  extract_lets hop assign stores m o m'
  have hm : m.line.cycling = n.line.cycling ∧ m.line.rolls = n.line.rolls := by
    show (if stores then n.modLine _ else n).line.cycling = _ ∧ (if stores then n.modLine _ else n).line.rolls = _
    split <;> exact ⟨rfl, rfl⟩
  obtain ⟨hcycling, hrolls⟩ := layoutInForce_cycling (m'.lockKnown o)
  exact ⟨hcycling.trans hm.1, hrolls.trans hm.2⟩

/-- R431: the roll call's frame follows SYNC, and CYC is left out. -/
theorem sendRoll_spec (r : RollCall) (sync : TxFrame) (n : Node) : (n.sendRoll r sync).line.cycling = n.line.cycling ∧
    (n.sendRoll r sync).line.rolls = { r with sent := true } :: n.line.rolls.drop 1 ∧ (n.sendRoll r sync).line.cyclesSent = false ∧
    ∃ f : TxFrame, f.typ = 0x04 ∧ (n.sendRoll r sync).line.sent = [sync, f] := by
  unfold Node.sendRoll
  split
  next mode sig _ =>
  extract_lets taken rolled t payload
  obtain ⟨hcycling, hrolls⟩ : taken.line.cycling = n.line.cycling ∧ taken.line.rolls = n.line.rolls := takeRollCall_cycling mode sig n
  have hline : rolled.line = { taken.line with
    rolls := { r with sent := true } :: taken.line.rolls.drop 1, cyclesSent := false, retCame := true } := rfl
  clear_value taken rolled t payload
  rw [Node.send, modLine_line, hline, hrolls]
  exact ⟨hcycling, rfl, rfl, _, rfl, rfl⟩

/-! ### A cycle without a roll call -/

theorem lineArrive_cycling (bs : List Byte) (n : Node) : (n.lineArrive bs).line.cycling = n.line.cycling := by
  unfold Node.lineArrive
  split
  · rfl
  · rw [arrive_line]

theorem fillCmd_cycling (es : List (BitVec 16 × List Byte)) (room : Nat) (acc : List Byte) (n : Node) :
    (Node.fillCmd es room acc n).2.2.line.cycling = n.line.cycling := by
  induction es generalizing room acc n with
  | nil => rfl
  | cons e es ih =>
    unfold Node.fillCmd
    dsimp only
    split
    · rw [ih, lineArrive_cycling]
    · split
      · rw [ih]
        split
        · exact lineArrive_cycling ..
        · rfl
      · rfl

theorem lineqCause_line (n : Node) : n.lineqCause.line = n.line := by
  unfold Node.lineqCause
  split <;> rfl

theorem broadcastSelf_line (bs : List Byte) (n : Node) : (n.broadcastSelf bs).line = n.line := by
  unfold Node.broadcastSelf Node.broadcastBlock
  dsimp only
  split
  · split
    · split <;> rfl
    · rfl
  · rfl

theorem sendExtra_cycling (n : Node) : n.sendExtra.2.line.cycling = n.line.cycling := by
  unfold Node.sendExtra
  split
  · rfl
  · split
    · rw [broadcastSelf_line]
      rfl
    · dsimp only
      rw [lineqCause_line]
      exact fillCmd_cycling _ _ _ n

/-- Nothing goes with SYNC and CYC where nothing waits (R410). -/
theorem sendExtra_of_idle {n : Node} (hu : n.line.unfoldAt = none) (hm : n.host.mntQueue = []) (hq : n.host.lineQueue = []) :
    n.sendExtra = ([], (n.modHost fun h => { h with lineQueue := [] }).lineqCause) := by
  unfold Node.sendExtra
  rw [hu, hm, hq]
  rfl

theorem plainCycle_cycling (n : Node) : n.plainCycle.line.cycling = n.line.cycling ∧
    n.plainCycle.line.sent.head? = some n.syncFrame := by
  have hextra := sendExtra_cycling (n.modLine fun l => { l with rollCycle := false })
  unfold Node.plainCycle
  dsimp only
  generalize (n.modLine fun l => { l with rollCycle := false }).sendExtra = x at hextra
  split <;> exact ⟨hextra, rfl⟩

theorem plainCycle_idle {n : Node} (hu : n.line.unfoldAt = none) (hm : n.host.mntQueue = []) (hq : n.host.lineQueue = [])
    (hc : n.line.noCycSent = false) : n.plainCycle.line.sent.map TxFrame.typ = [0x01, 0x02] ∧ n.plainCycle.line.cyclesSent = true ∧
      n.plainCycle.line.retCame = false := by
  have hidle := sendExtra_of_idle (n := n.modLine fun l => { l with rollCycle := false }) hu hm hq
  unfold Node.plainCycle
  dsimp only
  rw [hidle, lineqCause_line]
  rw [if_neg (by rw [modHost_line, modLine_line, hc]; exact Bool.false_ne_true)]
  exact ⟨rfl, rfl, rfl⟩

/-! ### The rows of a cycle start -/

section
variable {n : Node} (hh : n.heading = true) (hl : n.lt % n.cycleLen = 0) (hs : n.line.cycStart = none)
include hh hl hs

/-- R410, R421, R424: whatever the cycle sends, it begins with SYNC. -/
theorem cycleStart_begins :
    n.cycleStart.line.cycling = (some n.lt, n.cycleNo, n.line.missed + if n.line.trainMissing then 1 else 0) ∧
      n.cycleStart.line.sent.head?.map TxFrame.payload = some (syncBytes n.lt n.line.rt0 0) := by
  obtain ⟨htime, hsetup, hcycling, _, _⟩ := cycleBegun_spec n
  obtain ⟨hstime, hscycling, hsrt0⟩ := surveyed_spec n.cycleBegun
  rw [cycleStart_eq hh hl hs]
  have hrt0 : n.cycleBegun.line.rt0 = n.line.rt0 := congrArg (fun x => x.2.2.2.2) hsetup
  have hsync : n.cycleBegun.surveyed.syncFrame.payload = syncBytes n.lt n.line.rt0 0 := by
    show syncBytes n.cycleBegun.surveyed.lt n.cycleBegun.surveyed.line.rt0 0 = _
    rw [Node.lt, hstime, htime, hsrt0, hrt0]
    rfl
  generalize n.cycleBegun.surveyed = m at hscycling hsync
  rw [← hcycling, ← hscycling]
  unfold Node.cycleFrames
  split
  · next r rs _ =>
    obtain ⟨hroll, _, _, f, _, hsent⟩ := sendRoll_spec r m.syncFrame m
    exact ⟨hroll, by rw [hsent]; exact congrArg some hsync⟩
  · obtain ⟨hplain, hsent⟩ := plainCycle_cycling m
    exact ⟨hplain, by rw [hsent]; exact congrArg some hsync⟩

/-- R431: the first roll call that waits is sent. -/
theorem cycleStart_rolls {r : RollCall} {rs : List RollCall} (hr : n.line.rolls = r :: rs) :
    n.cycleStart.line.rolls = { r with sent := true } :: rs ∧ n.cycleStart.line.cyclesSent = false ∧
      n.cycleStart.line.sent.map TxFrame.typ = [0x01, 0x04] := by
  obtain ⟨_, hsetup, _⟩ := cycleBegun_spec n
  have hbegun : n.cycleBegun.line.rolls = r :: rs := (congrArg Prod.fst hsetup).trans hr
  have hrolls : n.cycleBegun.surveyed.line.rolls = r :: rs := (surveyed_rolls (by rw [hbegun]; exact List.cons_ne_nil _ _)).trans hbegun
  rw [cycleStart_eq hh hl hs, Node.cycleFrames, hrolls]
  obtain ⟨_, hsent, hcyc, f, htyp, hframes⟩ := sendRoll_spec r n.cycleBegun.surveyed.syncFrame n.cycleBegun.surveyed
  exact ⟨by rw [hsent, hrolls]; rfl, hcyc, by rw [hframes, List.map_cons, List.map_cons, htyp]; rfl⟩

/-- R410, R415: with nothing waiting, SYNC and CYC. -/
theorem cycleStart_plain (hr : n.line.rolls = []) (hd : n.line.surveyDue = false) (hc : n.line.noCycSent = false)
    (hu : n.line.unfoldAt = none) (hm : n.host.mntQueue = []) (hq : n.host.lineQueue = []) :
    n.cycleStart.line.sent.map TxFrame.typ = [0x01, 0x02] ∧ n.cycleStart.line.cyclesSent = true ∧ n.cycleStart.line.retCame = false := by
  obtain ⟨_, hsetup, _, hmnt, hqueue⟩ := cycleBegun_spec n
  simp only [Line.setup, Prod.mk.injEq] at hsetup
  obtain ⟨hrolls, hdue, hno, hunfold, _⟩ := hsetup
  rw [cycleStart_eq hh hl hs, surveyed_of_none (hdue.trans hd), Node.cycleFrames, hrolls, hr]
  exact plainCycle_idle (hunfold.trans hu) (hmnt.trans hm) (hqueue.trans hq) (hno.trans hc)

end

end Sys2Proof.Machine
end

section
/-!
PROOFS. The end of a roll call (12_grenrus_line.md R433, R434), and the obligation on links, cycles and folding.
-/
namespace Sys2Proof.Machine

/-! ### A frame that returns -/

/-- R246: a returning frame that passed its check. -/
theorem receive_of_returning {h : FrameHdr} {n : Node} (typ : Byte) (bs : List Byte) (f : Bool → Node → Node)
    (hd : n.frameDir h = some true) (he : h.ending = .good) :
    ∃ hdr, n.receive h typ bs f = f true ((n.takeHeader h true).send [{ typ := typ, hdr := hdr, payload := bs }]) := by
  have hcheck : n.checkFrame h true = (.good, n) := by
    unfold Node.checkFrame
    simp [he]
  unfold Node.receive
  simp only [hd, hcheck]
  exact ⟨_, rfl⟩

/-- What a returning frame leaves of the node's place on the line. -/
def Line.place (l : Line) : LineRole × Bool × List RollCall := (l.role, l.heading, l.rolls)

theorem takeHeader_returning (h : FrameHdr) (n : Node) :
    (n.takeHeader h true).line.place = n.line.place ∧ (n.takeHeader h true).stores = n.stores := by
  unfold Node.takeHeader
  extract_lets enters taken judged missed
  have hjudged : judged.line.place = n.line.place ∧ judged.stores = n.stores := by
    refine ⟨?_, (judgeCrc_stores false taken).trans rfl⟩
    show (taken.judgeCrc false).line.place = _
    rw [judgeCrc_line]
    rfl
  rw [if_neg (by simp)]
  exact hjudged

theorem heading_of_place {m n : Node} (h : m.line.place = n.line.place) : m.heading = n.heading := by
  simp only [Line.place, Prod.mk.injEq] at h
  rw [Node.heading, h.1, h.2.1]
  rfl

/-! ### The cars of a roll call -/

theorem rcCars_length (f : Nat) (bs : List Byte) (hf : bs.length / 12 ≤ f) : (rcCars f bs).length = bs.length / 12 := by
  induction f generalizing bs with
  | zero =>
    rw [rcCars, List.length_nil]
    omega
  | succ f ih =>
    unfold rcCars
    split
    · rw [List.length_nil]
      omega
    · rw [List.length_cons, ih _ (by rw [List.length_drop]; omega), List.length_drop]
      omega

/-! ### Its end -/

theorem headFits_stores (n : Node) : n.headFits.stores = n.stores := by
  obtain h | h | ⟨a, b, h⟩ := headFits_cases n <;> rw [h]
  · exact cease_part Node.stores (fun _ _ => rfl) event_stores _ _ _
  · rfl

theorem headJudged_stores (n : Node) : n.headJudged.stores = n.stores := by
  unfold Node.headJudged
  dsimp only
  split
  · exact (trip_part Node.stores (fun _ _ => rfl) _ _ _ _ _ _).trans (headFits_stores n)
  · exact headFits_stores n

theorem pool_of_stores {m n : Node} (h : m.stores = n.stores) : m.core.pool = n.core.pool := congrArg (fun x => x.2.2) h

/-- The only operation of the pool ends. -/
theorem endOrder_pool_of_single {n : Node} {op : PoolOp} (hp : n.core.pool = [op]) (hs : op.side = .here) (st : Status)
    (ws : List Word) : (n.endOrder op.order st ws).core.pool = [] := by
  have hof : n.opOf op.order = some op := by simp [Node.opOf, hp]
  have hend : n.endOp op st (inPackets ws) false = (n.dropOp op.order).finish op.packet st (inPackets ws) false n.tick16 := by
    unfold Node.endOp
    rw [hs]
  rw [Node.endOrder, hof]
  dsimp only
  rw [hend, finish_core]
  simp [Node.dropOp, hp]

/-- R433, R434: a survey ends with the count of nodes. -/
theorem rollComplete_spec {n : Node} {bs : List Byte} {r : RollCall} {rs : List RollCall} {op : PoolOp} (hr : n.line.rolls = r :: rs)
    (hsent : r.sent = true) (hops : r.ops = [op.order]) (hp : n.core.pool = [op]) (hs : op.side = .here) :
    (n.rollComplete bs).line.rolls = rs ∧ (n.rollComplete bs).line.count = 1 + (bs.length - 8) / 12 ∧
      (n.rollComplete bs).core.pool = [] := by
  have hcars : (rcCars bs.length (bs.drop 8)).length = (bs.length - 8) / 12 := by
    rw [rcCars_length _ _ (by rw [List.length_drop]; omega), List.length_drop]
  unfold Node.rollComplete
  split
  · next hnone => exact absurd (hr.symm.trans hnone) (List.cons_ne_nil r rs)
  next r' rest hcons =>
  obtain ⟨rfl, rfl⟩ := List.cons.inj (hr.symm.trans hcons)
  rw [if_neg (by rw [hsent]; exact Bool.false_ne_true)]
  extract_lets car own nodes count same taken freed judged ok bad ws
  have hcount : count = 1 + (bs.length - 8) / 12 := by simp [count, nodes, hcars, Nat.add_comm]
  have htaken : taken.line.rolls = rs ∧ taken.line.count = count ∧ taken.core.pool = [op] := ⟨rfl, rfl, hp⟩
  have hfreed : freed.line = taken.line ∧ freed.core = taken.core := by
    show (if same then taken else taken.modHost _).line = _ ∧ (if same then taken else taken.modHost _).core = _
    split <;> exact ⟨rfl, rfl⟩
  have hpool : judged.core.pool = [op] := by
    rw [pool_of_stores (headJudged_stores freed), hfreed.2, htaken.2.2]
  obtain ⟨a, b, hline⟩ := headJudged_line freed
  have hjudged : judged.line.rolls = rs ∧ judged.line.count = count := by
    rw [hline, hfreed.1]
    exact ⟨htaken.1, htaken.2.1⟩
  clear_value ws count judged
  rw [endOrders_line, hops]
  exact ⟨hjudged.1, hjudged.2.trans hcount, endOrder_pool_of_single hpool hs .done ws⟩

/-- What the roll call's frame does where it returns. -/
def Node.rollReturned (payload : List Byte) (ret : Bool) (n : Node) : Node :=
  if ret && n.heading then (n.send []).rollComplete payload else n

theorem effect_rollcallComplete {s : State} {t : Nat} {h : FrameHdr} {bs : List Byte} {r : RollCall} {rs : List RollCall} {op : PoolOp}
    (hv : s.node.power.vcel = true) (hc : s.node.power.cresetn = true) (he : h.ending = .good)
    (hd : (s.node.atT t).frameDir h = some true) (hh : s.node.heading = true) (hr : s.node.line.rolls = r :: rs) (hsent : r.sent = true)
    (hops : r.ops = [op.order]) (hp : s.node.core.pool = [op]) (hs : op.side = .here) :
    Effect (.rollcallComplete h bs t) s fun m =>
      m.line.rolls = rs ∧ m.line.count = 1 + (bs.length - 8) / 12 ∧ m.core.pool = [] := by
  have hrow : exec (.rollcallComplete h bs t) s =
    s.upd fun n => n.whenCellar fun n => (n.atT t).receive h 0x04 bs (Node.rollReturned bs) := rfl
  refine effect_read hrow hv hc ?_
  obtain ⟨hdr, hreturn⟩ := receive_of_returning 0x04 bs (Node.rollReturned bs) hd he
  obtain ⟨hplace, hstores⟩ := takeHeader_returning h (s.node.atT t)
  have hrolls : ((s.node.atT t).takeHeader h true).line.rolls = r :: rs := (congrArg (fun x => x.2.2) hplace).trans hr
  have hpool : ((s.node.atT t).takeHeader h true).core.pool = [op] := (pool_of_stores hstores).trans hp
  have hheads : (((s.node.atT t).takeHeader h true).send [{ typ := 0x04, hdr := hdr, payload := bs }]).heading = true :=
    (heading_of_place hplace).trans hh
  rw [hreturn, Node.rollReturned, hheads, Bool.and_self, if_pos rfl]
  exact rollComplete_spec hrolls hsent hops hpool hs

/-- Settles O52, event by event. -/
theorem cyclesAndFolding : Obligations.CyclesAndFolding := by
  intro s t n hv hc
  refine ⟨fun hup _ => effect_read rfl hv hc (linkChange_gain hup), fun hdn => effect_read rfl hv hc (linkChange_loss hdn),
    fun hf => effect_read rfl hv hc (topologyChange_role hf), fun hh hl hs => ?_, fun hup hh hm => ?_, ?_, fun hup hf => ?_, ?_⟩
  · intro judged
    refine ⟨?_, fun r rs hr => effect_read rfl hv hc ?_, fun hr hd hno hu hm hq => effect_read rfl hv hc ?_⟩
    · have hbegins := cycleStart_begins (n := n.send []) hh hl hs
      obtain ⟨hcycling, hsync⟩ := hbegins
      simp only [Line.cycling, Prod.mk.injEq] at hcycling
      exact effect_read rfl hv hc ⟨hcycling.1, hcycling.2.1, hcycling.2.2, hsync⟩
    · exact cycleStart_rolls (n := n.send []) hh hl hs hr
    · exact cycleStart_plain (n := n.send []) hh hl hs hr hd hno hu hm hq
  · exact effect_of_up rfl hup (cycTimeout_reported hh hm)
  · intro h bs r rs op he hd hh _ hr hsent _ hops hp hs _
    exact effect_rollcallComplete hv hc he hd hh hr hsent hops hp hs
  · exact ⟨effect_of_up rfl hup (foldEffect_folds hf), fun hr => effect_of_up rfl hup (foldEffect_heads hf hr)⟩
  · intro ops hu hr he hl
    refine effect_read rfl hv hc ?_
    have hcycle := unfoldCycle_head (n := n) hu hr he hl
    exact ⟨congrArg (fun m => m.line.folded) hcycle, congrArg (fun m => m.line.unfoldAt) hcycle,
      congrArg (fun m => m.line.tailB) hcycle, congrArg (fun m => m.line.rolls) hcycle⟩

end Sys2Proof.Machine
end

section
/-!
PROOFS. Frames that pass at a node that does not head: what their header leaves alone, and SYNC (12_grenrus_line.md R405, R411, R424 to
R427; 04_frame_tick_and_time.md R133, R134, R147).
-/
namespace Sys2Proof.Machine

/-! ### Bytes -/

theorem foldl_bytes (bs : List Byte) (a : Nat) :
    bs.foldl (fun (a : Nat) (b : Byte) => a * 256 + b.toNat) a = a * 256 ^ bs.length + natBE bs := by
  induction bs generalizing a with
  | nil => simp [natBE]
  | cons b bs ih =>
    rw [natBE, List.foldl_cons, List.foldl_cons, ih, ih, List.length_cons, pow_succ]
    ring

theorem natBE_cons (b : Byte) (bs : List Byte) : natBE (b :: bs) = b.toNat * 256 ^ bs.length + natBE bs := by
  rw [natBE, List.foldl_cons, foldl_bytes]
  ring

/-- The bytes of a number spell it, as far as they reach (R48). -/
theorem natBE_bytesBE (k x : Nat) : natBE (bytesBE k x) = x % 256 ^ k := by
  induction k with
  | zero => simp [bytesBE, natBE, Nat.mod_one]
  | succ k ih =>
    have hsplit : x % (256 ^ k * 256) = x % 256 ^ k + 256 ^ k * (x / 256 ^ k % 256) := Nat.mod_mul
    rw [bytesBE, natBE_cons, ih, length_bytesBE, BitVec.toNat_ofNat, pow_succ 256 k, hsplit, Nat.add_comm, Nat.mul_comm]

theorem take_bytesBE (k x : Nat) (bs : List Byte) : (bytesBE k x ++ bs).take k = bytesBE k x :=
  List.take_left' (length_bytesBE k x)

theorem drop_bytesBE (k x : Nat) (bs : List Byte) : (bytesBE k x ++ bs).drop k = bs := List.drop_left' (length_bytesBE k x)

/-! ### What a frame's header leaves alone -/

/-- The line's own side, and what the fault manager holds. -/
def passFrame : Frame := { core := fun k => { k with faults := {} }, line := fun _ => {} }

/-- What no header changes of the line's side. -/
structure Line.Stands (l k : Line) : Prop where
  delay : l.delay = k.delay
  rt : l.rt = k.rt
  syncs : l.syncs = k.syncs
  inTail : l.inTail = k.inTail
  count : l.count = k.count
  lock : l.lock = k.lock
  roleUp : l.roleUp = k.roleUp
  roleDn : l.roleDn = k.roleDn
  role : l.role = k.role
  heading : l.heading = k.heading

/-- What stands as a frame of the head's segment passes. -/
structure Node.Passes (m n : Node) : Prop where
  under : m.under passFrame = n.under passFrame
  stores : m.stores = n.stores
  line : m.line.Stands n.line

theorem judgeCrc_under (i : Bool) (n : Node) : (n.judgeCrc i).under passFrame = n.under passFrame := by
  unfold Node.judgeCrc
  extract_lets m most up dn
  have hm : m.under passFrame = n.under passFrame := rfl
  split
  · exact hm
  · split
    · exact (trip_part (Node.under passFrame) (fun _ _ => rfl) _ _ _ _ _ m).trans hm
    · exact (cease_part (Node.under passFrame) (fun _ _ => rfl) (event_under passFrame) _ _ m).trans hm

theorem hopMismatch_passes (n : Node) : n.hopMismatch.Passes n := by
  unfold Node.hopMismatch Node.mismatchEvent
  split
  · refine ⟨event_under passFrame .hopMismatch 0xFF _ _ n, event_stores .hopMismatch 0xFF _ _ n, ?_⟩
    rw [modLine_line, event_line]
    exact ⟨rfl, rfl, rfl, rfl, rfl, rfl, rfl, rfl, rfl, rfl⟩
  · exact ⟨rfl, rfl, ⟨rfl, rfl, rfl, rfl, rfl, rfl, rfl, rfl, rfl, rfl⟩⟩

theorem Node.Passes.trans {a b c : Node} (h : a.Passes b) (g : b.Passes c) : a.Passes c :=
  ⟨h.under.trans g.under, h.stores.trans g.stores, ⟨h.line.delay.trans g.line.delay, h.line.rt.trans g.line.rt,
    h.line.syncs.trans g.line.syncs, h.line.inTail.trans g.line.inTail, h.line.count.trans g.line.count, h.line.lock.trans g.line.lock,
    h.line.roleUp.trans g.line.roleUp, h.line.roleDn.trans g.line.roleDn, h.line.role.trans g.line.role,
    h.line.heading.trans g.line.heading⟩⟩

/-- R405, R411: a header of the head's segment. -/
theorem takeHeader_passes {h : FrameHdr} (hf : h.fromTail = false) (ret : Bool) (n : Node) : (n.takeHeader h ret).Passes n := by
  unfold Node.takeHeader
  extract_lets enters taken judged missed
  have henters : enters = false := by simp [enters, hf]
  have hline : taken.line.Stands n.line := by
    refine ⟨?_, rfl, rfl, ?_, rfl, rfl, rfl, rfl, rfl, rfl⟩
    · show (if enters then none else n.line.delay) = _
      rw [henters]
      rfl
    · show (n.line.inTail || enters) = _
      rw [henters, Bool.or_false]
  have hjudged : judged.Passes n := by
    refine ⟨judgeCrc_under false taken, judgeCrc_stores false taken, ?_⟩
    show (taken.judgeCrc false).line.Stands n.line
    rw [judgeCrc_line]
    exact ⟨hline.delay, hline.rt, hline.syncs, hline.inTail, hline.count, hline.lock, hline.roleUp, hline.roleDn, hline.role, hline.heading⟩
  have hmissed : missed.Passes n := ⟨hjudged.under, hjudged.stores, ⟨hjudged.line.delay, hjudged.line.rt, hjudged.line.syncs,
    hjudged.line.inTail, hjudged.line.count, hjudged.line.lock, hjudged.line.roleUp, hjudged.line.roleDn, hjudged.line.role,
    hjudged.line.heading⟩⟩
  split
  · split
    · exact (hopMismatch_passes missed).trans hmissed
    · exact hmissed
  · exact hjudged

section
variable {m n : Node} (h : m.Passes n)
include h

theorem Node.Passes.time : m.time = n.time := (under_stands h.under).1.2.1

theorem Node.Passes.core : { m.core.body with faults := {} } = { n.core.body with faults := {} } := (under_stands h.under).2.2.2

theorem Node.Passes.params : m.core.params = n.core.params := by
  have hparams := congrArg Core.params h.core
  exact hparams

theorem Node.Passes.parN (q i : Nat) : m.parN q i = n.parN q i := by
  unfold Node.parN
  rw [h.params]

theorem Node.Passes.par (q i : Nat) : m.par q i = n.par q i := by
  unfold Node.par
  rw [h.params]

theorem Node.Passes.up : m.up = n.up := by
  have hrun := congrArg Core.run h.core
  unfold Node.up
  rw [show m.core.run = n.core.run from hrun]

theorem Node.Passes.heads : m.heading = n.heading := by
  unfold Node.heading
  rw [h.line.role, h.line.heading]

theorem Node.Passes.turns (g : FrameHdr) : m.turns g = n.turns g := by
  unfold Node.turns
  rw [h.line.roleUp, h.line.roleDn]

end

/-- The node that a frame which passed its check finds, with the frames it sends on. -/
def Node.received (h : FrameHdr) (ret : Bool) (fs : List TxFrame) (n : Node) : Node :=
  ((if ret then n else n.modLine fun l => { l with framesOk := l.framesOk + 1 }).takeHeader h ret).send fs

theorem received_passes {h : FrameHdr} (hf : h.fromTail = false) (ret : Bool) (fs : List TxFrame) (n : Node) :
    (n.received h ret fs).Passes n := by
  have hcounted : (if ret then n else n.modLine fun l => { l with framesOk := l.framesOk + 1 }).Passes n := by
    cases ret <;> exact ⟨rfl, rfl, ⟨rfl, rfl, rfl, rfl, rfl, rfl, rfl, rfl, rfl, rfl⟩⟩
  have htaken := (takeHeader_passes hf ret _).trans hcounted
  have hline := htaken.line
  exact ⟨htaken.under, htaken.stores, ⟨hline.delay, hline.rt, hline.syncs, hline.inTail, hline.count, hline.lock, hline.roleUp,
    hline.roleDn, hline.role, hline.heading⟩⟩

/-- R405: the hop count is taken from an outbound frame. -/
theorem received_hopCount (h : FrameHdr) (fs : List TxFrame) (n : Node) :
    (n.received h false fs).hopCount = min 1023 (h.hop.toNat + 1) := by
  have hpassed := takeHeader_passed h (n.modLine fun l => { l with framesOk := l.framesOk + 1 })
  have hhops : (n.received h false fs).line.hops = some (min 1023 (h.hop.toNat + 1)) := congrArg (fun x => x.2.2.2) hpassed
  rw [Node.hopCount, hhops]
  rfl

/-- The frame that goes on where its check has passed (R246, R408). -/
def Node.passedOn (h : FrameHdr) (ret : Bool) (typ : Byte) (bs : List Byte) (n : Node) : List TxFrame :=
  [{ typ := typ, hdr := n.fwdHdr h ret .good, payload := bs }]

/-- R246: without a pitch point, a frame that ends well is received. -/
theorem receive_passed {h : FrameHdr} {n : Node} {ret : Bool} (typ : Byte) (bs : List Byte) (f : Bool → Node → Node)
    (hp : n.core.faults.points = []) (he : h.ending = .good) (hd : n.frameDir h = some ret) :
    n.receive h typ bs f = f ret (n.received h ret (n.passedOn h ret typ bs)) := by
  have hcheck : n.checkFrame h ret =
      (.good, if ret then n else n.modLine fun l => { l with framesOk := l.framesOk + 1 }) := by
    rw [checkFrame_eq h ret n hp, he]
  have hhdr : (if ret then n else n.modLine fun l => { l with framesOk := l.framesOk + 1 }).fwdHdr h ret .good = n.fwdHdr h ret .good := by
    cases ret <;> rfl
  unfold Node.receive
  simp only [hd, hcheck, hhdr]
  rfl

end Sys2Proof.Machine
end

section
/-!
PROOFS. SYNC at a node that passes it on (12_grenrus_line.md R424 to R427; 04_frame_tick_and_time.md R133, R134, R146, R147).
-/
namespace Sys2Proof.Machine

/-- A SYNC frame is counted and stamped (R146, R427). -/
def Node.syncCounted (n : Node) : Node :=
  (n.modLine fun l => { l with syncs := l.syncs + 1 }).modTime fun t => { t with lastSync := some n.now }

/-- The round trip that the frame's RT_0 belongs to (R426). -/
def Line.freshRt (h : FrameHdr) (l : Line) : Option Nat :=
  match l.rt with
  | some (rt, c) => if (c + 1) % 4294967296 = h.cycle.toNat then some rt else none
  | none => none

/-- D_new for a round trip, ps in fx (R426). -/
def Node.newDelay (x : SyncPayload) (rt : Nat) (n : Node) : Int :=
  ((x.rt0.toNat : Int) - rt - 2 * x.acc - n.par Pid.lineSkew 0) * (fxOne / 2)

/-- The delay after a SYNC frame. -/
def Node.delayTaken (h : FrameHdr) (x : SyncPayload) (n : Node) : Node :=
  match n.line.freshRt h with
  | some rt => n.delayUpdate (n.newDelay x rt)
  | none => n

/-- Line time by the frame and a delay (R427). -/
def lineTime (x : SyncPayload) (d : Int) : Nat := wrapLt (x.lt.toNat + roundDiv d (1000 * fxOne))

/-- Line time has been read (R149). -/
def Node.lineRead (line : Nat) (n : Node) : Node :=
  n.modTime fun t => { t with lineAt := some (line, n.now), windowOpen := t.windowOpen.or (some (line, n.now)) }

/-- With a delay, the node follows line time. -/
def Node.lineFollowed (x : SyncPayload) (n : Node) : Node :=
  match n.line.delay with
  | none => n
  | some d => (n.lineRead (lineTime x d)).followLine (ltDiff (lineTime x d) (n.lineRead (lineTime x d)).lt)

theorem takeSync_eq (h : FrameHdr) (x : SyncPayload) (n : Node) :
    n.takeSync h x = (n.syncCounted.delayTaken h x).lineFollowed x := rfl

/-! ### Following line time -/

theorem correct_line (off : Int) (n : Node) : (n.correct off).line = n.line := by
  unfold Node.correct
  split <;> rfl

theorem correct_lastSync (off : Int) (n : Node) : (n.correct off).time.lastSync = n.time.lastSync := by
  unfold Node.correct
  split <;> rfl

theorem setMark_lastSync (k : TimeMark) (n : Node) : (n.setMark k).time.lastSync = n.time.lastSync := by
  unfold Node.setMark
  split
  · rfl
  · dsimp only
    rw [(event_sameBut ..).time]
    rfl

theorem followLine_keeps (off : Int) (n : Node) :
    (n.followLine off).line = n.line ∧ (n.followLine off).time.lastSync = n.time.lastSync := by
  unfold Node.followLine
  extract_lets m back
  have hm : m.line = n.line ∧ m.time.lastSync = n.time.lastSync := ⟨rfl, rfl⟩
  have hback : back.line = n.line ∧ back.time.lastSync = n.time.lastSync :=
    ⟨(correct_line off _).trans hm.1, (correct_lastSync off _).trans hm.2⟩
  clear_value m back
  split
  · exact hm
  · split
    · exact hm
    · exact ⟨(correct_line off m).trans hm.1, (correct_lastSync off m).trans hm.2⟩
    · split
      · exact hback
      · exact ⟨(setMark_line ..).trans hback.1, (setMark_lastSync ..).trans hback.2⟩

section
variable {n : Node} {off : Int} (ht : n.parN Pid.refTsel 0 ≠ 1) (hf : n.time.fallback = false) (hd : n.time.fallbackDue = false)
include ht hf hd

theorem follows_open : ¬ (n.parN Pid.refTsel 0 = 1 ∨ n.time.fallback = true ∨ n.time.fallbackDue = true) := by simp [ht, hf, hd]

/-- R147: from the local epoch the time in force steps to line time. -/
theorem followLine_epoch (hm : n.time.mark = .localEpoch) : (n.followLine off).time.stepDue = some off := by
  unfold Node.followLine
  extract_lets m
  rw [if_neg (show ¬ (m.parN Pid.refTsel 0 = 1 ∨ m.time.fallback = true ∨ m.time.fallbackDue = true) from follows_open ht hf hd),
    show m.time.mark = _ from hm]
  rfl

theorem followLine_onLine (hm : n.time.mark = .lineTime) :
    n.followLine off = (n.modTime fun t => { t with measuredOffset := -off }).correct off := by
  unfold Node.followLine
  extract_lets m
  rw [if_neg (show ¬ (m.parN Pid.refTsel 0 = 1 ∨ m.time.fallback = true ∨ m.time.fallbackDue = true) from follows_open ht hf hd),
    show m.time.mark = _ from hm]

/-- R134: a far correction steps. -/
theorem followLine_far (hm : n.time.mark = .lineTime) (ho : 2000 < off.natAbs) : (n.followLine off).time.stepDue = some off := by
  rw [followLine_onLine ht hf hd hm, Node.correct, if_neg (by omega)]
  rfl

/-- R133: a near correction slews. -/
theorem followLine_near (hm : n.time.mark = .lineTime) (ho : off.natAbs ≤ 2000) :
    (n.followLine off).time.offsetPs = off * 1000 ∧ (n.followLine off).time.stepDue = none := by
  rw [followLine_onLine ht hf hd hm, Node.correct, if_pos ho]
  exact ⟨rfl, rfl⟩

end

/-! ### The delay -/

theorem delayUpdate_time (fx : Int) (n : Node) : (n.delayUpdate fx).time = n.time := rfl

/-- The frames sent and the SYNC frames counted. -/
def Line.counts (l : Line) : List TxFrame × Nat := (l.sent, l.syncs)

theorem delayUpdate_counts (fx : Int) (n : Node) : (n.delayUpdate fx).line.counts = n.line.counts := by
  unfold Node.delayUpdate
  rw [modLine_line]
  split
  · rfl
  · split
    · split <;> rfl
    · rfl

/-- R426: the first delay is taken as it comes. -/
theorem delayUpdate_first {fx : Int} {n : Node} (h : n.line.delay = none) : (n.delayUpdate fx).line.delay = some fx := by
  unfold Node.delayUpdate
  rw [modLine_line, h]

/-- R426: a delay near the one in force is filtered. -/
theorem delayUpdate_near {fx d : Int} {n : Node} (h : n.line.delay = some d) (hn : (fx - d).natAbs ≤ 100000 * fxOne) :
    (n.delayUpdate fx).line.delay = some (d + (fx - d) / n.parN Pid.lineTfilt 0) := by
  unfold Node.delayUpdate
  rw [modLine_line, h]
  dsimp only
  rw [if_neg (by omega)]

theorem delayTaken_keeps (h : FrameHdr) (x : SyncPayload) (n : Node) :
    (n.delayTaken h x).line.counts = n.line.counts ∧ (n.delayTaken h x).time = n.time ∧ (n.delayTaken h x).core = n.core := by
  unfold Node.delayTaken
  split
  · exact ⟨delayUpdate_counts _ n, rfl, rfl⟩
  · exact ⟨rfl, rfl, rfl⟩

theorem delayTaken_of_fresh {h : FrameHdr} {rt c : Nat} {n : Node} (x : SyncPayload) (hr : n.line.rt = some (rt, c))
    (hc : (c + 1) % 4294967296 = h.cycle.toNat) : n.delayTaken h x = n.delayUpdate (n.newDelay x rt) := by
  have hfresh : n.line.freshRt h = some rt := by
    rw [Line.freshRt, hr]
    exact if_pos hc
  unfold Node.delayTaken
  rw [hfresh]

/-! ### A SYNC frame -/

theorem lineFollowed_keeps (x : SyncPayload) (n : Node) :
    (n.lineFollowed x).line = n.line ∧ (n.lineFollowed x).time.lastSync = n.time.lastSync := by
  unfold Node.lineFollowed
  split
  · exact ⟨rfl, rfl⟩
  · obtain ⟨hline, hlast⟩ := followLine_keeps (ltDiff (lineTime x _) (n.lineRead (lineTime x _)).lt) (n.lineRead (lineTime x _))
    exact ⟨hline, hlast⟩

/-- R427: whatever it brings, a SYNC frame is counted and stamped. -/
theorem takeSync_counts (h : FrameHdr) (x : SyncPayload) (n : Node) : (n.takeSync h x).line.sent = n.line.sent ∧
    (n.takeSync h x).line.syncs = n.line.syncs + 1 ∧ (n.takeSync h x).time.lastSync = some n.now := by
  rw [takeSync_eq]
  obtain ⟨hline, hlast⟩ := lineFollowed_keeps x (n.syncCounted.delayTaken h x)
  obtain ⟨hcounts, htime, _⟩ := delayTaken_keeps h x n.syncCounted
  obtain ⟨hsent, hsyncs⟩ := Prod.mk.injEq .. ▸ hcounts
  rw [hline, hlast, hsent, hsyncs, htime]
  exact ⟨rfl, rfl, rfl⟩

/-- R426: before a round trip is known, no delay and no line time. -/
theorem takeSync_unmeasured {h : FrameHdr} {n : Node} (x : SyncPayload) (hd : n.line.delay = none) (hr : n.line.rt = none) :
    (n.takeSync h x).time = { n.time with lastSync := some n.now } := by
  have hfresh : n.syncCounted.line.freshRt h = none := by
    show (match n.line.rt with | some (rt, c) => if (c + 1) % 4294967296 = h.cycle.toNat then some rt else none | none => none) = none
    rw [hr]
  have htaken : n.syncCounted.delayTaken h x = n.syncCounted := by
    unfold Node.delayTaken
    rw [hfresh]
  rw [takeSync_eq, htaken, Node.lineFollowed, show n.syncCounted.line.delay = none from hd]
  rfl

section
variable {h : FrameHdr} {n : Node} {rt c : Nat} (x : SyncPayload) (hr : n.line.rt = some (rt, c))
  (hc : (c + 1) % 4294967296 = h.cycle.toNat)
include hr hc

theorem takeSync_delay : (n.takeSync h x).line.delay = (n.syncCounted.delayUpdate (n.newDelay x rt)).line.delay := by
  rw [takeSync_eq, (lineFollowed_keeps x _).1, delayTaken_of_fresh (n := n.syncCounted) x hr hc]
  rfl

/-- With its first delay, the node follows line time by it. -/
theorem takeSync_follows (hd : n.line.delay = none) : ∃ m : Node, m.time.mark = n.time.mark ∧ m.core = n.core ∧
    m.time.fallback = n.time.fallback ∧ m.time.fallbackDue = n.time.fallbackDue ∧
    n.takeSync h x = m.followLine (ltDiff (lineTime x (n.newDelay x rt)) n.lt) := by
  have hfirst := delayUpdate_first (n := n.syncCounted) (fx := n.syncCounted.newDelay x rt) hd
  rw [takeSync_eq, delayTaken_of_fresh (n := n.syncCounted) x hr hc, Node.lineFollowed, hfirst]
  exact ⟨(n.syncCounted.delayUpdate (n.syncCounted.newDelay x rt)).lineRead (lineTime x (n.newDelay x rt)), rfl, rfl, rfl, rfl, rfl⟩

end

end Sys2Proof.Machine
end

section
/-!
PROOFS. CMD, CYC, RC, MNT and returning frames at a node that does not head (12_grenrus_line.md R413 to R416, R430 to R433;
13_line_failures.md R459; 16_firmware_and_store.md R550).
-/
namespace Sys2Proof.Machine

/-- A row of a frame that passes its check here. -/
theorem effect_passed {s : State} {c : Instr} {h : FrameHdr} {t : Nat} {typ : Byte} {bs : List Byte} {f : Bool → Node → Node} {ret : Bool}
    {P : Node → Prop} (hrow : exec c s = s.upd fun n => n.whenCellar fun n => (n.atT t).receive h typ bs f)
    (hv : s.node.power.vcel = true) (hc : s.node.power.cresetn = true) (hp : s.node.core.faults.points = []) (he : h.ending = .good)
    (hd : (s.node.atT t).frameDir h = some ret)
    (hP : P (f ret ((s.node.atT t).received h ret ((s.node.atT t).passedOn h ret typ bs)))) :
    Effect c s P :=
  effect_read hrow hv hc (receive_passed (n := s.node.atT t) typ bs f hp he hd ▸ hP)

/-! ### CMD -/

/-- A session as a packet's arrival leaves it (R64). -/
def Session.touched (p : Packet) (now : Nat) (s : Session) : Session := if s.id == p.client then { s with lastNs := now } else s

theorem touched_same (p : Packet) (k : Nat) (s : Session) :
    (s.touched p k).id = s.id ∧ (s.touched p k).cls = s.cls ∧ (s.touched p k).nonce = s.nonce := by
  unfold Session.touched
  split <;> exact ⟨rfl, rfl, rfl⟩

theorem session_touched {p : Packet} (hp : p.port = .line) (id : BitVec 8) (n : Node) :
    (n.touchSession p).session id = (n.session id).map (Session.touched p n.now) := by
  have hsessions : (n.touchSession p).sessions = n.sessions.map (Session.touched p n.now) := by
    unfold Node.touchSession
    rw [hp]
    rfl
  have hid : (fun s : Session => s.id == id) ∘ Session.touched p n.now = fun s => s.id == id := by
    funext s
    rw [Function.comp, (touched_same p n.now s).1]
  rw [Node.session, hsessions, List.find?_map, hid]
  rfl

theorem rankOf_touched {p : Packet} (hp : p.port = .line) (n : Node) : (n.touchSession p).rankOf p = n.rankOf p := by
  unfold Node.rankOf
  rw [hp, session_touched hp, Option.map_map]
  refine congrArg (fun f => Option.map f (n.session p.client)) ?_
  funext s
  rw [Function.comp, (touched_same p n.now s).2.1]

theorem macOk_touched {p : Packet} (hp : p.port = .line) (n : Node) : (n.touchSession p).macOk p = n.macOk p := by
  have hstore : (n.touchSession p).store = n.store := by
    unfold Node.touchSession
    rw [hp]
  unfold Node.macOk
  rw [session_touched hp, hstore]
  cases p.mac with
  | none => rfl
  | some m =>
    cases n.session p.client with
    | none => rfl
    | some s =>
      cases n.store.key with
      | none => rfl
      | some k => simp only [Option.map_some, (touched_same p n.now s).2.2]

theorem authOk_touched {p : Packet} (hp : p.port = .line) (n : Node) : (n.touchSession p).authOk p = n.authOk p := by
  unfold Node.authOk
  rw [hp, macOk_touched hp, Node.parN, touchSession_core]
  rfl

/-- The node with other times in its sessions. -/
def Node.withSessions (ss : List Session) (n : Node) : Node := { n with sessions := ss }

theorem idsLayout_withSessions (ss : List Session) (n : Node) (up : Bool) (ws : List Word) (i : Nat) :
    (n.withSessions ss).idsLayout up ws i = n.idsLayout up ws i := by
  induction ws generalizing i with
  | nil => rfl
  | cons w ws ih =>
    unfold Node.idsLayout
    rw [ih]
    rfl

theorem writeLayout_withSessions (ss : List Session) (n : Node) (p : Packet) : (n.withSessions ss).writeLayout p = n.writeLayout p := by
  unfold Node.writeLayout
  simp only [idsLayout_withSessions]
  rfl

theorem layoutCheck_withSessions (ss : List Session) (n : Node) (op : Opcode) (p : Packet) :
    (n.withSessions ss).layoutCheck op p = n.layoutCheck op p := by
  unfold Node.layoutCheck
  simp only [writeLayout_withSessions, idsLayout_withSessions]
  rfl
theorem judgeOp_withSessions {ss : List Session} {n : Node} {p : Packet} (h : (n.withSessions ss).rankOf p = n.rankOf p) (op : Opcode)
    (first : Nat) : (n.withSessions ss).judgeOp op p first = n.judgeOp op p first := by
  unfold Node.judgeOp
  simp only [h, layoutCheck_withSessions]
  rfl
theorem touchSession_eq (p : Packet) (n : Node) : ∃ ss, n.touchSession p = n.withSessions ss := by
  unfold Node.touchSession
  split
  · exact ⟨n.sessions, rfl⟩
  · exact ⟨_, rfl⟩

theorem judgeOp_touched {p : Packet} (hp : p.port = .line) (op : Opcode) (first : Nat) (n : Node) :
    (n.touchSession p).judgeOp op p first = n.judgeOp op p first := by
  have hrank := rankOf_touched hp n
  obtain ⟨ss, hss⟩ := touchSession_eq p n
  rw [hss] at hrank ⊢
  exact judgeOp_withSessions hrank op first

/-- The checks do not look at when a session was last heard of. -/
theorem judgePacket_touched {p : Packet} (hp : p.port = .line) (ok : Bool) (first : Nat) (n : Node) :
    (n.touchSession p).judgePacket p ok first = n.judgePacket p ok first := by
  have htag : (n.touchSession p).tagCheck p = n.tagCheck p ∧ (n.touchSession p).isUpper = n.isUpper := by
    unfold Node.touchSession
    rw [hp]
    exact ⟨rfl, rfl⟩
  unfold Node.judgePacket
  dsimp only
  rw [rankOf_touched hp, authOk_touched hp, htag.1, htag.2]
  simp only [judgeOp_touched hp]

theorem enter_of_line {op : PoolOp} (h : op.client.isL = false) (pool : List PoolOp) : op.enter pool = pool ++ [op] := by
  simp [PoolOp.enter, h]

/-- R58, R78: an accepted packet of the line becomes the last operation of the pool. -/
theorem poolIn_line {p : Packet} (hp : p.port = .line) (due : Nat) (sch : Bool) (side : RelaySide) (n : Node) :
    ∃ op : PoolOp, (n.poolIn p due sch side).2.core.pool = n.core.pool ++ [op] ∧ op.packet = p ∧ op.due = due ∧ op.phase = .waiting ∧
      op.side = side ∧ op.client = .line p.client := by
  have hsender : senderOf p = .line p.client := by rw [senderOf, hp]
  obtain ⟨_, op, hpool, hpacket, hdue, hphase, hside, hclient⟩ := poolIn_enters p due sch side n
  rw [hsender] at hclient
  rw [enter_of_line (by rw [hclient]; rfl)] at hpool
  exact ⟨op, hpool, hpacket, hdue, hphase, hside, hclient⟩

/-- R413: an entry whose packet is accepted. -/
theorem lineArrive_accepted {d : List Byte} {p : Packet} {ok : Bool} {oc : Opcode} {due : Nat} {sch : Bool} {side : RelaySide} {n : Node}
    (hd : packetOfBytes .line d = some (p, ok)) (hs : n.downStatus = none)
    (hj : n.judgePacket p ok (wrapK (n.time.k48 + 1)) = .accept oc due sch side) :
    (n.lineArrive d).line = n.line ∧ ∃ op : PoolOp, (n.lineArrive d).core.pool = n.core.pool ++ [op] ∧ op.packet = p ∧ op.due = due ∧
      op.phase = .waiting ∧ op.side = side ∧ op.client = .line p.client := by
  have hp := packetOfBytes_port hd
  have hdown : (n.touchSession p).downStatus = none := by
    unfold Node.touchSession
    rw [hp]
    exact hs
  have harrive : n.lineArrive d = (n.arrive p ok (wrapK (n.time.k48 + 1))).2 := by
    unfold Node.lineArrive
    rw [hd]
  refine ⟨by rw [harrive, arrive_line], ?_⟩
  obtain ⟨op, hpool, hop⟩ := poolIn_line hp due sch side (n.touchSession p)
  rw [touchSession_core] at hpool
  have haccepted : (n.arrive p ok (wrapK (n.time.k48 + 1))).2 = ((n.touchSession p).poolIn p due sch side).2 := by
    unfold Node.arrive
    dsimp only
    rw [hdown, judgePacket_touched hp, hj]
  exact ⟨op, by rw [harrive, haccepted, hpool], hop⟩

/-- R413: a CMD frame with one entry. -/
theorem takeEntries_single {bs d : List Byte} {dest : Nat} (h : cmdEntries bs.length bs = [(dest, d)]) (n : Node) :
    n.takeEntries bs = if n.addressed dest then n.lineArrive d else n := by
  rw [Node.takeEntries, h]
  rfl

/-! ### CYC -/

/-- R415, R438: the count of cycles without a CYC frame ends. -/
theorem takeCyc_line (h : FrameHdr) (turn : Bool) (bs : List Byte) (n : Node) :
    (n.takeCyc h turn bs).line = { n.line with cycSeen := true, cycMiss := 0, cycInjected := false } := by
  unfold Node.takeCyc
  extract_lets counted ceased
  have hceased : ceased.line = { n.line with cycSeen := true, cycMiss := 0, cycInjected := false } := by
    show (if counted.up then counted.cease .cycTimeout 0xFF else counted).line = _
    split
    · exact cease_line ..
    · rfl
  split
  · split
    · exact hceased
    · exact hceased
  · exact hceased

theorem cease_up (f : FaultCode) (sc : Nat) (n : Node) : (n.cease f sc).up = n.up :=
  cease_part Node.up (fun _ _ => rfl) (fun ev s st ws m => by unfold Node.up; rw [event_core]) f sc n

/-- R415: while the core is up, the node's slot goes to the host. -/
theorem takeCyc_blocks {h : FrameHdr} {bs : List Byte} {n : Node} (hup : n.up = true) (h0 : 0 < n.hopCount)
    (hh : n.hopCount < n.line.count) : (n.takeCyc h false bs).host.blocks =
      [bytesBE 4 h.cycle.toNat ++
        (bs.drop ((n.hopCount - 1) * (bs.length / (n.line.count - 1)))).take (bs.length / (n.line.count - 1))] := by
  unfold Node.takeCyc
  extract_lets counted ceased
  have hcup : counted.up = true := hup
  have hceased : ceased = counted.cease .cycTimeout 0xFF := by
    show (if counted.up then counted.cease .cycTimeout 0xFF else counted) = _
    rw [if_pos hcup]
  have hline : ceased.hopCount = n.hopCount ∧ ceased.line.count = n.line.count := by
    rw [Node.hopCount, hceased, cease_line]
    exact ⟨rfl, rfl⟩
  have hslot : ceased.slotOf false bs =
      some ((bs.drop ((n.hopCount - 1) * (bs.length / (n.line.count - 1)))).take (bs.length / (n.line.count - 1))) := by
    unfold Node.slotOf
    simp only [hline.1, hline.2, Bool.false_eq_true, if_false]
    rw [if_neg (by omega)]
  have hup' : ceased.up = true := by rw [hceased, cease_up, hcup]
  rw [hslot]
  dsimp only
  rw [if_pos hup']
  rfl

/-- R417: bit 15 of a car's first word says that the node turns frames around. -/
theorem car_turns (n : Node) : 32768 ≤ natBE ((n.car true).1.take 2) := by
  unfold Node.car
  dsimp only
  rw [List.append_assoc, take_bytesBE, natBE_bytesBE]
  have hflag : ∀ (b : Bool) (k : Nat), flag b k ≤ 2 ^ k := fun b k => by cases b <;> simp [flag]
  have h10 := hflag n.standIn 10
  have h11 := hflag (!n.lockedOk) 11
  have h12 := hflag n.line.mismatch 12
  have h13 := hflag (!n.fragment.2.stream.isEmpty) 13
  have h14 := hflag (decide (n.hopCount = 1023)) 14
  have h15 : flag true 15 = 32768 := rfl
  have hpos := Nat.mod_lt (if n.lockedOk = true then n.lockPos else n.hopCount) (show 0 < 1024 by omega)
  omega

/-- What a CYC frame does that passed its check (R415, R416). -/
def Node.cycPassed (h : FrameHdr) (turn : Bool) (payload : List Byte) (ret : Bool) (n : Node) : Node :=
  if ret then n.send [] else if turn then (n.takeCyc h turn payload).startRet h else n.takeCyc h turn payload

theorem execCycFrame_of_none {s : State} {h : FrameHdr} {bs : List Byte} {t : Nat} {P : Node → Prop}
    (hv : s.node.power.vcel = true) (hc : s.node.power.cresetn = true) (hp : s.node.core.faults.points = [])
    (hP : P (if (s.node.atT t).turns h then
        ((s.node.atT t).receive h 0x02 bs (Node.cycPassed h ((s.node.atT t).turns h) bs)).modLine fun l =>
          { l with sent := l.sent.filter fun f => f.typ == 0x06 }
      else (s.node.atT t).receive h 0x02 bs (Node.cycPassed h ((s.node.atT t).turns h) bs))) : Effect (.cycFrame h bs t) s P := by
  refine effect_read rfl hv hc ?_
  have hnone : ((s.node.atT t).up && (s.node.atT t).injecting .cycTimeout 0xFF) = false := by
    rw [injecting_of_none (s.node.atT t) _ _ hp, Bool.and_false]
  rw [if_neg (Bool.eq_false_iff.mp hnone)]
  exact hP

/-! ### RC -/

/-- What a roll call sets of the line's side (R430, R432). -/
structure Node.RollTaken (hop : Nat) (sig : Word) (m n : Node) : Prop where
  rcSig : m.line.rcSig = some sig
  rcHops : m.line.rcHops = hop
  rollCycle : m.line.rollCycle = true
  hops : m.line.hops = n.line.hops
  roleUp : m.line.roleUp = n.line.roleUp
  roleDn : m.line.roleDn = n.line.roleDn

/-- The lock, its outcome and whether it was kept. -/
def Line.locking (l : Line) : Option (Nat × Word) × Option Nat × Bool := (l.lock, l.outcome, l.rcKept)

/-- Whether a roll call's lock is stored (R431). -/
def Node.storesLock (n : Node) (mode : Nat) : Bool := decide (mode = 1) && (!n.up || n.core.mode == .cask)

/-- The line's side with the lock that a roll call gives. -/
def Node.rollLock (mode : Nat) (sig : Word) (n : Node) : Node :=
  if n.storesLock mode then n.modLine fun l => { l with lock := some (n.posOfHop n.hopCount, sig) } else n

theorem takeRollCall_eq (mode : Nat) (sig : Word) (n : Node) : n.takeRollCall mode sig =
    (((n.rollLock mode sig).modLine fun l =>
      { l with
        rcSig := some sig, rcHops := n.hopCount, rcKept := decide (mode = 1) && !n.storesLock mode
        rollCycle := true }).lockKnown (if n.storesLock mode then 1 else (n.rollLock mode sig).lockOutcome n.hopCount sig)).layoutInForce :=
  rfl

theorem layoutInForce_rolled {hop : Nat} {sig : Word} {m n : Node} (h : m.RollTaken hop sig n) : m.layoutInForce.RollTaken hop sig n := by
  unfold Node.layoutInForce
  split
  · exact h
  · exact ⟨h.rcSig, h.rcHops, h.rollCycle, h.hops, h.roleUp, h.roleDn⟩

theorem layoutInForce_locking (n : Node) : n.layoutInForce.line.locking = n.line.locking := by
  unfold Node.layoutInForce
  split <;> rfl

theorem takeRollCall_rolled (mode : Nat) (sig : Word) (n : Node) : (n.takeRollCall mode sig).RollTaken n.hopCount sig n := by
  rw [takeRollCall_eq]
  refine layoutInForce_rolled ?_
  unfold Node.rollLock
  split <;> exact ⟨rfl, rfl, rfl, rfl, rfl, rfl⟩

theorem takeRollCall_locking (mode : Nat) (sig : Word) (n : Node) : (n.takeRollCall mode sig).line.locking =
    ((n.rollLock mode sig).line.lock, some (if n.storesLock mode then 1 else (n.rollLock mode sig).lockOutcome n.hopCount sig),
      decide (mode = 1) && !n.storesLock mode) := by
  rw [takeRollCall_eq, layoutInForce_locking]
  rfl

/-- R431: ASSIGN stores the lock on a node in CASK or with its core down. -/
theorem takeRollCall_stores {sig : Word} {n : Node} (ht : n.line.inTail = false) (hs : n.storesLock 1 = true) :
    (n.takeRollCall 1 sig).line.locking = (some (n.hopCount, sig), some 1, false) := by
  have hpos : n.posOfHop n.hopCount = n.hopCount := by rw [Node.posOfHop, ht]; rfl
  rw [takeRollCall_locking, hs, Node.rollLock, if_pos hs, modLine_line, hpos]
  rfl

/-- R430: otherwise the stored lock is compared. -/
theorem takeRollCall_compares {mode : Nat} {sig : Word} {n : Node} (ht : n.line.inTail = false) (hs : n.storesLock mode = false) :
    (n.takeRollCall mode sig).line.locking = (n.line.lock, some (match n.line.lock with
      | none => 0
      | some (p, g) => if p = n.hopCount ∧ (g = sig ∨ sig = 0) then 1 else 2), decide (mode = 1)) := by
  have hpos : n.posOfHop n.hopCount = n.hopCount := by rw [Node.posOfHop, ht]; rfl
  have hlock : n.rollLock mode sig = n := if_neg (by rw [hs]; exact Bool.false_ne_true)
  rw [takeRollCall_locking, hs, hlock, Bool.not_false, Bool.and_true, if_neg Bool.false_ne_true, Node.lockOutcome, hpos] <;> rfl

theorem rcCar_length (n : Node) : n.rcCar.length = 12 := by
  unfold Node.rcCar
  simp only [List.length_append, length_bytesBE]

/-- The payload of an RC frame (R432). -/
def rcBytes (mode : Nat) (sig : Word) : List Byte := bytesBE 1 mode ++ wordBytes sig ++ [0, 0]

theorem rcBytes_mode {mode : Nat} (sig : Word) (h : mode ≤ 1) : natBE ((rcBytes mode sig).take 1) = mode := by
  rw [rcBytes, List.append_assoc, take_bytesBE, natBE_bytesBE]
  omega

theorem rcBytes_sig (mode : Nat) (sig : Word) : wN (natBE (((rcBytes mode sig).drop 1).take 5)) = sig := by
  rw [rcBytes, List.append_assoc, drop_bytesBE, wordBytes, take_bytesBE, natBE_bytesBE]
  apply BitVec.eq_of_toNat_eq
  have hsig := sig.isLt
  rw [wN, BitVec.toNat_ofNat]
  omega

/-- The node that a roll call finds. -/
def Node.rcFound (h : FrameHdr) (payload : List Byte) (n : Node) : Node :=
  n.modLine fun l => { l with tailT := if h.fromTail then natBE ((payload.drop 6).take 2) % 1024 else l.tailT }

/-- The turnaround of an RC frame (R409). -/
def Node.rcTurned (h : FrameHdr) (payload : List Byte) (n : Node) : Node :=
  let n := n.modLine fun l => { l with count := n.hopCount + 1 }
  n.send [{ typ := 0x04, hdr := n.fwdHdr h false .good, payload := payload ++ n.rcCar }]

/-- What an RC frame does that passed its check (R409, R432). -/
def Node.rcPassed (h : FrameHdr) (payload : List Byte) (ret : Bool) (n : Node) : Node :=
  if ret then n else
  let n := (n.rcFound h payload).takeRollCall (natBE (payload.take 1)) (wN (natBE ((payload.drop 1).take 5)))
  if n.turns h then n.rcTurned h payload else n

theorem rcPassed_spec {h : FrameHdr} {mode : Nat} (sig : Word) (n : Node) (hm : mode ≤ 1) :
    (n.rcPassed h (rcBytes mode sig) false).RollTaken n.hopCount sig n ∧
      (n.rcPassed h (rcBytes mode sig) false).line.locking = ((n.rcFound h (rcBytes mode sig)).takeRollCall mode sig).line.locking ∧
      (n.turns h = true → (n.rcPassed h (rcBytes mode sig) false).line.count = n.hopCount + 1 ∧ ∃ car : List Byte, car.length = 12 ∧
        (n.rcPassed h (rcBytes mode sig) false).line.sent.map TxFrame.payload = [rcBytes mode sig ++ car]) := by
  have hrolled := takeRollCall_rolled mode sig (n.rcFound h (rcBytes mode sig))
  have hpassed : n.rcPassed h (rcBytes mode sig) false =
      if ((n.rcFound h (rcBytes mode sig)).takeRollCall mode sig).turns h then
        ((n.rcFound h (rcBytes mode sig)).takeRollCall mode sig).rcTurned h (rcBytes mode sig)
      else (n.rcFound h (rcBytes mode sig)).takeRollCall mode sig := by
    unfold Node.rcPassed
    rw [if_neg Bool.false_ne_true, rcBytes_mode sig hm, rcBytes_sig]
  rw [hpassed]
  generalize (n.rcFound h (rcBytes mode sig)).takeRollCall mode sig = m at hrolled
  have hturns : m.turns h = n.turns h := by
    unfold Node.turns
    rw [hrolled.roleUp, hrolled.roleDn]
    rfl
  have hhop : m.hopCount = n.hopCount := by
    rw [Node.hopCount, hrolled.hops]
    rfl
  rw [hturns]
  split
  · exact ⟨⟨hrolled.rcSig, hrolled.rcHops, hrolled.rollCycle, hrolled.hops, hrolled.roleUp, hrolled.roleDn⟩, rfl,
      fun _ => ⟨congrArg (· + 1) hhop, _, rcCar_length _, rfl⟩⟩
  · next hno =>
    exact ⟨⟨hrolled.rcSig, hrolled.rcHops, hrolled.rollCycle, hrolled.hops, hrolled.roleUp, hrolled.roleDn⟩, rfl, fun h => absurd h hno⟩

/-! ### MNT -/

/-- The payload of an unfold notice (R459). -/
theorem notice_bytes {c : Nat} (hc : c < 4294967296) : natBE ((([2] : List Byte) ++ bytesBE 4 c).take 1) = 2 ∧
    5 ≤ (([2] : List Byte) ++ bytesBE 4 c).length ∧ natBE (((([2] : List Byte) ++ bytesBE 4 c).drop 1).take 4) = c := by
  refine ⟨rfl, ?_, ?_⟩
  · rw [List.length_append, length_bytesBE]
    exact Nat.le_refl 5
  · show natBE ((bytesBE 4 c).take 4) = c
    rw [List.take_of_length_le (Nat.le_of_eq (length_bytesBE 4 c)), natBE_bytesBE]
    omega

/-- The payload of a broadcast image block (R550). -/
def blockBytes (id off : Nat) (d : List Byte) : List Byte := [0x20] ++ bytesBE 2 id ++ bytesBE 3 off ++ bytesBE 2 d.length ++ d

theorem broadcastBlock_writes {n : Node} {f : FwTransfer} {off : Nat} {d : List Byte} (hf : n.core.fw = some f) (h0 : 0 < f.id)
    (h1 : f.id < 65536) (ho : off % 8 = 0) (hl : d.length % 8 = 0) (hpos : 0 < d.length) (hlen : d.length < 65536)
    (hend : off + d.length ≤ f.length) (hmax : f.length ≤ 524288) :
    n.broadcastBlock (blockBytes f.id off d) = n.storeWrite (.fwBlock off d) none [] := by
  have hbytes : blockBytes f.id off d = [0x20] ++ (bytesBE 2 f.id ++ (bytesBE 3 off ++ (bytesBE 2 d.length ++ d))) := by
    simp only [blockBytes, List.append_assoc]
  have htail : (blockBytes f.id off d).drop 1 = bytesBE 2 f.id ++ (bytesBE 3 off ++ (bytesBE 2 d.length ++ d)) := by
    rw [hbytes]
    rfl
  have hid : natBE (((blockBytes f.id off d).drop 1).take 2) = f.id := by
    rw [htail, take_bytesBE, natBE_bytesBE]
    omega
  have hoff : natBE (((blockBytes f.id off d).drop 3).take 3) = off := by
    rw [← List.drop_drop (i := 2) (j := 1), htail, drop_bytesBE, take_bytesBE, natBE_bytesBE]
    omega
  have hrest : ((blockBytes f.id off d).drop 6) = bytesBE 2 d.length ++ d := by
    rw [← List.drop_drop (i := 5) (j := 1), htail, ← List.drop_drop (i := 3) (j := 2), drop_bytesBE, drop_bytesBE]
  have hcount : natBE (((blockBytes f.id off d).drop 6).take 2) = d.length := by
    rw [hrest, take_bytesBE, natBE_bytesBE]
    omega
  have hdata : (blockBytes f.id off d).drop 8 = d := by
    rw [← List.drop_drop (i := 2) (j := 6), hrest, drop_bytesBE]
  have hlength : (blockBytes f.id off d).length = 8 + d.length := by
    rw [hbytes]
    simp only [List.length_append, length_bytesBE, List.length_singleton]
    omega
  unfold Node.broadcastBlock
  simp only [hf, hid, hoff, hcount, hdata, hlength]
  exact if_pos ⟨rfl, by omega, trivial, ho, hl, hpos, hend, trivial⟩

end Sys2Proof.Machine
end

section
/-!
PROOFS. The obligation on the frames that pass at a node that does not head (12_grenrus_line.md R413 to R433, R459;
16_firmware_and_store.md R550).
-/
namespace Sys2Proof.Machine

/-- What a returning RET frame does (R416). -/
def Node.retPassed (h : FrameHdr) (payload : List Byte) (ret : Bool) (n : Node) : Node :=
  if !ret then n.send []
  else if n.heading then
    let cars := carsOf n.line.carLens payload
    let n := n.modLine fun l => { l with retCame := true, surveyDue := l.surveyDue || l.newLink cars }
    (n.cycleBlock h.cycle.toNat false cars).send []
  else
    let r := n.car false
    r.2.send [{ typ := 0x06, hdr := r.2.fwdHdr h true .good, payload := payload ++ r.1 }]

theorem retPassed_of_passing {h : FrameHdr} {n : Node} (bs : List Byte) (hh : n.heading = false) : n.retPassed h bs true =
    (n.car false).2.send [{ typ := 0x06, hdr := (n.car false).2.fwdHdr h true .good, payload := bs ++ (n.car false).1 }] := by
  rw [Node.retPassed, if_neg (by decide), if_neg (Bool.eq_false_iff.mp hh)]

/-- What a returning RC frame does (R433). -/
def Node.rcReturned (h : FrameHdr) (payload : List Byte) (ret : Bool) (n : Node) : Node :=
  if !ret || n.heading then n.send [] else
  let n := n.modLine fun l => { l with count := n.hopCount + 1 + (payload.length - 8) / 12 }
  n.send [{ typ := 0x04, hdr := n.fwdHdr h true .good, payload := payload ++ n.rcCar }]

/-- The count of nodes as a returning RC frame gives it (R433). -/
def Node.rcCounted (payload : List Byte) (n : Node) : Node :=
  n.modLine fun l => { l with count := n.hopCount + 1 + (payload.length - 8) / 12 }

theorem rcReturned_of_passing {h : FrameHdr} {n : Node} (bs : List Byte) (hh : n.heading = false) : n.rcReturned h bs true =
    (n.rcCounted bs).send
      [{ typ := 0x04, hdr := (n.rcCounted bs).fwdHdr h true .good, payload := bs ++ (n.rcCounted bs).rcCar }] := by
  rw [Node.rcReturned, hh, if_neg (by decide)]
  rfl

theorem received_hops (h : FrameHdr) (fs : List TxFrame) (n : Node) : (n.received h true fs).hopCount = n.hopCount := by
  have hhops : (n.takeHeader h true).line.hops = n.line.hops := by
    unfold Node.takeHeader
    extract_lets enters taken judged missed
    rw [if_neg (by simp)]
    show (taken.judgeCrc false).line.hops = _
    rw [judgeCrc_line]
    rfl
  exact congrArg (fun x : Option Nat => x.getD 0) hhops

section
variable {s : State} {h : FrameHdr} {t : Nat} (hv : s.node.power.vcel = true) (hc : s.node.power.cresetn = true)
  (hp : s.node.core.faults.points = []) (he : h.ending = .good) (hf : h.fromTail = false)
include hv hc hp he

/-! ### Outbound -/

section
variable (hd : (s.node.atT t).frameDir h = some false)
include hd

/-- The accumulator as SYNC leaves (R425). -/
def syncAcc (n : Node) (h : FrameHdr) (x : SyncPayload) : Int :=
  if n.turns h then x.acc else x.acc + roundDiv (x.fRet - x.fOut + n.par Pid.lineSkew 0) 2

/-- The SYNC frame that goes on. -/
def syncOn (n : Node) (h : FrameHdr) (x : SyncPayload) : List TxFrame :=
  n.passedOn h false 0x01 (syncBytes x.lt.toNat x.rt0.toNat (syncAcc n h x))

theorem effect_syncFrame {x : SyncPayload} {P : Node → Prop}
    (hP : P (((s.node.atT t).received h false (syncOn (s.node.atT t) h x)).takeSync h x)) : Effect (.syncFrame h x t) s P := by
  refine effect_read rfl hv hc ?_
  have hpassed := receive_passed (n := s.node.atT t) 0x01 (syncBytes x.lt.toNat x.rt0.toNat (syncAcc (s.node.atT t) h x))
    (fun ret n => if ret then n else n.takeSync h x) hp he hd
  exact Eq.subst (motive := P) hpassed.symm hP

include hf

theorem syncFrame_clauses (x : SyncPayload) : let n := s.node.atT t
    let acc := x.acc + roundDiv (x.fRet - x.fOut + n.par Pid.lineSkew 0) 2
    let dNew : Int := ((x.rt0.toNat : Int) - (n.line.rt.elim 0 Prod.fst : Nat) - 2 * x.acc - n.par Pid.lineSkew 0) * (fxOne / 2)
    (n.turns h = false → Effect (.syncFrame h x t) s fun m =>
      m.line.sent.map TxFrame.payload = [syncBytes x.lt.toNat x.rt0.toNat acc] ∧ m.time.lastSync = some n.now ∧
      m.line.syncs = n.line.syncs + 1) ∧
    (n.line.delay = none → n.line.rt = none →
      Effect (.syncFrame h x t) s fun m => m.time = { n.time with lastSync := some n.now }) ∧
    (∀ rt c, n.line.rt = some (rt, c) → (c + 1) % 4294967296 = h.cycle.toNat →
      (n.line.delay = none → Effect (.syncFrame h x t) s fun m => m.line.delay = some dNew) ∧
      (∀ d, n.line.delay = some d → (dNew - d).natAbs ≤ 100000 * fxOne →
        Effect (.syncFrame h x t) s fun m => m.line.delay = some (d + (dNew - d) / n.parN Pid.lineTfilt 0)) ∧
      (n.line.delay = none → n.parN Pid.refTsel 0 ≠ 1 → n.time.fallback = false → n.time.fallbackDue = false →
        let off := ltDiff (wrapLt (x.lt.toNat + roundDiv dNew (1000 * fxOne))) n.lt
        (n.time.mark = .localEpoch → Effect (.syncFrame h x t) s fun m => m.time.stepDue = some off) ∧
        (n.time.mark = .lineTime → 2000 < off.natAbs → Effect (.syncFrame h x t) s fun m => m.time.stepDue = some off) ∧
        (n.time.mark = .lineTime → off.natAbs ≤ 2000 → Effect (.syncFrame h x t) s fun m =>
          m.time.offsetPs = off * 1000 ∧ m.time.stepDue = none))) := by
  intro n acc dNew
  have heffect := fun P => effect_syncFrame (x := x) (P := P) hv hc hp he hd
  have hpasses := received_passes hf false (syncOn (s.node.atT t) h x) (s.node.atT t)
  have hsent : ((s.node.atT t).received h false (syncOn (s.node.atT t) h x)).line.sent.map TxFrame.payload =
        [syncBytes x.lt.toNat x.rt0.toNat (syncAcc (s.node.atT t) h x)] := rfl
  generalize (s.node.atT t).received h false _ = m at heffect hpasses hsent
  have htime : m.time = n.time := hpasses.time
  have hnow : m.now = n.now := by rw [Node.now, htime]; rfl
  have hlt : m.lt = n.lt := by rw [Node.lt, htime]; rfl
  refine ⟨fun hturn => heffect _ ?_, fun hd0 hr0 => heffect _ ?_, fun rt c hrt hcyc => ?_⟩
  · obtain ⟨hkept, hcount, hlast⟩ := takeSync_counts h x m
    have hacc : syncAcc (s.node.atT t) h x = acc := if_neg (Bool.eq_false_iff.mp hturn)
    rw [hkept, hsent, hcount, hlast, hnow, hpasses.line.syncs, hacc]
    exact ⟨rfl, rfl, rfl⟩
  · rw [takeSync_unmeasured x (hpasses.line.delay.trans hd0) (hpasses.line.rt.trans hr0), htime, hnow]
  · have hmrt : m.line.rt = some (rt, c) := hpasses.line.rt.trans hrt
    have hnew : m.newDelay x rt = dNew := by
      show _ = ((x.rt0.toNat : Int) - (n.line.rt.elim 0 Prod.fst : Nat) - 2 * x.acc - n.par Pid.lineSkew 0) * (fxOne / 2)
      rw [Node.newDelay, hpasses.par, hrt]
      rfl
    refine ⟨fun hd0 => heffect _ ?_, fun d hd1 hnear => heffect _ ?_, fun hd0 href hfall hdue => ?_⟩
    · rw [takeSync_delay x hmrt hcyc, hnew]
      exact delayUpdate_first (n := m.syncCounted) (hpasses.line.delay.trans hd0)
    · rw [takeSync_delay x hmrt hcyc, hnew, delayUpdate_near (n := m.syncCounted) (hpasses.line.delay.trans hd1) hnear]
      have htfilt : m.syncCounted.parN Pid.lineTfilt 0 = n.parN Pid.lineTfilt 0 := hpasses.parN Pid.lineTfilt 0
      rw [htfilt]
    · intro off
      obtain ⟨k, hmark, hcore, hkfall, hkdue, hfollows⟩ := takeSync_follows x hmrt hcyc (hpasses.line.delay.trans hd0)
      have hoff : ltDiff (lineTime x (m.newDelay x rt)) m.lt = off := by rw [hnew, hlt]; rfl
      have hkref : k.parN Pid.refTsel 0 ≠ 1 := by rwa [parN_of_core hcore, hpasses.parN]
      have hf0 : k.time.fallback = false := by rw [hkfall, htime]; exact hfall
      have hf1 : k.time.fallbackDue = false := by rw [hkdue, htime]; exact hdue
      have hmk : k.time.mark = n.time.mark := by rw [hmark, htime]
      rw [hoff] at hfollows
      refine ⟨fun hm => heffect _ ?_, fun hm hfar => heffect _ ?_, fun hm hnear => heffect _ ?_⟩ <;> rw [hfollows]
      · exact followLine_epoch hkref hf0 hf1 (hmk.trans hm)
      · exact followLine_far hkref hf0 hf1 (hmk.trans hm) hfar
      · exact followLine_near hkref hf0 hf1 (hmk.trans hm) hnear

omit hf in
/-- The node that a CMD frame finds (R413). -/
theorem effect_cmdFrame {bs d : List Byte} {dest : Nat} {P : Node → Prop} (hentry : cmdEntries bs.length bs = [(dest, d)])
    (hP : P (let m := (s.node.atT t).received h false ((s.node.atT t).passedOn h false 0x03 bs)
      if m.addressed dest then m.lineArrive d else m)) : Effect (.cmdFrame h bs t) s P := by
  have hrow : exec (.cmdFrame h bs t) s = s.upd fun n => n.whenCellar fun n => (n.atT t).receive h 0x03 bs fun ret n =>
      if ret then (if n.heading then n.send [] else n) else n.takeEntries bs := rfl
  refine effect_passed hrow hv hc hp he hd ?_
  rw [if_neg Bool.false_ne_true, takeEntries_single hentry]
  exact hP

theorem cmdFrame_clauses (bs d : List Byte) (dest : Nat) (p : Packet) (ok : Bool) (oc : Opcode) (due : Nat) (sch : Bool)
    (side : RelaySide) : let n := s.node.atT t
    let n' := ((n.checkFrame h false).2.takeHeader h false).send [{ typ := 0x03, hdr := n.fwdHdr h false .good, payload := bs }]
    cmdEntries bs.length bs = [(dest, d)] →
    (n'.addressed dest = false → Effect (.cmdFrame h bs t) s fun m => m.core.pool = n.core.pool ∧ m.line.sent = n'.line.sent) ∧
    (n'.addressed dest = true → packetOfBytes .line d = some (p, ok) → s.node.up = true → s.node.core.drain = none →
      n'.judgePacket p ok (wrapK (n.time.k48 + 1)) = .accept oc due sch side → Effect (.cmdFrame h bs t) s fun m =>
        m.line.sent = n'.line.sent ∧ ∃ op : PoolOp, m.core.pool = n.core.pool ++ [op] ∧ op.packet = p ∧ op.due = due ∧
          op.phase = .waiting ∧ op.side = side ∧ op.client = .line p.client) := by
  intro n n' hentry
  have hn' : n' = n.received h false (n.passedOn h false 0x03 bs) := by
    have hcheck : (n.checkFrame h false).2 = n.modLine fun l => { l with framesOk := l.framesOk + 1 } := by
      rw [checkFrame_eq h false n hp, he]
      rfl
    show ((n.checkFrame h false).2.takeHeader h false).send _ = _
    rw [hcheck]
    rfl
  have heffect := fun P => effect_cmdFrame (P := P) hv hc hp he hd hentry
  have hpasses := received_passes hf false (n.passedOn h false 0x03 bs) n
  rw [← hn'] at hpasses
  have hpool : n'.core.pool = n.core.pool := pool_of_stores hpasses.stores
  refine ⟨fun haddr => heffect _ ?_, fun haddr hpacket hup hdrain hjudge => heffect _ ?_⟩
  · show (if (n.received h false _).addressed dest then _ else n.received h false _).core.pool = _ ∧
      (if (n.received h false _).addressed dest then _ else n.received h false _).line.sent = _
    rw [← hn', if_neg (Bool.eq_false_iff.mp haddr)]
    exact ⟨hpool, rfl⟩
  · have hdown : n'.downStatus = none := by
      refine downStatus_of_up n' (hpasses.up.trans hup) ?_
      have hdrains := congrArg Core.drain hpasses.core
      exact hdrains.trans hdrain
    have hk48 : n.time.k48 = n'.time.k48 := by rw [hpasses.time]
    rw [hk48] at hjudge
    obtain ⟨hline, op, hop⟩ := lineArrive_accepted hpacket hdown hjudge
    show (if (n.received h false _).addressed dest then _ else n.received h false _).line.sent = _ ∧ ∃ op : PoolOp,
      (if (n.received h false _).addressed dest then _ else n.received h false _).core.pool = _ ∧ _
    rw [← hn', if_pos haddr, hline, ← hpool]
    exact ⟨rfl, op, hop⟩

theorem cycFrame_clauses (bs : List Byte) : let n := s.node.atT t
    let hop := min 1023 (h.hop.toNat + 1)
    Effect (.cycFrame h bs t) s (fun m => m.line.cycSeen = true ∧ m.line.cycMiss = 0 ∧
      (n.turns h = true → ∃ car, m.line.sent = [{ typ := 0x06, hdr := { h with ret := true }, payload := car }] ∧
        32768 ≤ natBE (car.take 2)) ∧
      (n.turns h = false → m.line.sent.map TxFrame.payload = [bs])) ∧
    (s.node.up = true → n.turns h = false → hop < n.line.count → let k := bs.length / (n.line.count - 1)
      Effect (.cycFrame h bs t) s fun m =>
        m.host.blocks = [bytesBE 4 h.cycle.toNat ++ (bs.drop ((hop - 1) * k)).take k]) := by
  intro n hop
  have hpassed := receive_passed (n := n) 0x02 bs (Node.cycPassed h (n.turns h) bs) hp he hd
  have hpasses := received_passes hf false (n.passedOn h false 0x02 bs) n
  have hhop := received_hopCount h (n.passedOn h false 0x02 bs) n
  have hsent : (n.received h false (n.passedOn h false 0x02 bs)).line.sent.map TxFrame.payload = [bs] := rfl
  generalize n.received h false (n.passedOn h false 0x02 bs) = m at hpassed hpasses hhop hsent
  have hline := takeCyc_line h (n.turns h) bs m
  refine ⟨execCycFrame_of_none hv hc hp ?_, fun hup hturns hcount => execCycFrame_of_none hv hc hp ?_⟩ <;> rw [hpassed]
  · by_cases hturns : n.turns h = true
    · rw [if_pos hturns]
      have hstarts : Node.cycPassed h (n.turns h) bs false m = (m.takeCyc h (n.turns h) bs).startRet h := by
        rw [Node.cycPassed, if_neg Bool.false_ne_true, if_pos hturns]
      rw [hstarts]
      generalize m.takeCyc h (n.turns h) bs = k at hline
      have hkept : (k.startRet h).line = { k.line with
        mismatch := false, sent := [{ typ := 0x06, hdr := { h with ret := true, ending := .good }, payload := (k.car true).1 }] } := rfl
      have hhdr : ({ h with ret := true, ending := .good } : FrameHdr) = { h with ret := true } := by rw [← he]
      rw [modLine_line, hkept, hline, hhdr]
      exact ⟨rfl, rfl, fun _ => ⟨_, rfl, car_turns k⟩, fun hno => nomatch hturns.symm.trans hno⟩
    · rw [if_neg hturns, Node.cycPassed, if_neg Bool.false_ne_true, if_neg hturns, hline]
      exact ⟨rfl, rfl, fun hyes => absurd hyes hturns, fun _ => hsent⟩
  · rw [if_neg (Bool.eq_false_iff.mp hturns), Node.cycPassed, if_neg Bool.false_ne_true, if_neg (Bool.eq_false_iff.mp hturns), hturns,
      takeCyc_blocks (hpasses.up.trans hup) (by omega) (by rw [hhop, hpasses.line.count]; exact hcount), hhop, hpasses.line.count]

theorem rcFrame_clauses (ht : s.node.line.inTail = false) (mode : Nat) (sig : Word) (hm : mode ≤ 1) : let n := s.node.atT t
    let hop := min 1023 (h.hop.toNat + 1)
    let bs := bytesBE 1 mode ++ wordBytes sig ++ [0, 0]
    Effect (.rcFrame h bs t) s (fun m => m.line.rcSig = some sig ∧ m.line.rcHops = hop ∧ m.line.rollCycle = true ∧
      (n.turns h = true → m.line.count = hop + 1 ∧ ∃ car : List Byte, car.length = 12 ∧
        m.line.sent.map TxFrame.payload = [bs ++ car])) ∧
    (mode = 1 → s.node.up = false ∨ s.node.core.mode = .cask →
      Effect (.rcFrame h bs t) s fun m => m.line.lock = some (hop, sig) ∧ m.line.outcome = some 1 ∧ m.line.rcKept = false) ∧
    (mode = 0 ∨ (s.node.up = true ∧ s.node.core.mode ≠ .cask) →
      Effect (.rcFrame h bs t) s fun m => m.line.lock = n.line.lock ∧ m.line.rcKept = decide (mode = 1) ∧
        m.line.outcome = some (match n.line.lock with
          | none => 0
          | some (p, g) => if p = hop ∧ (g = sig ∨ sig = 0) then 1 else 2)) := by
  intro n hop bs
  have heffect : ∀ P : Node → Prop, P ((n.received h false (n.passedOn h false 0x04 bs)).rcPassed h (rcBytes mode sig) false) →
      Effect (.rcFrame h bs t) s P := fun P hP => effect_passed (f := Node.rcPassed h bs) rfl hv hc hp he hd hP
  have hpasses := received_passes hf false (n.passedOn h false 0x04 bs) n
  have hhop := received_hopCount h (n.passedOn h false 0x04 bs) n
  generalize n.received h false (n.passedOn h false 0x04 bs) = m at heffect hpasses hhop
  obtain ⟨hrolled, hlocking, hturned⟩ := rcPassed_spec (h := h) sig m hm
  have hfound : (m.rcFound h (rcBytes mode sig)).hopCount = hop ∧ (m.rcFound h (rcBytes mode sig)).line.inTail = false ∧
      (m.rcFound h (rcBytes mode sig)).line.lock = n.line.lock := ⟨hhop, hpasses.line.inTail.trans ht, hpasses.line.lock⟩
  have hmode : m.core.mode = s.node.core.mode := by
    have hmodes := congrArg Core.mode hpasses.core
    exact hmodes
  have hstores : (m.rcFound h (rcBytes mode sig)).storesLock mode =
      (decide (mode = 1) && (!s.node.up || s.node.core.mode == .cask)) := by
    show (decide (mode = 1) && (!m.up || m.core.mode == .cask)) = _
    rw [hpasses.up, hmode]
    rfl
  refine ⟨heffect _ ?_, fun hone hfree => heffect _ ?_, fun hkeeps => heffect _ ?_⟩
  · refine ⟨hrolled.rcSig, hrolled.rcHops.trans hhop, hrolled.rollCycle, fun hturns => ?_⟩
    have hback := hturned ((hpasses.turns h).trans hturns)
    rwa [hhop] at hback
  · subst hone
    have hyes : (m.rcFound h (rcBytes 1 sig)).storesLock 1 = true := by
      rw [hstores]
      rcases hfree with hfree | hfree <;> simp [hfree]
    rw [takeRollCall_stores hfound.2.1 hyes, hfound.1] at hlocking
    simp only [Line.locking, Prod.mk.injEq] at hlocking
    exact hlocking
  · have hno : (m.rcFound h (rcBytes mode sig)).storesLock mode = false := by
      rw [hstores]
      rcases hkeeps with hkeeps | ⟨hup, hmoving⟩
      · simp [hkeeps]
      · simp [hup, hmoving]
    rw [takeRollCall_compares hfound.2.1 hno, hfound.1, hfound.2.2] at hlocking
    simp only [Line.locking, Prod.mk.injEq] at hlocking
    obtain ⟨hlock, houtcome, hkept⟩ := hlocking
    exact ⟨hlock, hkept, houtcome⟩

omit hf in
theorem mntUnfoldNotice_clause {c : Nat} (hcyc : c < 4294967296) :
    Effect (.mntUnfoldNotice h ([2] ++ bytesBE 4 c) t) s fun m => m.line.notice = some c := by
  obtain ⟨htwo, hlen, hnotice⟩ := notice_bytes hcyc
  have hrow : exec (.mntUnfoldNotice h ([2] ++ bytesBE 4 c) t) s = s.upd fun n => n.whenCellar fun n =>
      (n.atT t).receive h 0x05 ([2] ++ bytesBE 4 c) fun ret n =>
        if ret then (if n.heading then n.send [] else n)
        else if natBE ((([2] : List Byte) ++ bytesBE 4 c).take 1) = 2 ∧ 5 ≤ (([2] : List Byte) ++ bytesBE 4 c).length then
          n.modLine fun l => { l with notice := some (natBE (((([2] : List Byte) ++ bytesBE 4 c).drop 1).take 4)) }
        else n := rfl
  refine effect_passed hrow hv hc hp he hd ?_
  rw [if_neg Bool.false_ne_true, if_pos ⟨htwo, hlen⟩, modLine_line, hnotice]

theorem mntImageBlock_clause {f : FwTransfer} {off : Nat} {d : List Byte} (hup : s.node.up = true) (hfw : s.node.core.fw = some f)
    (h0 : 0 < f.id) (h1 : f.id < 65536) (ho : off % 8 = 0) (hl : d.length % 8 = 0) (hpos : 0 < d.length) (hlen : d.length < 65536)
    (hend : off + d.length ≤ f.length) (hmax : f.length ≤ 524288) :
    Effect (.mntImageBlock h ([0x20] ++ bytesBE 2 f.id ++ bytesBE 3 off ++ bytesBE 2 d.length ++ d) t) s fun m =>
      m.store.writes = s.node.store.writes ++ [{ kind := .fwBlock off d, op := none, words := [] }] := by
  have hrow : exec (.mntImageBlock h (blockBytes f.id off d) t) s = s.upd fun n => n.whenCellar fun n =>
      (n.atT t).receive h 0x05 (blockBytes f.id off d) fun ret n =>
        if ret then (if n.heading then n.send [] else n) else if n.up then n.broadcastBlock (blockBytes f.id off d) else n := rfl
  refine effect_passed hrow hv hc hp he hd ?_
  have hpasses := received_passes hf false ((s.node.atT t).passedOn h false 0x05 (blockBytes f.id off d)) (s.node.atT t)
  generalize (s.node.atT t).received h false _ = m at hpasses
  have hfm : m.core.fw = some f := by
    have hfws := congrArg Core.fw hpasses.core
    exact hfws.trans hfw
  have hwrites : m.store.writes = s.node.store.writes := congrArg (fun x => x.2.1) hpasses.stores
  rw [if_neg Bool.false_ne_true, if_pos (hpasses.up.trans hup), broadcastBlock_writes hfm h0 h1 ho hl hpos hlen hend hmax]
  show m.store.writes ++ _ = _
  rw [hwrites]

end

/-! ### Returning -/

section
variable (hd : (s.node.atT t).frameDir h = some true) (hh : s.node.heading = false)
include hf hd hh

theorem syncReturn_clause (rt : Nat) (hturned : (s.node.atT t).turnedHere h = false) :
    Effect (.syncReturn h rt t) s fun m => m.line.rt = some (rt, h.cycle.toNat) := by
  refine effect_read rfl hv hc ?_
  rw [if_neg (Bool.eq_false_iff.mp hturned), receive_passed (n := s.node.atT t) 0x01 [] _ hp he hd]
  have hpasses := received_passes hf true ((s.node.atT t).passedOn h true 0x01 []) (s.node.atT t)
  generalize (s.node.atT t).received h true _ = m at hpasses
  rw [if_neg (by decide), if_neg (Bool.eq_false_iff.mp (hpasses.heads.trans hh))]
  rfl

omit hv hc hp he hh in
/-- A returning frame that a node takes has come on DN (R405). -/
theorem returning_port : h.port = .dn := by
  unfold Node.frameDir at hd
  dsimp only at hd
  rw [hf, if_neg Bool.false_ne_true] at hd
  split at hd
  · exact nomatch hd
  · split at hd
    · split at hd
      · next hdn =>
        simp only [Bool.and_eq_true, decide_eq_true_eq] at hdn
        exact hdn.1.1.1
      · exact nomatch hd
    · split at hd <;> exact nomatch hd

omit hv hc hp hh in
/-- It goes on by UP. -/
theorem fwdHdr_returning (m : Node) : m.fwdHdr h true .good = { h with port := .up } := by
  have hdn := returning_port hf hd
  rw [Node.fwdHdr, if_pos rfl, hdn, ← he]
  rfl

theorem retFrame_clause (bs : List Byte) : Effect (.retFrame h bs t) s fun m => m.line.mismatch = false ∧ ∃ car,
    m.line.sent = [{ typ := 0x06, hdr := { h with port := .up }, payload := bs ++ car }] := by
  have hrow : exec (.retFrame h bs t) s = s.upd fun n => n.whenCellar fun n =>
      (n.atT t).receive h 0x06 bs (Node.retPassed h bs) := rfl
  refine effect_passed hrow hv hc hp he hd ?_
  have hpasses := received_passes hf true ((s.node.atT t).passedOn h true 0x06 bs) (s.node.atT t)
  generalize (s.node.atT t).received h true _ = m at hpasses
  rw [retPassed_of_passing bs (hpasses.heads.trans hh)]
  exact ⟨rfl, _, by rw [Node.send, modLine_line, fwdHdr_returning he hf hd]⟩

theorem rcReturn_clause (bs : List Byte) : Effect (.rcReturn h bs t) s fun m =>
    m.line.count = (s.node.atT t).hopCount + 1 + (bs.length - 8) / 12 ∧ ∃ car : List Byte, car.length = 12 ∧
      m.line.sent = [{ typ := 0x04, hdr := { h with port := .up }, payload := bs ++ car }] := by
  have hrow : exec (.rcReturn h bs t) s = s.upd fun n => n.whenCellar fun n =>
      (n.atT t).receive h 0x04 bs (Node.rcReturned h bs) := rfl
  refine effect_passed hrow hv hc hp he hd ?_
  have hpasses := received_passes hf true ((s.node.atT t).passedOn h true 0x04 bs) (s.node.atT t)
  have hhops := received_hops h ((s.node.atT t).passedOn h true 0x04 bs) (s.node.atT t)
  generalize (s.node.atT t).received h true _ = m at hpasses hhops
  rw [rcReturned_of_passing bs (hpasses.heads.trans hh)]
  exact ⟨congrArg (fun k => k + 1 + (bs.length - 8) / 12) hhops, _, rcCar_length _, by rw [Node.send, modLine_line, fwdHdr_returning he hf hd]⟩

end

end

/-- Settles O51, frame by frame. -/
theorem framesAtANode : Obligations.FramesAtANode := by
  intro s h t n hv hc hp he hf ht hh hop
  refine ⟨fun hd => ⟨fun x => syncFrame_clauses hv hc hp he hf hd x, fun bs d dest p ok oc due sch side =>
      cmdFrame_clauses hv hc hp he hf hd bs d dest p ok oc due sch side, fun bs => cycFrame_clauses hv hc hp he hf hd bs,
      fun mode sig hm => rcFrame_clauses hv hc hp he hf hd ht mode sig hm, fun c hcyc => mntUnfoldNotice_clause hv hc hp he hd hcyc,
      fun f off d hup hfw h0 h1 ho hl hpos hlen hend hmax =>
        mntImageBlock_clause hv hc hp he hf hd hup hfw h0 h1 ho hl hpos hlen hend hmax⟩,
    fun hd => ⟨fun rt hturned => syncReturn_clause hv hc hp he hf hd hh rt hturned, fun bs => retFrame_clause hv hc hp he hf hd hh bs,
      fun bs _ => rcReturn_clause hv hc hp he hf hd hh bs⟩⟩

end Sys2Proof.Machine
end

section
/-!
PROOFS. Side-lane frames, beacons and shadows (13_line_failures.md R461 to R463; 14_tandem.md R469 to R471).
-/
namespace Sys2Proof.Machine

/-! ### Frames on a side-lane -/

/-- The messages that wait on the side-lanes. -/
def Node.laneMsgs (n : Node) : List LaneMsg := n.lane.out.map LaneOut.msg

@[simp] theorem laneSend_msgs (q : LinePort) (x : LaneMsg) (n : Node) : (n.laneSend q x).laneMsgs = n.laneMsgs ++ [x] := by
  cases q <;> simp [Node.laneMsgs, Node.laneSend, Node.modLane]

/-- R471: the sequence number of the frame that has come is taken. -/
def Node.gotFrame (g : LaneHdr) (n : Node) : Node :=
  n.modLane fun l => match g.port with
    | .up => { l with gotUp := some g.seq }
    | .dn => { l with gotDn := some g.seq }

theorem gotFrame_cases (g : LaneHdr) (n : Node) :
    n.gotFrame g = n.modLane (fun l => { l with gotUp := some g.seq }) ∨
      n.gotFrame g = n.modLane (fun l => { l with gotDn := some g.seq }) := by
  unfold Node.gotFrame
  cases g.port
  · exact .inl rfl
  · exact .inr rfl

/-- What a frame's sequence number leaves: everything that does not read it. -/
theorem gotFrame_reads {β : Type} (f : Node → β) (hf : ∀ (a b : Option (BitVec 8)) n, f (n.modLane fun l => { l with gotUp := a, gotDn := b }) = f n)
    (g : LaneHdr) (n : Node) : f (n.gotFrame g) = f n := by
  obtain h | h := gotFrame_cases g n <;> rw [h]
  · exact hf (some g.seq) n.lane.gotDn n
  · exact hf n.lane.gotUp (some g.seq) n

/-- The latest sequence number received on a port. -/
def Lane.got (l : Lane) (q : LinePort) : Option (BitVec 8) :=
  match q with
  | .up => l.gotUp
  | .dn => l.gotDn

/-- Whether a bulk frame is new and sound (R470, R471). -/
def Node.fresh (g : LaneHdr) (n : Node) : Bool := g.crcOk && n.laneLink g.port && (n.lane.got g.port != some g.seq)

theorem laneTake_of_fresh {g : LaneHdr} {n : Node} (f : Node → Node) (hup : n.up = true) (h : n.fresh g = true) :
    n.laneTake g f = f (n.gotFrame g) := by
  simp only [Node.fresh, Bool.and_eq_true, bne_iff_ne] at h
  obtain ⟨⟨hcrc, hlink⟩, hgot⟩ := h
  have hpass : (!n.up || !g.crcOk || !n.laneLink g.port || n.lane.got g.port == some g.seq) = false := by
    simp [hup, hcrc, hlink, hgot]
  exact if_neg (Bool.eq_false_iff.mp hpass)

theorem laneTake_of_stale {g : LaneHdr} {n : Node} (f : Node → Node) (h : n.fresh g = false) : n.laneTake g f = n := by
  have hstop : (!n.up || !g.crcOk || !n.laneLink g.port || n.lane.got g.port == some g.seq) = true := by
    simp only [Node.fresh, Bool.and_eq_false_iff, bne_eq_false_iff_eq] at h
    obtain (h | h) | h := h <;> simp [h]
  exact if_pos hstop

/-- The row of a bulk frame that is new and sound. -/
theorem effect_fresh {c : Instr} {s : State} {g : LaneHdr} {t : Nat} {f : Node → Node} {P : Node → Prop}
    (hrow : exec c s = s.upd fun n => n.whenUp fun n => (n.atT t).laneTake g f) (hup : s.node.up = true)
    (hfresh : (s.node.atT t).fresh g = true) (h : P (f ((s.node.atT t).gotFrame g))) : Effect c s P :=
  effect_of_up hrow hup (laneTake_of_fresh f (n := s.node.atT t) hup hfresh ▸ h)

/-- R470, R471: the row of a bulk frame that fails its check, comes without link or repeats a number. -/
theorem effect_stale {c : Instr} {s : State} {g : LaneHdr} {t : Nat} {f : Node → Node}
    (hrow : exec c s = s.upd fun n => n.whenUp fun n => (n.atT t).laneTake g f) (hup : s.node.up = true)
    (hfresh : (s.node.atT t).fresh g = false) : Effect c s fun m => m = s.node.atT t :=
  effect_of_up hrow hup (laneTake_of_stale f hfresh)

/-! ### Links -/

theorem effect_laneLinkChange_up (s : State) (q : LinePort) (t : Nat) (hv : s.node.power.vcel = true) (hc : s.node.power.cresetn = true) :
    Effect (.laneLinkChange q true t) s fun m =>
      m.laneLink q = true ∧ m.store = (s.node.atT t).store ∧ m.core = (s.node.atT t).core := by
  refine effect_read rfl hv hc ?_
  cases q <;> exact ⟨rfl, rfl, rfl⟩

/-- An adoption that no command asked for fails without a reply. -/
theorem adoptFails_auto {n : Node} {a : Adoption} (ha : n.lane.adoption = some a) (hop : a.op = none) :
    n.adoptFails = n.modLane fun l => { l with adoption := none } := by
  unfold Node.adoptFails
  rw [ha]
  dsimp only
  rw [hop]
  rfl

/-- The side-lane of a port without link. -/
def Lane.unlinked (q : LinePort) (l : Lane) : Lane :=
  match q with
  | .up => { l with upLink := false, beaconUp := none, gotUp := none, refreshUp := none }
  | .dn => { l with dnLink := false, beaconDn := none, gotDn := none, refreshDn := none }

/-- The latest beacon of the neighbour on a port. -/
def Lane.beaconOf (l : Lane) (q : LinePort) : Option BeaconBody :=
  match q with
  | .up => l.beaconUp
  | .dn => l.beaconDn

theorem unlinked_spec (q : LinePort) (n : Node) :
    let m := n.modLane (Lane.unlinked q)
    m.laneLink q = false ∧ m.lane.refresh q = none ∧ m.lane.beaconOf q = none ∧ m.lane.adoption = n.lane.adoption := by
  cases q <;> exact ⟨rfl, rfl, rfl, rfl⟩

theorem effect_laneLinkChange_down {s : State} {q : LinePort} {t : Nat} (hv : s.node.power.vcel = true)
    (hc : s.node.power.cresetn = true) (hauto : ∀ a, s.node.lane.adoption = some a → a.op = none) :
    Effect (.laneLinkChange q false t) s fun m => m.laneLink q = false ∧ m.lane.refresh q = none ∧ m.lane.beaconOf q = none ∧
      ∀ a, s.node.lane.adoption = some a → m.lane.adoption = if a.port = q then none else some a := by
  refine effect_read (f := fun n => let m := (n.atT t).modLane (Lane.unlinked q)
    if m.lane.adoption.any (fun a => a.port == q) then m.adoptFails else m) (by cases q <;> rfl) hv hc ?_
  obtain ⟨hlink, hrefresh, hbeacon, hadoption⟩ := unlinked_spec q (s.node.atT t)
  dsimp only at hlink hrefresh hbeacon hadoption ⊢
  generalize (s.node.atT t).modLane (Lane.unlinked q) = m at hlink hrefresh hbeacon hadoption ⊢
  have hkeep : m.lane.adoption = s.node.lane.adoption := hadoption
  cases ha : s.node.lane.adoption with
  | none =>
    rw [if_neg (by rw [hkeep, ha]; exact Bool.false_ne_true)]
    exact ⟨hlink, hrefresh, hbeacon, fun a h => absurd h (by simp)⟩
  | some a =>
    have hma := hkeep.trans ha
    by_cases hport : a.port = q
    · rw [if_pos (by simp [hma, hport]), adoptFails_auto hma (hauto a ha)]
      refine ⟨hlink, hrefresh, hbeacon, fun b hb => ?_⟩
      rw [← Option.some.inj hb, if_pos hport]
      rfl
    · rw [if_neg (by simp [hma, hport])]
      refine ⟨hlink, hrefresh, hbeacon, fun b hb => ?_⟩
      rw [← Option.some.inj hb, if_neg hport]
      exact hma

/-! ### Resends and beacons -/

/-- R471: frames of the pair that were not acknowledged. -/
theorem effect_bulkResend (s : State) (t : Nat) (hup : s.node.up = true) : let n := s.node.atT t
    Effect (.bulkResend t) s fun m => m = if n.lane.sending then n.modLane fun l =>
      { l with out := n.lane.out.map fun o =>
          if o.port = n.lane.partnerPort ∧ kLe (o.tick + 4) n.time.k48 then { o with tick := n.time.k48 } else o } else n := by
  refine effect_of_up rfl hup ?_
  cases h : (s.node.atT t).lane.sending
  · rw [if_neg Bool.false_ne_true]
    exact if_pos (by rw [h]; rfl)
  · rw [if_pos rfl]
    exact if_neg (by rw [h]; exact Bool.false_ne_true)

/-- The beacon of a side is sent where the side has link. -/
def Node.beaconed (q : LinePort) (n : Node) : Node := if n.laneLink q then n.laneSend q (.beacon (n.beacon q)) else n

theorem beaconed_spec (q : LinePort) (n : Node) :
    (n.beaconed q).laneMsgs = n.laneMsgs ++ (if n.laneLink q then [LaneMsg.beacon (n.beacon q)] else []) ∧
      ∀ r, (n.beaconed q).laneLink r = n.laneLink r ∧ (n.beaconed q).beacon r = n.beacon r := by
  unfold Node.beaconed
  split
  · next h =>
    refine ⟨laneSend_msgs _ _ _, fun r => ?_⟩
    cases q <;> cases r <;> exact ⟨rfl, rfl⟩
  · next h =>
    exact ⟨(List.append_nil _).symm, fun _ => ⟨rfl, rfl⟩⟩

theorem effect_beaconSend (s : State) (t : Nat) (hup : s.node.up = true) : let n := s.node.atT t
    Effect (.beaconSend t) s fun m => m.laneMsgs = n.laneMsgs ++ ((if n.lane.upLink then [LaneMsg.beacon (n.beacon .up)] else []) ++
      if n.lane.dnLink then [LaneMsg.beacon (n.beacon .dn)] else []) := by
  refine effect_of_up (f := fun n => ((n.atT t).beaconed .up).beaconed .dn) rfl hup ?_
  obtain ⟨hup1, hrest⟩ := beaconed_spec .up (s.node.atT t)
  rw [(beaconed_spec .dn _).1, hup1, (hrest .dn).1, (hrest .dn).2, List.append_assoc]
  rfl

/-! ### The neighbour's beacon -/

/-- The neighbour's beacon is kept. -/
def Node.beaconKept (q : LinePort) (x : BeaconBody) (n : Node) : Node :=
  n.modLane fun l => match q with
    | .up => { l with beaconUp := some x }
    | .dn => { l with beaconDn := some x }

theorem beaconKept_spec (q : LinePort) (x : BeaconBody) (n : Node) : let m := n.beaconKept q x
    m.lane.beaconOf q = some x ∧ m.lane.out = n.lane.out ∧ m.lane.adoption = n.lane.adoption ∧ m.shadowOf q = n.shadowOf q := by
  cases q <;> exact ⟨rfl, rfl, rfl, rfl⟩

/-- R463: a refresh of the shadow of a port starts. -/
def Node.refreshed (q : LinePort) (n : Node) : Node := (n.setRefresh q (some { port := q })).laneSend q (.shadowReq false)

theorem refreshed_spec (q : LinePort) (n : Node) : (n.refreshed q).lane.beaconOf q = n.lane.beaconOf q ∧
    (n.refreshed q).lane.refresh q = some { port := q } ∧ (n.refreshed q).laneMsgs = n.laneMsgs ++ [.shadowReq false] := by
  refine ⟨?_, ?_, (laneSend_msgs ..).trans ?_⟩
  all_goals cases q <;> rfl

theorem takeBeacon_eq (q : LinePort) (x : BeaconBody) (n : Node) : n.takeBeacon q x =
    if (decide (x.lockState = 1) && shadowDiffers (n.shadowOf q) x && !(n.lane.adoption.any fun a => a.port == q)) = true
    then (n.beaconKept q x).refreshed q else n.beaconKept q x := by
  obtain ⟨_, _, hadoption, hshadow⟩ := beaconKept_spec q x n
  rw [← hadoption, ← hshadow]
  rfl

theorem takeBeacon_keeps (q : LinePort) (x : BeaconBody) (n : Node) : (n.takeBeacon q x).lane.beaconOf q = some x := by
  rw [takeBeacon_eq]
  split
  · exact ((refreshed_spec q _).1).trans (beaconKept_spec q x n).1
  · exact (beaconKept_spec q x n).1

theorem takeBeacon_refreshes {q : LinePort} {x : BeaconBody} {n : Node} (ha : n.lane.adoption = none) (hx : x.lockState = 1)
    (hd : shadowDiffers (n.shadowOf q) x = true) :
    (n.takeBeacon q x).lane.refresh q = some { port := q } ∧ (n.takeBeacon q x).laneMsgs = n.laneMsgs ++ [.shadowReq false] := by
  rw [takeBeacon_eq, if_pos (by simp [ha, hx, hd])]
  obtain ⟨_, hrefresh, hmsgs⟩ := refreshed_spec q (n.beaconKept q x)
  exact ⟨hrefresh, by rw [hmsgs, Node.laneMsgs, (beaconKept_spec q x n).2.1]; rfl⟩

theorem takeBeacon_agrees {q : LinePort} {x : BeaconBody} {n : Node} (hd : shadowDiffers (n.shadowOf q) x = false) :
    (n.takeBeacon q x).lane.out = n.lane.out := by
  rw [takeBeacon_eq, if_neg (by simp [hd])]
  exact (beaconKept_spec q x n).2.1

/-! ### Serving a shadow -/

theorem eachOf_laneSend {α : Type} (q : LinePort) (f : α → LaneMsg) (xs : List α) (n : Node) :
    (eachOf xs (fun x m => m.laneSend q (f x)) n).laneMsgs = n.laneMsgs ++ xs.map f := by
  induction xs generalizing n with
  | nil => exact (List.append_nil _).symm
  | cons x xs ih =>
    refine (ih _).trans ?_
    rw [laneSend_msgs, List.append_assoc]
    rfl

/-- The parts of a shadow join to its bytes (R463; log entry 36). -/
theorem shadowParts_bytes (sh : Shadow) (f off : Nat) (bs : List Byte) (hf : bs.length < f) :
    (shadowParts sh f off bs).flatMap ShadowPart.bytes = bs := by
  induction f generalizing off bs with
  | zero => omega
  | succ f ih =>
    unfold shadowParts
    dsimp only
    split
    · next hlast => simp [List.take_of_length_le hlast]
    · next hmore =>
      have hsize : partSize = 240 := rfl
      rw [List.flatMap_cons, ih _ _ (by rw [List.length_drop]; omega), List.take_append_drop]

theorem serve_sends {q : LinePort} {adopt : Bool} {n : Node} {sh : Shadow}
    (h : (if adopt then n.shadowOf q else some n.ownShadow) = some sh) :
    (n.serve q adopt).laneMsgs = n.laneMsgs ++ (shadowParts sh (sh.bytes.length + 1) 0 sh.bytes).map LaneMsg.shadowData := by
  unfold Node.serve
  rw [h]
  exact eachOf_laneSend q LaneMsg.shadowData _ n

/-! ### A shadow's parts arrive -/

theorem take_inOrder {x : Transfer} {p : ShadowPart} (h : p.offset = x.bytes.length) :
    x.take p = { x with bytes := x.bytes ++ p.bytes, header := if p.last then some p else x.header } := if_neg (not_not_intro h)

theorem setRefresh_refresh (q : LinePort) (x : Option Transfer) (n : Node) : (n.setRefresh q x).lane.refresh q = x := by
  cases q <;> rfl

theorem takePart_refresh {q : LinePort} {p : ShadowPart} {n : Node} {x : Transfer} (ha : n.lane.adoption = none)
    (hx : n.lane.refresh q = some x) (hp : p.offset = x.bytes.length) : (n.takePart q p).lane.refresh q =
      some { x with bytes := x.bytes ++ p.bytes, header := if p.last then some p else x.header } := by
  rw [← take_inOrder hp]
  unfold Node.takePart
  rw [ha, Option.filter_none]
  dsimp only
  rw [hx]
  exact setRefresh_refresh q _ n

/-- R465: a part of the configuration that is adopted. -/
theorem takePart_adoption {q : LinePort} {n : Node} {a : Adoption} (p : ShadowPart) (ha : n.lane.adoption = some a) (hq : a.port = q) :
    n.takePart q p =
      let m := n.modLane fun l => { l with adoption := some { a with transfer := a.transfer.take p } }
      if p.last && (a.transfer.take p).shadow.isNone then m.adoptFails else m := by
  have hfilter : (n.lane.adoption.filter fun a => a.port == q) = some a := by simp [ha, hq]
  unfold Node.takePart
  rw [hfilter]

theorem takePart_extends {q : LinePort} {n : Node} {a : Adoption} {p : ShadowPart} (ha : n.lane.adoption = some a) (hq : a.port = q)
    (hl : p.last = false) (hp : p.offset = a.transfer.bytes.length) : (n.takePart q p).lane.adoption =
      some { a with transfer := { a.transfer with bytes := a.transfer.bytes ++ p.bytes } } := by
  rw [takePart_adoption p ha hq, take_inOrder hp]
  simp only [hl, Bool.false_and, Bool.false_eq_true, if_false]
  rfl

theorem takePart_fails {q : LinePort} {n : Node} {a : Adoption} {p : ShadowPart} (ha : n.lane.adoption = some a) (hq : a.port = q)
    (hl : p.last = true) (hop : a.op = none) (hs : (a.transfer.take p).shadow = none) :
    (n.takePart q p).lane.adoption = none ∧ (n.takePart q p).store = n.store := by
  rw [takePart_adoption p ha hq]
  dsimp only
  rw [if_pos (by simp [hl, hs]), adoptFails_auto (a := { a with transfer := a.transfer.take p }) rfl hop]
  exact ⟨rfl, rfl⟩

/-! ### A refresh ends -/

theorem effect_refreshDone {s : State} {q : LinePort} {t : Nat} {x : Transfer} {h : ShadowPart} {P : Node → Prop} (hup : s.node.up = true)
    (hx : s.node.lane.refresh q = some x) (hh : x.header = some h)
    (hP : P (match x.shadow with
      | some sh => ((s.node.atT t).setRefresh q none).storeWrite (.shadow (q == .up) sh) none []
      | none => (s.node.atT t).setRefresh q none)) : Effect (.shadowRefreshDone q t) s P := by
  refine effect_of_up rfl hup ?_
  have hx' : (s.node.atT t).lane.refresh q = some x := hx
  dsimp only
  rw [hx']
  simp only [hh, Option.isNone_some, Bool.false_eq_true, if_false]
  exact hP

end Sys2Proof.Machine
end

section
/-!
PROOFS. Adoption (13_line_failures.md R464 to R466), and the obligation on the side-lanes.
-/
namespace Sys2Proof.Machine

/-! ### An adoption starts -/

theorem startAdoption_spec (op : Option Nat) (q : LinePort) (n : Node) : let m := n.startAdoption op q
    m.lane.adoption = some { op := op, port := q, transfer := { port := q } } ∧ m.laneMsgs = n.laneMsgs ++ [.shadowReq true] ∧
      m.core = n.core := by
  unfold Node.startAdoption
  refine ⟨?_, (laneSend_msgs ..).trans ?_, ?_⟩
  all_goals cases q <;> rfl

/-- R466. -/
theorem effect_autoAdopt {s : State} {q : LinePort} {t : Nat} {x : BeaconBody} {port : LinePort} (hup : s.node.up = true)
    (ho : s.node.line.outcome = some 0) (hm : s.node.core.mode = .cask) (ha : s.node.lane.adoption = none)
    (hx : s.node.lane.beaconOf q = some x) (hauto : x.autoAdopt = true) (he : (s.node.eligible q).isSome = true)
    (hside : s.node.adoptSide 0 = some port) : Effect (.autoAdopt q t) s fun m =>
      m.lane.adoption = some { op := none, port := port, transfer := { port := port } } ∧
        m.laneMsgs = s.node.laneMsgs ++ [.shadowReq true] := by
  refine effect_of_up (f := fun n => let n := n.atT t
    if n.line.outcome = some 0 && n.core.mode == .cask && n.lane.adoption.isNone && (n.lane.beaconOf q).any (fun x => x.autoAdopt) &&
        (n.eligible q).isSome then
      match n.adoptSide 0 with
      | some p => n.startAdoption none p
      | none => n
    else n) rfl hup ?_
  have hside' : (s.node.atT t).adoptSide 0 = some port := hside
  have hgo : ((decide ((s.node.atT t).line.outcome = some 0) && (s.node.atT t).core.mode == .cask && (s.node.atT t).lane.adoption.isNone &&
      ((s.node.atT t).lane.beaconOf q).any (fun x => x.autoAdopt)) && ((s.node.atT t).eligible q).isSome) = true := by
    show ((decide (s.node.line.outcome = some 0) && s.node.core.mode == .cask && s.node.lane.adoption.isNone &&
      (s.node.lane.beaconOf q).any (fun x => x.autoAdopt)) && (s.node.eligible q).isSome) = true
    simp [ho, hm, ha, hx, hauto, he]
  dsimp only
  rw [if_pos hgo, hside']
  obtain ⟨hadoption, hmsgs, _⟩ := startAdoption_spec none port (s.node.atT t)
  exact ⟨hadoption, hmsgs⟩

/-! ### ADOPT -/

theorem atCommit_lane {p : Packet} {n : Node} (h : n.runsNow p = true) : (n.atCommit p).lane = n.lane :=
  atCommit_reads Node.lane (fun _ => rfl) p n h

theorem accepted_lane (p : Packet) (k : Nat) (n : Node) : (n.accepted p k).lane = n.lane := by
  unfold Node.accepted
  split
  · rfl
  · exact emitAll_lane ..

theorem finish_lane (p : Packet) (st : Status) (ch : List (List Word)) (g : Bool) (k : Nat) (n : Node) :
    (n.finish p st ch g k).lane = n.lane := by
  unfold Node.finish
  dsimp only
  split
  · exact (setClient_lane ..).trans (emitAll_lane ..)
  · exact emitAll_lane ..

/-- The side-lanes after a command that waits. -/
theorem packetRow_lane_wait {f : PoolOp → Node → Ans × Node} {p : Packet} {n m : Node} (h : n.runsNow p = true)
    (hf : f (n.opFrom p) (n.atCommit p) = (.wait, m)) (hp : m.core.pool = (n.atCommit p).core.pool) :
    (n.packetRow f p).lane = m.lane := by
  rw [packetRow_wait f p n m h hf hp]
  split
  · rfl
  · exact accepted_lane ..

/-- The side-lanes after a command that ends. -/
theorem packetRow_lane_final {f : PoolOp → Node → Ans × Node} {p : Packet} {n m : Node} {st : Status} {ch : List (List Word)} {g : Bool}
    (h : n.runsNow p = true) (hf : f (n.opFrom p) (n.atCommit p) = (.final st ch g, m))
    (hp : m.core.pool = (n.atCommit p).core.pool) : (n.packetRow f p).lane = m.lane := by
  rw [packetRow_final f p n m h st ch g hf hp, finish_lane]
  rfl

/-- A command that is refused answers so and leaves the side-lanes. -/
theorem packetRow_lane_refused {f : PoolOp → Node → Ans × Node} {p : Packet} {n : Node} {st : Status} {ch : List (List Word)}
    (h : n.runsNow p = true) (hf : f (n.opFrom p) (n.atCommit p) = (.final st ch false, n.atCommit p)) :
    n.replies p st ch (n.packetRow f p) ∧ (n.packetRow f p).lane = n.lane :=
  ⟨packetRow_replies h hf rfl, (packetRow_lane_final h hf rfl).trans (atCommit_lane h)⟩

/-- ADOPT before its packet: what the node stands by is the same at its commit. -/
theorem cmdAdopt_atCommit {p : Packet} {n : Node} (h : n.runsNow p = true) (ha : n.lane.adoption = none) :
    cmdAdopt (n.opFrom p) (n.atCommit p) =
      if fld (pw p 0) 9 0 ≠ n.hopCount ∨ n.lockState = 1 then (.fail .refusedUnsafe, n.atCommit p)
      else match n.adoptSide (fld (pw p 0) 11 10) with
        | none => (.fail .refusedUnsafe, n.atCommit p)
        | some q => (.wait, (n.atCommit p).startAdoption (some (n.opFrom p).order) q) := by
  obtain ⟨_, hr⟩ := runsNow_spec p n h
  have hnone : (n.atCommit p).lane.adoption.isSome = false := by rw [atCommit_lane h, ha]; rfl
  have hhop : (n.atCommit p).hopCount = n.hopCount := atCommit_reads Node.hopCount (fun _ => rfl) p n h
  have hlock : (n.atCommit p).lockState = n.lockState := atCommit_reads Node.lockState (fun _ => rfl) p n h
  have hside := atCommit_reads (fun n => n.adoptSide (fld (pw p 0) 11 10)) (fun _ => rfl) p n h
  unfold cmdAdopt
  dsimp only at hside ⊢
  rw [hr.packet, hnone, hhop, hlock, hside, if_neg Bool.false_ne_true] <;> rfl

theorem adopt_starts {p : Packet} {n : Node} {port : LinePort} (h : n.runsNow p = true) (ha : n.lane.adoption = none)
    (hhop : fld (pw p 0) 9 0 = n.hopCount) (hlock : n.lockState ≠ 1) (hside : n.adoptSide (fld (pw p 0) 11 10) = some port) :
    n.goesOn p (n.packetRow cmdAdopt p) ∧ (n.packetRow cmdAdopt p).lane.adoption =
      some { op := some (n.opFrom p).order, port := port, transfer := { port := port } } := by
  have hf := cmdAdopt_atCommit h ha
  rw [if_neg (not_or.mpr ⟨not_not_intro hhop, hlock⟩), hside] at hf
  obtain ⟨hadoption, _, hcore⟩ := startAdoption_spec (some (n.opFrom p).order) port (n.atCommit p)
  refine ⟨packetRow_goesOn h hf (by rw [Node.opOf, hcore]; rfl), ?_⟩
  rw [packetRow_lane_wait h hf (congrArg Core.pool hcore)]
  exact hadoption

theorem adopt_refused {p : Packet} {n : Node} (h : n.runsNow p = true) (ha : n.lane.adoption = none)
    (hno : fld (pw p 0) 9 0 ≠ n.hopCount ∨ n.lockState = 1 ∨ n.adoptSide (fld (pw p 0) 11 10) = none) :
    n.replies p .refusedUnsafe [[]] (n.packetRow cmdAdopt p) ∧ (n.packetRow cmdAdopt p).lane.adoption = none := by
  have hf : cmdAdopt (n.opFrom p) (n.atCommit p) = (.final .refusedUnsafe [[]] false, n.atCommit p) := by
    rw [cmdAdopt_atCommit h ha]
    split
    · rfl
    · next hokay =>
      obtain ⟨hhop, hlock⟩ := not_or.mp hokay
      obtain hno | hno | hno := hno
      · exact absurd hno hhop
      · exact absurd hno hlock
      · rw [hno]
        rfl
  obtain ⟨hreply, hlane⟩ := packetRow_lane_refused h hf
  exact ⟨hreply, by rw [hlane, ha]⟩

/-! ### An adoption ends -/

/-- What a core reset leaves of the store and the line, and the time it happens. -/
structure Node.AsReset (m n : Node) : Prop where
  configs : m.store.configs = n.store.configs
  lock : m.line.lock = n.line.lock
  outcome : m.line.outcome = n.line.outcome
  now : m.now = n.now

theorem Node.SameBut.asReset {m n : Node} (h : m.SameBut n) : m.AsReset n :=
  ⟨congrArg Store.configs h.store, congrArg Line.lock h.line, congrArg Line.outcome h.line, by rw [Node.now, h.time]; rfl⟩

theorem Node.AsReset.trans {a b c : Node} (h : a.AsReset b) (g : b.AsReset c) : a.AsReset c :=
  ⟨h.configs.trans g.configs, h.lock.trans g.lock, h.outcome.trans g.outcome, h.now.trans g.now⟩

theorem eachOf_asReset {α : Type} (f : α → Node → Node) (hf : ∀ x m, (f x m).AsReset m) (xs : List α) (n : Node) :
    (eachOf xs f n).AsReset n :=
  eachOf_keeps (fun m => m.AsReset n) f xs (fun x _ m h => (hf x m).trans h) n ⟨rfl, rfl, rfl, rfl⟩

theorem formFault_asReset (w : FaultWindow) (k : Nat) (n : Node) : (n.formFault w k).AsReset n := by
  obtain ⟨hconfigs, hlock, houtcome, hnow⟩ := (event_sameBut EventCode.fault w.scope w.first
    [wN (w.code.code + w.cls * 2 ^ 16 + w.kind.code * 2 ^ 18 + flag w.raised 20 + flag w.injected 21), w.ctx, wN k] n).asReset
  exact ⟨hconfigs, hlock, houtcome, hnow⟩

theorem closeWindows_asReset (n : Node) : n.closeWindows.AsReset n :=
  eachOf_asReset (fun w m => m.formFault w w.count) (fun w m => formFault_asReset w w.count m) _ n

theorem dropPool_asReset (cause : DropCause) (n : Node) : (n.dropPool cause).AsReset n := by
  unfold Node.dropPool
  dsimp only
  refine (eachOf_asReset _ ?hops _ _).trans ((eachOf_asReset _ ?ops _ _).trans (eachOf_asReset _ ?plays _ n))
  case hops => exact fun _ _ => ⟨rfl, rfl, rfl, rfl⟩
  case plays => exact fun _ m => (event_sameBut _ _ _ _ m).asReset
  case ops =>
    intro o m
    split
    · exact ⟨rfl, rfl, rfl, rfl⟩
    · obtain ⟨hconfigs, hlock, houtcome, hnow⟩ := (setClient_sameBut _ _).asReset
      exact ⟨hconfigs, hlock, houtcome, hnow⟩

theorem dropTransfer_asReset (n : Node) : n.dropTransfer.AsReset n := by
  unfold Node.dropTransfer
  split <;> exact ⟨rfl, rfl, rfl, rfl⟩

theorem coreReset_asReset (t : SteepTrigger) (cause : DropCause) (wd : Option Bool) (n : Node) : (n.coreReset t cause wd).AsReset n := by
  have hdropped := ((dropTransfer_asReset (n.closeWindows.dropPool cause)).trans (dropPool_asReset cause n.closeWindows)).trans
    (closeWindows_asReset n)
  unfold Node.coreReset
  extract_lets closed emptied dropped k fresh bare r cached laned time timed lined
  have hbare : bare.AsReset dropped := ⟨rfl, rfl, rfl, rfl⟩
  clear_value r
  have hcached : cached.AsReset bare := by
    clear_value bare
    obtain ⟨hconfigs, hlock, houtcome, hnow⟩ := (setClient_sameBut { r with cache := [] } bare).asReset
    exact ⟨hconfigs, hlock, houtcome, hnow⟩
  obtain ⟨hconfigs, hlock, houtcome, hnow⟩ := (hcached.trans hbare).trans hdropped
  clear_value cached
  exact ⟨hconfigs, hlock, houtcome, hnow⟩

/-- A Steep that begins leaves the store and the node's lock. -/
theorem beginSteep_lock {n : Node} (h : n.mayRun = true) : n.beginSteep.store = n.store ∧ n.beginSteep.line.lock = n.line.lock ∧
    n.beginSteep.line.outcome = n.line.outcome := by
  rw [Node.beginSteep, if_pos h]
  exact ⟨rfl, rfl, rfl⟩

/-- R464, R465: the configuration is stored as the current one, the lock with it, and the core restarts. -/
theorem adopt_spec (a : Adoption) (sh : Shadow) (c : Config) {n : Node} (hmay : n.mayRun = true) :
    let m := n.adopt a sh c
    m.store.configs = n.store.configs.set n.store.otherSlot { c with generation := n.store.current.generation + 1 } ∧
      m.line.lock = some (sh.ownerPos.toNat, sh.ownerSig) ∧ m.line.outcome = some 1 ∧ m.core.pool = [] ∧
      m.core.run = .steep { trigger := .coreReset, start := n.now } := by
  unfold Node.adopt
  extract_lets c' b stored locked taken m
  have hrun : (taken.coreReset .coreReset .coreReset none).mayRun = true := (mayRun_of_power (coreReset_power ..)).trans hmay
  obtain ⟨hconfigs, hlock, houtcome, hnow⟩ := coreReset_asReset .coreReset .coreReset none taken
  obtain ⟨_, hsteep⟩ := beginSteep_of_mayRun _ hrun
  obtain ⟨hpool, _⟩ := steep_after_coreReset .coreReset .coreReset none taken hmay
  have hstart : (taken.coreReset .coreReset .coreReset none).now = n.now := hnow
  rw [coreReset_trigger, hstart] at hsteep
  obtain ⟨hstore, hlocked, hout⟩ := beginSteep_lock hrun
  exact ⟨(congrArg Store.configs hstore).trans hconfigs, hlocked.trans hlock, hout.trans houtcome, hpool, hsteep⟩

/-- R465. -/
theorem effect_adoptionDone {s : State} {t : Nat} {a : Adoption} {sh : Shadow} {c : Config} (hup : s.node.up = true)
    (ha : s.node.lane.adoption = some a) (hsh : a.transfer.shadow = some sh) (hc : configOfBytes sh.bytes = some c)
    (hmay : s.node.mayRun = true) : let n := s.node.atT t
    Effect (.adoptionDone t) s fun m =>
      m.store.configs.get n.store.otherSlot = { c with generation := n.store.current.generation + 1 } ∧
      m.store.configs.get (!n.store.otherSlot) = n.store.configs.get (!n.store.otherSlot) ∧
      m.line.lock = some (sh.ownerPos.toNat, sh.ownerSig) ∧ m.line.outcome = some 1 ∧ m.core.pool = [] ∧
      m.core.run = .steep { trigger := .coreReset, start := n.now } := by
  refine effect_of_up rfl hup ?_
  have ha' : (s.node.atT t).lane.adoption = some a := ha
  dsimp only
  rw [ha']
  simp only [hsh, hc]
  obtain ⟨hconfigs, hrest⟩ := adopt_spec a sh c (n := s.node.atT t) hmay
  rw [hconfigs]
  exact ⟨Duo.get_set_same .., Duo.get_set_other _ _ (by simp), hrest⟩

/-! ### The obligation -/

/-- Settles O53: each frame passes one gate, which a fresh one opens with nothing changed but the number received; the parts of a shadow
join by induction on what is left of its bytes. -/
theorem lanesAndAdoption : Obligations.LanesAndAdoption := by
  refine ⟨fun s q t hv hc => ⟨effect_laneLinkChange_up s q t hv hc, fun hauto => ?_⟩,
    fun s q t hup => ⟨effect_bulkResend s t hup, effect_beaconSend s t hup, ?refreshed, ?failed, ?auto, ?done⟩,
    fun s g t hup => ⟨?stale, fun hfresh => ⟨fun x => ⟨?beacon, ?differs, ?agrees⟩, ?serves, ?refreshes, ?adopts⟩⟩,
    fun s p h => ⟨fun port ha hhop hlock hside => ⟨_, rfl, adopt_starts h ha hhop hlock hside⟩,
      fun ha hno => ⟨_, rfl, adopt_refused h ha hno⟩⟩⟩
  · obtain ⟨m, hm, hlink, hrefresh, hbeacon, hadoption⟩ := effect_laneLinkChange_down (q := q) (t := t) hv hc hauto
    exact ⟨m, hm, hlink, hrefresh, by cases q <;> exact hbeacon, hadoption⟩
  case refreshed =>
    intro x sh h hx hh hsh
    refine effect_refreshDone hup hx hh ?_
    rw [hsh]
    cases q <;> exact ⟨rfl, rfl⟩
  case failed =>
    intro x h hx hh hsh
    refine effect_refreshDone hup hx hh ?_
    rw [hsh]
    cases q <;> exact ⟨rfl, rfl⟩
  case auto =>
    intro x port ho hm ha hx hauto he hside
    have hx' : s.node.lane.beaconOf q = some x := by cases q <;> exact hx
    exact effect_autoAdopt hup ho hm ha hx' hauto he hside
  case done => exact fun a sh c ha hsh hc hmay => effect_adoptionDone hup ha hsh hc hmay
  case stale =>
    intro hstale b a x fr r p k y e z
    simp only [List.forall_mem_cons]
    have hgate := hstale
    exact ⟨effect_stale rfl hup hgate, effect_stale rfl hup hgate, effect_stale rfl hup hgate, effect_stale rfl hup hgate,
      effect_stale rfl hup hgate, effect_stale rfl hup hgate, effect_stale rfl hup hgate, effect_stale rfl hup hgate,
      effect_stale rfl hup hgate, effect_stale rfl hup hgate, fun _ h => absurd h List.not_mem_nil⟩
  case beacon => exact effect_fresh rfl hup hfresh (takeBeacon_keeps g.port x _)
  case differs =>
    intro ha hx hd
    have hsame := gotFrame_reads (fun n => (n.lane.adoption, n.shadowOf g.port, n.laneMsgs)) (fun _ _ _ => rfl) g (s.node.atT t)
    simp only [Prod.mk.injEq] at hsame
    obtain ⟨hadoption, hshadow, hmsgs⟩ := hsame
    refine effect_fresh rfl hup hfresh ?_
    obtain ⟨hrefresh, hsends⟩ := takeBeacon_refreshes (hadoption.trans ha) hx ((congrArg (shadowDiffers · x) hshadow).trans hd)
    exact ⟨hrefresh, hsends.trans (by rw [hmsgs]; rfl)⟩
  case agrees =>
    intro hd
    have hshadow := gotFrame_reads (fun n => n.shadowOf g.port) (fun _ _ _ => rfl) g (s.node.atT t)
    refine effect_fresh rfl hup hfresh ((takeBeacon_agrees ((congrArg (shadowDiffers · x) hshadow).trans hd)).trans ?_)
    exact gotFrame_reads (fun n => n.lane.out) (fun _ _ _ => rfl) g (s.node.atT t)
  case serves =>
    intro adopt sh hsh
    refine ⟨shadowParts_bytes sh _ 0 sh.bytes (Nat.lt_succ_self _), effect_fresh rfl hup hfresh ?_⟩
    have hsame := gotFrame_reads (fun n => (if adopt then n.shadowOf g.port else some n.ownShadow, n.laneMsgs)) (fun _ _ _ => rfl) g
      (s.node.atT t)
    simp only [Prod.mk.injEq] at hsame
    obtain ⟨hserved, hmsgs⟩ := hsame
    exact (serve_sends (hserved.trans hsh)).trans (by rw [hmsgs]; rfl)
  case refreshes =>
    intro p x ha hx hp
    have hsame := gotFrame_reads (fun n => (n.lane.adoption, n.lane.refresh g.port)) (fun _ _ _ => by cases g.port <;> rfl) g (s.node.atT t)
    simp only [Prod.mk.injEq] at hsame
    obtain ⟨hadoption, hrefresh⟩ := hsame
    exact effect_fresh rfl hup hfresh (takePart_refresh (hadoption.trans ha) (hrefresh.trans hx) hp)
  case adopts =>
    intro p a ha hport
    have hadoption := (gotFrame_reads (fun n => n.lane.adoption) (fun _ _ _ => rfl) g (s.node.atT t)).trans ha
    refine ⟨fun hl hp => effect_fresh rfl hup hfresh (takePart_extends hadoption hport hl hp), fun hl hop hs => ?_⟩
    refine effect_fresh rfl hup hfresh ?_
    obtain ⟨hnone, hstore⟩ := takePart_fails hadoption hport hl hop hs
    exact ⟨hnone, hstore.trans (gotFrame_reads Node.store (fun _ _ _ => rfl) g (s.node.atT t))⟩

end Sys2Proof.Machine
end

section
/-!
PROOFS. A pair whose lower member relays the close of a session (14_tandem.md R479; 05_commands.md R64).
-/
namespace Sys2Proof.Machine

/-- The upper member of a fused pair, with link to its partner and no operation in its pool. -/
def idleUpper : State :=
  let n := State.reset.node
  { pending := []
    node := { n with
      power := { n.power with vcel := true, railsGood := true }
      core := { n.core with run := .up, mode := .tandem }
      lane := { n.lane with state := .upper, isLower := false, upLink := true, sending := true } } }

/-- A sound bulk frame from the lower member. -/
def fromLower : LaneHdr := { port := .up, seq := 1, crcOk := true }

/-- CLOSE_SESSION of client 7. -/
def closeOf7 : Packet := asRow .closeSession noWords

theorem exec_relay (g : LaneHdr) (p : Packet) (k t : Nat) (s : State) :
    exec (.relay g p k t) s = s.upd fun n => n.whenUp fun n => (n.atT t).laneTake g (Node.takeRelay p k) := rfl

/-- R64, log entry 110: the lower member's word that a session has closed does not wait for a tick and is no operation. -/
theorem idleUpper_closes : ((idleUpper.node.atT 0).laneTake fromLower (Node.takeRelay closeOf7 1)).core.pool = [] := by decide +kernel

/-- Refutes O54: the statement lets every relayed command of a later tick join the upper member's pool, and the close of a session, which
the lower member relays too, acts when it comes. -/
theorem not_tandemPair : ¬ Obligations.TandemPair := by
  intro h
  obtain ⟨_, hframes, _⟩ := h
  obtain ⟨_, _, hupper, _⟩ := hframes idleUpper fromLower 0 rfl rfl rfl (by decide)
  obtain ⟨_, hqueues, _⟩ := hupper rfl
  obtain ⟨_, hpool, _⟩ := (hqueues closeOf7 1 (by decide +kernel)).of_row (exec_relay fromLower closeOf7 1 0 idleUpper)
  exact absurd (hpool.symm.trans idleUpper_closes) (List.append_ne_nil_of_right_ne_nil _ (List.cons_ne_nil _ _))

end Sys2Proof.Machine
end
